-- ==== Sys2Proof/Word.lean ====
section
/-! DEFINITION. The word types of the KX5 and their plainest arithmetic.
Every register of the device is 32 bits wide (R12); a command is 32 bytes (R267); memory is read and written a byte
at a time and grouped into 64-byte granules (R279, R424). -/

namespace Sys2Proof

/-- A byte of a memory, a ring entry or a record (R18). -/
abbrev Byte := BitVec 8

/-- A register or field value (R12). -/
abbrev Word := BitVec 32

/-- One 32-byte engine command, bit 255 the top bit of byte 31 (R18, R267). -/
abbrev Cmd := BitVec 256

/-- Bits `[lo + w - 1 : lo]` of a number. -/
def bitsOf (v lo w : Nat) : Nat := (v >>> lo) % 2 ^ w

/-- Bit `n` of a number, as a Bool. -/
def bitOf (v n : Nat) : Bool := v.testBit n

/-- 1 for true and 0 for false, as one-bit fields are read. -/
def b2n (b : Bool) : Nat := if b then 1 else 0

/-- A field of a command, as a number. -/
def Cmd.fld (c : Cmd) (lo w : Nat) : Nat := bitsOf c.toNat lo w

/-- Two's-complement reading of a `w`-bit number. -/
def sgn (w v : Nat) : Int := if v % 2 ^ w < 2 ^ (w - 1) then (v % 2 ^ w : Nat) else ((v % 2 ^ w : Nat) : Int) - 2 ^ w

/-- The `w`-bit two's-complement pattern of an integer. -/
def usg (w : Nat) (i : Int) : Nat := (i % (2 ^ w : Nat)).toNat

/-- Ceiling division. -/
def ceilDiv (a b : Nat) : Nat := (a + b - 1) / b

/-- Saturating addition for the 32-bit counters of R126. -/
def satAdd32 (a b : Nat) : Nat := min (a + b) 0xFFFFFFFF

/-- The little-endian number that a list of bytes spells (R18). -/
def leNat : List Byte → Nat
  | [] => 0
  | b :: r => b.toNat + 256 * leNat r

/-- The `n` little-endian bytes of a number (R18). -/
def toLe : Nat → Nat → List Byte
  | 0, _ => []
  | n + 1, v => BitVec.ofNat 8 v :: toLe n (v / 256)

end Sys2Proof
end

