-- ==== Sys2Proof/Syntax.lean ====
section
/-! DEFINITION. The commands the block takes, with the data that comes with them. -/

namespace Sys2Proof

/-- The four engines of a core, numbered as in the hazard report (R298). -/
inductive Engine where
  | matrix | vector | transfer | weight
  deriving DecidableEq, Repr

/-- An engine's number (R298). -/
def Engine.num : Engine → Nat
  | .matrix => 0
  | .vector => 1
  | .transfer => 2
  | .weight => 3

/-- A message of the Ewebo Link (R468): its header's fields, coded as the header codes them, and its data granules. -/
structure LinkMsg where
  type : BitVec 8
  flags : BitVec 8
  srcMod : BitVec 16
  srcSt : BitVec 16
  dstMod : BitVec 16
  dstSt : BitVec 16
  arg0 : BitVec 32
  pmask : BitVec 64
  arg1 : BitVec 64
  data : List (List Byte)
  deriving DecidableEq, Repr

/-- A flit (chapter 14): its header's fields and its 242 payload bytes. -/
structure Flit where
  seq : BitVec 16
  ack : BitVec 16
  type : BitVec 4
  ackV : Bool
  nak : Bool
  replay : Bool
  cred : BitVec 11
  stamp : BitVec 24
  payload : List Byte
  deriving DecidableEq, Repr

/-- What the decoder of a port met since the last flit (R446): codewords received, uncorrectable ones, and for each corrected codeword
the indexes of the symbols corrected in it. -/
structure FecCounts where
  words : Nat
  uncorr : Nat
  corr : List (List Nat)
  deriving DecidableEq, Repr

/-- What reaches a port's receiver: a flit that the decoder has handed up; or, as the lanes bring it, a data codeword of 544 symbols or an
alignment codeword (R443 to R446). -/
inductive RxUnit where
  | flit (f : Flit)
  | word (symbols : List (BitVec 10))
  | align
  deriving DecidableEq, Repr

/-- What a train finds (R447 to R451, R494): the usable physical lanes, lane order as sent or reversed (none for any other order), the
lanes whose polarity is corrected, the path delay in 1/16 ns, the transmit taps, and the partner's position, block and port. -/
structure TrainFindings where
  lanes : BitVec 4
  order : Option Bool
  pol : BitVec 4
  delay : BitVec 20
  taps : List (BitVec 24)
  npos : BitVec 6
  nblk : BitVec 6
  nport : BitVec 5
  deriving DecidableEq, Repr

/-- A cell that the read-verify path reads off its target (R85 to R87, R213): the array position, the row (1,024 to 1,039 are the witness
rows), the physical column, whether it is the negative cell of the pair, and its conductance in 1/100 µS. -/
structure CellRead where
  array : BitVec 6
  row : BitVec 11
  col : BitVec 11
  neg : Bool
  cond : BitVec 16
  deriving DecidableEq, Repr

/-- What a calibration run measured at one column position (R238, R239): the array, the position, the sums of its two codes of phase I after
+16, −16, +48, −48, +80, −80, +112 and −112 weight units, the sum of its 16 codes of phase Z, for each of the 16 Walsh patterns the sum of its 4
codes of phase W, and whether one of those saturated. -/
structure CalMeas where
  array : BitVec 6
  pos : BitVec 11
  inj : List Int
  z : Int
  w : List Int
  sat : Bool
  deriving DecidableEq, Repr

/-- What a weight pass finds (R213, R214, R218, R237): the cells that its last read finds off their targets (a cell that is not listed sits on
its target), the arrays with a faulty row driver (R118), and what its sweep measures of witness columns and reference columns; the last two
lists are those of the other bank, where a replacement programs both. -/
structure PassFindings where
  cells : List CellRead
  drivers : List (BitVec 6)
  corr : List CalMeas
  refs : List CalMeas
  corr2 : List CalMeas
  refs2 : List CalMeas
  deriving DecidableEq, Repr

/-- The array position of a repair that finishes, and what its sweep found. -/
structure RepairFindings where
  array : BitVec 6
  found : PassFindings
  deriving DecidableEq, Repr

/-- What a calibration run measured: the column positions whose set it moves (a position that is not listed measured the
values in force, and its injected values exactly) and the reference columns in the same form. -/
structure CalFindings where
  cols : List CalMeas
  refs : List CalMeas
  deriving DecidableEq, Repr

/-- What the boot ROM meets in the start sequence (R558): the stage whose step does not end, if there is one; whether key, digest and
signature of configuration copies A and B hold (R555); the stacks that train only at 4.8 Gb/s and those that train at neither rate (R417);
the repair entries skipped (R551); the die sensors' readings in 1/16 °C (R618); and each converter's trims and start-up delay (R591). -/
structure BootFindings where
  hang : Option (BitVec 3)
  keyA : Bool
  keyB : Bool
  slow : List (BitVec 5)
  dead : List (BitVec 5)
  pprSkip : BitVec 16
  temps : List (BitVec 7 × BitVec 16)
  trims : List (BitVec 2 × BitVec 16 × BitVec 8 × BitVec 8)
  deriving DecidableEq, Repr

/-- What the firmware meets at its first start (R565): the health rows that do not read as they were last written, as core, physical array
(64 to 71 are the spares), bank, whether it is the copy, and the bytes read; and what the start-up calibration of each core measured. -/
structure FirmwareFindings where
  rows : List (BitVec 9 × BitVec 7 × BitVec 1 × Bool × List Byte)
  cal : List (BitVec 9 × CalFindings)
  deriving DecidableEq, Repr

/-- Where a router or station meets a buffer error (R350): in a multicast of a core's store queue, on the branch that leaves the router by a
node link code; in the slab at the head of an input of the router's reduction node; in the data of a message that waits in this module, by
its place in arrival order; on its way for the oldest fetch of a core's queue, or from the oldest command of a core's store queue whose source
has been read. -/
inductive BufHit where
  | multicast (code : BitVec 5)
  | slab (circ : BitVec 8) (input : BitVec 3)
  | message (index : BitVec 13)
  | fetch
  | store
  deriving DecidableEq, Repr

/-- The commands of the block: one constructor for each row of the table of operations and events (spec/opcode_table.json),
in its order. The table gives rows no operands; each constructor carries what the world supplies with the command. -/
inductive Instr where
  /-- TICK_EDGE: the next tick edge. -/
  | tickEdge
  /-- FRAME_CUT: c (P - 32) of the tick in progress. -/
  | frameCut
  /-- FRAME_COMPLETE: everything R71 names has finished on every core of p. -/
  | frameComplete (p : BitVec 6)
  /-- FDONE: a member's done note for the frame. -/
  | fdone (p : BitVec 6) (member : BitVec 12) (seq : Word)
  /-- PUBLISH_CHECK: c (P - 2,048) of the tick in progress. -/
  | publishCheck
  /-- PUBLISH: a publish note naming an edge. -/
  | publish (p : BitVec 6) (edge : BitVec 48)
  /-- FRAME_WATCHDOG: the frame watchdog looks at p. -/
  | frameWatchdog (p : BitVec 6)
  /-- TICK: a block tick mark: its number, the period it carries, its elapsed delay in 1/16 ns, and the phase error measured against it
  in 1/16 ns; none where it came in a flit sent again (R460). -/
  | tick (port : BitVec 5) (num : BitVec 48) (period : BitVec 5) (elapsed : BitVec 20) (phase : Option (BitVec 16))
  /-- FIELD_TICK: a FIELD mark at a block master: its number, the period it carries, its elapsed delay in 1/16 ns and the phase error measured against
  it in 1/16 ns; none where it came in a flit sent again (R460). -/
  | fieldTick (port : BitVec 5) (num : BitVec 48) (period : BitVec 5) (elapsed : BitVec 20) (phase : Option (BitVec 16))
  /-- UPSTREAM_SWITCH: 2 edges have passed without a mark. -/
  | upstreamSwitch
  /-- HOLDOVER_ENTRY: 4 edges have passed without a mark. -/
  | holdoverEntry
  /-- HOLDOVER_TIMEOUT: 256 ticks of holdover have passed. -/
  | holdoverTimeout
  /-- HOLDOVER_REALIGN: a returning mark. -/
  | holdoverRealign (port : BitVec 5) (num : BitVec 48)
  /-- PERIOD_ARM: 1 written to PERIOD_ARM. -/
  | periodArm
  /-- PERIOD_CHANGE_APPLY: the named tick of a period change has come. -/
  | periodChangeApply
  /-- FIRST_TICK: the tick unit's first edge; on a member, the port and the number of the first mark that it received, none where no mark has come in 100 ms. -/
  | firstTick (mark : Option (BitVec 5 × BitVec 48))
  /-- MPROD: the matrix engine executes the command. -/
  | mprod (core : BitVec 9) (cmd : Cmd)
  /-- MFRAME: the matrix engine executes the command. -/
  | mframe (core : BitVec 9) (cmd : Cmd)
  /-- GRANT_ADMIT: the oldest waiting request of a partition, or of the program cap, is looked at; the cycles it has waited. -/
  | grantAdmit (holder : Option (BitVec 6)) (cycles : BitVec 32)
  /-- PRODUCT_DECIDE: the product's last conversion has reached the octet adder. -/
  | productDecide (core : BitVec 9) (id : Nat)
  /-- FALLBACK_REPEAT: the product's repeat is issued. -/
  | fallbackRepeat (core : BitVec 9) (id : Nat)
  /-- SLAB_WRITE: the oldest product's slab is delivered. -/
  | slabWrite (core : BitVec 9)
  /-- REF_PRODUCT: the integer lanes have formed the product. -/
  | refProduct (core : BitVec 9) (id : Nat)
  /-- FLIP_SWITCH_END: E c 1,536 of a flip in progress on the core. -/
  | flipSwitchEnd (core : BitVec 9)
  /-- DEFECT_ACTIVE: a defect is found in the active bank: the column positions it affects, and whether a row driver is faulty; or the correction table of the array's octet is spoilt. -/
  | defectActive (core : BitVec 9) (array : BitVec 6) (cols : List (BitVec 11)) (driver table : Bool)
  /-- REPAIR_DONE: the column repair or array replacement that runs on a position finishes its verify. -/
  | repairDone (core : BitVec 9) (done : RepairFindings)
  /-- MARGIN_SAMPLE: the read-verify path reads one row of a bank: the cells of it that read off their targets. -/
  | marginSample (core : BitVec 9) (array : BitVec 6) (bank : BitVec 1) (reads : List CellRead)
  /-- AUTO_REFRESH: the weight engine looks at the inactive bank of an array. -/
  | autoRefresh (core : BitVec 9) (array : BitVec 6)
  /-- WPROG: the weight engine executes the command. -/
  | wprog (core : BitVec 9) (cmd : Cmd)
  /-- WADOPT: the weight engine executes the command. -/
  | wadopt (core : BitVec 9) (cmd : Cmd)
  /-- WFLIP: the weight engine executes the command. -/
  | wflip (core : BitVec 9) (cmd : Cmd)
  /-- WREFR: the weight engine executes the command. -/
  | wrefr (core : BitVec 9) (cmd : Cmd)
  /-- WERASE: the weight engine executes the command. -/
  | werase (core : BitVec 9) (cmd : Cmd)
  /-- WVERIFY: the weight engine executes the command. -/
  | wverify (core : BitVec 9) (cmd : Cmd)
  /-- PASS_START: the pass of that number may begin. -/
  | passStart (core : BitVec 9) (id : Nat)
  /-- PASS_END: the pass of that number ends, with what it found in the cells. -/
  | passEnd (core : BitVec 9) (id : Nat) (found : PassFindings)
  /-- CAL_FORCE: 1 written to CAL_FORCE. -/
  | calForce (core : BitVec 9)
  /-- CAL_AGE_EXPIRY: CAL_AGE hours have passed since the last run. -/
  | calAgeExpiry (core : BitVec 9)
  /-- CAL_RUN_START: c CAL_AT of a slot, or c 256 on a core of no enabled partition. -/
  | calRunStart (core : BitVec 9)
  /-- CAL_RUN_END: the run ends, with the codes it measured. -/
  | calRunEnd (core : BitVec 9) (found : CalFindings)
  /-- CAL_WRITEBACK: the moment of a calibration write-back. -/
  | calWriteback
  /-- FLASH_WRITE_DONE: the flash write in progress is complete and verified. -/
  | flashWriteDone
  /-- NOP: an engine of a core executes the command. -/
  | nop (core : BitVec 9) (e : Engine) (cmd : Cmd)
  /-- EOFR: an engine of a core executes the command. -/
  | eofr (core : BitVec 9) (e : Engine) (cmd : Cmd)
  /-- JUMP: an engine of a core executes the command. -/
  | jump (core : BitVec 9) (e : Engine) (cmd : Cmd)
  /-- QWAIT: an engine of a core executes the command. -/
  | qwait (core : BitVec 9) (e : Engine) (cmd : Cmd)
  /-- UNKNOWN_OPCODE: an engine of a core reads an opcode that it does not know. -/
  | unknownOpcode (core : BitVec 9) (e : Engine) (cmd : Cmd)
  /-- FETCH: the transfer engine executes the command. -/
  | fetch (core : BitVec 9) (cmd : Cmd)
  /-- STORE: the transfer engine executes the command. -/
  | store (core : BitVec 9) (cmd : Cmd)
  /-- LCOPY: the transfer engine executes the command. -/
  | lcopy (core : BitVec 9) (cmd : Cmd)
  /-- FETCH_COMPLETE: the oldest fetch of a fetch queue has landed. -/
  | fetchComplete (core : BitVec 9) (q : BitVec 4)
  /-- STORE_READ: the source of the oldest unread command of a store queue has been read. -/
  | storeRead (core : BitVec 9) (q : BitVec 3)
  /-- STORE_DONE: the oldest command of a store queue has delivered its granules. -/
  | storeDone (core : BitVec 9) (q : BitVec 3)
  /-- PATROL_SCRUB: the scrub reads the present row of every bank; the errors that the cells carry there, by bank and quarter, true for two bad bits. -/
  | patrolScrub (core : BitVec 9) (found : List (BitVec 7 × Bool))
  /-- TALLY_WRITE: a host write to a tally register. -/
  | tallyWrite (fn : BitVec 7) (core : BitVec 9) (t : BitVec 6) (value : BitVec 16)
  /-- VPSIN: the vector engine executes the command. -/
  | vpsin (core : BitVec 9) (cmd : Cmd)
  /-- VACT: the vector engine executes the command. -/
  | vact (core : BitVec 9) (cmd : Cmd)
  /-- VEW: the vector engine executes the command. -/
  | vew (core : BitVec 9) (cmd : Cmd)
  /-- VNORM: the vector engine executes the command. -/
  | vnorm (core : BitVec 9) (cmd : Cmd)
  /-- VSMAX: the vector engine executes the command. -/
  | vsmax (core : BitVec 9) (cmd : Cmd)
  /-- VATTN: the vector engine executes the command. -/
  | vattn (core : BitVec 9) (cmd : Cmd)
  /-- RSEND: the transfer engine executes the command. -/
  | rsend (core : BitVec 9) (cmd : Cmd)
  /-- RED_FOLD: a router's node of a circuit has a slab at every input; whether the circuit entry's stored check held. -/
  | redFold (router : BitVec 5) (circ : BitVec 8) (intact : Bool)
  /-- RED_DELIVER: a circuit's root holds a sum; the cycles for which it was held without credits. -/
  | redDeliver (circ : BitVec 8) (held : BitVec 32)
  /-- MSEND: the transfer engine executes the command. -/
  | msend (core : BitVec 9) (cmd : Cmd)
  /-- MC_ACK: the copy for a core target has reached it and its acknowledgement returned. -/
  | mcAck (core : BitVec 9) (q : BitVec 3) (target : BitVec 6)
  /-- MC_COMPLETE: every target of a multicast has acknowledged. -/
  | mcComplete (core : BitVec 9) (q : BitVec 3)
  /-- POISON_NOTE: a router meets a buffer error in a granule of the traffic that `hit` names; the core and the queue are those of traffic
that has them. -/
  | poisonNote (router : BitVec 5) (core : BitVec 9) (q : BitVec 4) (hit : BufHit) (gran : BitVec 32) (correctable : Bool)
  /-- NODE_WRITE: a host write at a BAR0 offset: NODE_LO, NODE_HI, the circuit table or a target list. -/
  | nodeWrite (addr : BitVec 26) (value : Word)
  /-- OPEN: the tier command of a function (0 the physical function, n virtual function n), with the granule of the image. -/
  | openCmd (fn : BitVec 7) (req : BitVec 16) (addr : BitVec 36)
  /-- OPEN_DONE: the zeroing of an OPEN has ended. -/
  | openDone (req : BitVec 16)
  /-- CLOSE: the tier command of a function. -/
  | close (fn : BitVec 7) (req : BitVec 16)
  /-- PARK: the tier command of a function. -/
  | parkCmd (fn : BitVec 7) (req : BitVec 16)
  /-- RESUME: the tier command of a function. -/
  | resume (fn : BitVec 7) (req : BitVec 16)
  /-- SET_TTL: the tier command of a function. -/
  | setTtl (fn : BitVec 7) (req : BitVec 16) (seconds : BitVec 32)
  /-- PIN: the tier command of a function. -/
  | pin (fn : BitVec 7) (req : BitVec 16) (pinned : Bool)
  /-- IDLE_DEADLINE: the request's idle deadline is compared. -/
  | idleDeadline (req : BitVec 16)
  /-- TTL_DEADLINE: the request's time-to-live deadline is compared. -/
  | ttlDeadline (req : BitVec 16)
  /-- TIER_PAGE_MOVE: one page of the request's move is copied. -/
  | tierPageMove (req : BitVec 16)
  /-- PARK_DONE: the flush read returned the same bytes. -/
  | parkDone (req : BitVec 16)
  /-- PARK_ABORT: the flush read failed or took longer than 50 ms. -/
  | parkAbort (req : BitVec 16)
  /-- RETURN_START: the tier manager looks at a return that has not begun. -/
  | returnStart (req : BitVec 16)
  /-- RETURN_DONE: an edge after the last page landed. -/
  | returnDone (req : BitVec 16)
  /-- RETURN_FAIL: a Silo read failed, timed out or failed its check. -/
  | returnFail (req : BitVec 16)
  /-- POOL_PRESSURE: firmware looks at the partition's pool. -/
  | poolPressure (p : BitVec 6)
  /-- SILO_COUNT_WRITE: a write to SILO_COUNT. -/
  | siloCountWrite (p : BitVec 6) (value : BitVec 26)
  /-- RQ_SEL: a write to RQ_SEL. -/
  | rqSel (sel : BitVec 16)
  /-- WS_SEL: a write to WS_SEL. -/
  | wsSel (core : BitVec 9) (sel : BitVec 12)
  /-- WDRAW: the transfer engine executes the command. -/
  | wdraw (core : BitVec 9) (cmd : Cmd)
  /-- WDRAW_SLICE: the oldest slice of a store queue that has been read reaches the Winnow. -/
  | wdrawSlice (core : BitVec 9) (q : BitVec 3)
  /-- DRAW_START: a draw engine is free. -/
  | drawStart
  /-- DRAW_DONE: the draw running on a device slot has finished. -/
  | drawDone (slot : BitVec 10)
  /-- VERIFY_DECIDE: every draw of a verify pass has finished. -/
  | verifyDecide (p : BitVec 6) (req : BitVec 16)
  /-- HBM_SCRUB: the next granule of a stack's sweep: errors that have come up in its cells (true for a double one) and the corrections its on-die ECC reported. -/
  | hbmScrub (stack : BitVec 5) (found : List (BitVec 36 × Bool)) (odecc : BitVec 16)
  /-- HBM_REFRESH: a refresh of a stack. -/
  | hbmRefresh (stack : BitVec 5)
  /-- HBM_TEMP_READ: a stack's temperature in 1/16 °C, none where the read-out fails. -/
  | hbmTempRead (stack : BitVec 5) (reading : Option (BitVec 16))
  /-- HBM_INTERFACE_FAIL: a stack's interface fails. -/
  | hbmInterfaceFail (stack : BitVec 5)
  /-- BAR2_READ: a host read at a byte of the aperture. -/
  | bar2Read (addr : BitVec 36) (len : BitVec 13)
  /-- BAR2_WRITE: a host write at a byte of the aperture; whether its data arrived poisoned. -/
  | bar2Write (addr : BitVec 36) (data : List Byte) (poisoned : Bool)
  /-- BAR2_MAP_WRITE: a write of a segment's map entry. -/
  | bar2MapWrite (seg : BitVec 5) (value : Word)
  /-- BAR2_RESIZE: a new size, and whether the memory decode is enabled. -/
  | bar2Resize (n : BitVec 6) (decode : Bool)
  /-- PORT_ENABLE: a write of ENABLE of a port. -/
  | portEnable (port : BitVec 5) (en : Bool)
  /-- RETRAIN: 1 written to RETRAIN of a port. -/
  | retrain (port : BitVec 5)
  /-- PARTNER_TRAIN: the partner of a port begins training. -/
  | partnerTrain (port : BitVec 5) (full : Bool)
  /-- TRAIN_DONE: the phases of a train are complete, with what they found. -/
  | trainDone (port : BitVec 5) (found : TrainFindings)
  /-- TRAIN_FAIL: a phase of a train passed its limit: the code of the phase. -/
  | trainFail (port : BitVec 5) (code : BitVec 8)
  /-- TRAIN_RETRY: 100 ms have passed since the port failed. -/
  | trainRetry (port : BitVec 5)
  /-- QUICK_TRAIN: an event of R452: 0 error ratio, 1 codewords, 2 sixteen sends of one flit. -/
  | quickTrain (port : BitVec 5) (cause : BitVec 2)
  /-- TIMING_EXCHANGE: a path delay measured in idle flits. -/
  | timingExchange (port : BitVec 5) (delay : BitVec 20)
  /-- FLIT_TX: the next flit time of a port's transmitter. -/
  | flitTx (port : BitVec 5)
  /-- FLIT_RX: a flit is received, with whether its codeword bits are good, whether its CRC matches and what the decoder met; or a codeword,
which the port's own decoder reads (the outcomes are a flit's alone). -/
  | flitRx (port : BitVec 5) (u : RxUnit) (cwGood : Bool) (crcGood : Bool) (fec : FecCounts)
  /-- REPLAY_TIMEOUT: ACK has not advanced for REPLAY_TO cycles. -/
  | replayTimeout (port : BitVec 5)
  /-- PORT_FAIL: a failed port hands its messages back. -/
  | portFail (port : BitVec 5)
  /-- WWRITE: a message is delivered: the one given, or the oldest of its type that waits here. -/
  | wwrite (m : Option LinkMsg)
  /-- WACK: a message is delivered: the one given, or the oldest of its type that waits here. -/
  | wack (m : Option LinkMsg)
  /-- CGRANT: a message is delivered: the one given, or the oldest of its type that waits here. -/
  | cgrant (m : Option LinkMsg)
  /-- RADD: a message is delivered: the one given, or the oldest of its type that waits here. -/
  | radd (m : Option LinkMsg)
  /-- SNAP: a message is delivered: the one given, or the oldest of its type that waits here; the port it came by. -/
  | snap (port : BitVec 5) (m : Option LinkMsg)
  /-- POISON: a message is delivered: the one given, or the oldest of its type that waits here. -/
  | poison (m : Option LinkMsg)
  /-- CSET: a message is delivered: the one given, or the oldest of its type that waits here. -/
  | cset (m : Option LinkMsg)
  /-- CSET_ACK: a message is delivered: the one given, or the oldest of its type that waits here. -/
  | csetAck (m : Option LinkMsg)
  /-- COMMIT: a message is delivered: the one given, or the oldest of its type that waits here. -/
  | commit (m : Option LinkMsg)
  /-- NOTE_ACK: a message is delivered: the one given, or the oldest of its type that waits here. -/
  | noteAck (m : Option LinkMsg)
  /-- MGMT: a message is delivered: the one given, or the oldest of its type that waits here; whether the management complex can take it. -/
  | mgmt (m : Option LinkMsg) (taken : Bool)
  /-- WOPEN: the transfer engine executes the command. -/
  | wopen (core : BitVec 9) (cmd : Cmd)
  /-- WCLOSE: the transfer engine executes the command. -/
  | wclose (core : BitVec 9) (cmd : Cmd)
  /-- WSEND: the transfer engine executes the command. -/
  | wsend (core : BitVec 9) (cmd : Cmd)
  /-- SW_EN: a write of SW_EN and PEER of a port. -/
  | swEn (port : BitVec 5) (peer : BitVec 5) (en : Bool)
  /-- KEY_LOAD: 1 written to KEY_LOAD of a port. -/
  | keyLoad (port : BitVec 5)
  /-- HC_GO: 1 written to HC_GO of a partition by a function. -/
  | hcGo (fn : BitVec 7) (p : BitVec 6)
  /-- HOST_COPY_DONE: the copy at the head of a partition's queue is complete. -/
  | hostCopyDone (p : BitVec 6)
  /-- SQ_EN: a write of SQ_EN of a ring. -/
  | sqEn (fn : BitVec 7) (p : BitVec 6) (ring : BitVec 2) (en : Bool)
  /-- MSIX_UNMASK: the host unmasks a vector of a function. -/
  | msixUnmask (fn : BitVec 7) (v : BitVec 5)
  /-- FLR: a function level reset of virtual function 1 to 64. -/
  | flr (vf : BitVec 7)
  /-- HOST_LINK_DOWN: the host link is lost. -/
  | hostLinkDown
  /-- HOST_LINK_UP: the host link has trained: generation, lanes, Flit Mode. -/
  | hostLinkUp (gen : BitVec 3) (width : BitVec 5) (flit : Bool)
  /-- IDE_FAIL: an integrity failure of the link stream (none) or of a function's selective stream. -/
  | ideFail (stream : Option (BitVec 7))
  /-- SPDM_REQUEST: an SPDM request over DOE, and the IDE streams that its key management has made secure (none the link stream). -/
  | spdmRequest (req : List Byte) (secured : List (Option (BitVec 7)))
  /-- BAR0_BAD_ACCESS: a BAR0 access of a function: its direction, bytes, offset and data. -/
  | bar0BadAccess (fn : BitVec 7) (write : Bool) (width : BitVec 7) (off : BitVec 26) (data : BitVec 64)
  /-- ENABLE: 1 written to ENABLE of a partition. -/
  | enable (p : BitVec 6)
  /-- DISABLE: 1 written to DISABLE of a partition. -/
  | disable (p : BitVec 6)
  /-- ACCORD_CHECK: a turn of the check at the head of the queue. -/
  | accordCheck (p : BitVec 6)
  /-- ENABLING_DONE: the zeroing of an enabling partition has ended. -/
  | enablingDone (p : BitVec 6)
  /-- GO_TIMEOUT: c 0 of ENABLE_AT has come. -/
  | goTimeout (p : BitVec 6)
  /-- PARTITION_RESET: a partition-fatal event: source, code and station of its record, and the weight-set table entry found poisoned, if it was one. -/
  | partitionReset (p : BitVec 6) (src code : Byte) (station : BitVec 10) (entry : Option (BitVec 9 × BitVec 12))
  /-- DISABLE_SCRUB_DONE: the scrub of a disabling partition is complete. -/
  | disableScrubDone (p : BitVec 6)
  /-- CORE_TABLE_WRITE: a write of a core's table entry. -/
  | coreTableWrite (core : BitVec 9) (value : Word)
  /-- MOD_RST_N: MOD_RST_N is held low for 10 µs. -/
  | modRstN
  /-- PERST_N: PERST_N is driven. -/
  | perstN
  /-- RESET_RELEASE: reset release: the straps (POS, BLK, TICKSRC and STRAP_PAR from bit 0 on), what manufacture has written into the flash, and what the boot ROM meets. -/
  | resetRelease (straps : BitVec 14) (made : List (BitVec 26 × List Byte)) (found : BootFindings)
  /-- BOOT_STEP_TIMEOUT: the start step in force passes its limit. -/
  | bootStepTimeout
  /-- FW_GO: 1 written to FW_GO. -/
  | fwGo
  /-- FW_VERIFY_DONE: the verification unit has finished: whether DIGEST recomputes and SIG verifies. -/
  | fwVerifyDone (digest sig : Bool)
  /-- FW_FIRST_START: the first start of the firmware, with what it meets. -/
  | fwFirstStart (found : FirmwareFindings)
  /-- CFG_GO: 1 written to CFG_GO; whether key digest and signature of the staged block hold. -/
  | cfgGo (key : Bool)
  /-- FW_SWAP: 1 written to FW_SWAP. -/
  | fwSwap
  /-- HANDOFF_RECORD: c 8,192 of tick H - 1. -/
  | handoffRecord
  /-- HANDOFF: c 0 of H. -/
  | handoff
  /-- FW_TAKEOVER: the restarted firmware checks the record. -/
  | fwTakeover
  /-- HANDOFF_TIMEOUT: 8 ms have passed since the restart. -/
  | handoffTimeout
  /-- MP_WATCHDOG: a management processor misses its watchdog. -/
  | mpWatchdog
  /-- GAUGE_VISIT: the next visit of G2 or G3: the codes converted with their over-range flags, when the visit began, and the cycles waited for the channel. -/
  | gaugeVisit (g3 : Bool) (codes : List (BitVec 12 × Bool)) (tick : BitVec 48) (cyc : BitVec 17) (wait : BitVec 32)
  /-- IIN_SAMPLE: an input-current sample: its code, its over-range flag, and whether G1 took it. -/
  | iinSample (code : BitVec 12) (ovr : Bool) (g1 : Bool)
  /-- ENTRY_WRITE: a write at an offset of the gauge registers: the channel table, SEG_G2 or SEG_G3. -/
  | entryWrite (off : BitVec 12) (value : Word)
  /-- FAST_AVERAGE: ten samples form a 4 µs average. -/
  | fastAverage
  /-- IREV_TRIP: reverse current in the input. -/
  | irevTrip
  /-- SENSOR_CONVERT: a die sensor converts: its reading in 1/16 °C, none where the conversion fails. -/
  | sensorConvert (sensor : BitVec 7) (reading : Option (BitVec 16))
  /-- SENSOR_CROSS_CHECK: the check of every millisecond. -/
  | sensorCrossCheck
  /-- SD_REQ: 1 written to SD_REQ. -/
  | sdReq
  /-- SHUTDOWN_CAUSE: a shut-down cause: code, value and source as the world supplies them, or none for the oldest one that a converter or sensor found. -/
  | shutdownCause (given : Option (BitVec 4 × BitVec 16 × BitVec 16))
  /-- LATCHED_STOP: a latched stop that has begun completes. -/
  | latchedStop
  /-- ORDERLY_STOP: an orderly stop goes on by one step. -/
  | orderlyStop
  /-- ORDERLY_LIMIT: the time limit of an orderly stop, or a reading 5 °C above its threshold. -/
  | orderlyLimit
  /-- POWER_ON: the input is applied. -/
  | powerOn
  /-- POWER_STAGES_START: VBULK reaches 46 V. -/
  | powerStagesStart
  /-- INPUT_REMOVED: the input is removed. -/
  | inputRemoved
  /-- LOG_FLUSH: the logger writes the records of the tick before. -/
  | logFlush
  /-- LOG_SEL: a write of LOG_SEL. -/
  | logSel (sel : BitVec 16)
  /-- DEVICE_FATAL: a device-fatal error: source, code and station of its record. -/
  | deviceFatal (src code : Byte) (station : BitVec 10)
  /-- AUDIT_WITNESS: the witness part of an audit runs: the corrected results of the columns that do not read e_p exactly. -/
  | auditWitness (core : BitVec 9) (meas : List (BitVec 6 × BitVec 10 × Int))
  /-- AUDIT_TILE: the integer lanes have recomputed the captured product. -/
  | auditTile (core : BitVec 9)
  /-- GL_GO: 1 written to GL_GO. -/
  | glGo
  /-- GLEAN_KERNEL: the next kernel of a core's request has run: none when it passed, else its failing item. -/
  | gleanKernel (core : BitVec 9) (fails : Option Word)
  /-- MIRROR_COPY: the units that a partition's trail has gained are copied to its mirror. -/
  | mirrorCopy (p : BitVec 6)
  /-- SNAP_ARM: 1 written to SNAP_ARM. -/
  | snapArm
  /-- REGISTER_WRITE: a function writes bytes at an offset of its register window; for a write that starts CFG_GO, whether the staged block's key digest and signature hold. -/
  | registerWrite (fn : BitVec 7) (off : BitVec 26) (data : List Byte) (key : Bool)
  /-- HOLDING_REGISTER_READ: a function reads bytes at an offset of its register window. -/
  | holdingRegisterRead (fn : BitVec 7) (off : BitVec 26) (len : BitVec 13)
  /-- SDC_N_FRAME: the next millisecond of the cause pin's frame. -/
  | sdcNFrame
  deriving DecidableEq, Repr

end Sys2Proof
end

