-- ==== Sys2Proof/Decode.lean ====
section
/-! DEFINITION. The host's reader of table words. The table of operations and events gives none of its rows any bits: a row is an
operation of a protocol or an event, not an encoding. -/

namespace Sys2Proof

/-- The command that a word spells by the table's bits: none, since no row of the table has bits. -/
def decodeTableWord (_nbits _w : Nat) : Option Instr := none

end Sys2Proof
end

