-- ==== Sys2Proof/Machine/Arith.lean ====
section
/-! DEFINITION. Exact integer arithmetic with one rounding: to nearest, ties to even (R104, R239). -/

namespace Sys2Proof.Machine

/-- The quotient of an integer by a positive number, rounded to nearest, ties to even. -/
def rneDiv (n : Int) (d : Nat) : Int :=
  let q := n / (d : Int)
  let r := n - q * d
  if 2 * r < d then q else if (d : Int) < 2 * r then q + 1 else if q % 2 = 0 then q else q + 1

/-- A number shifted right by `k` bits, rounded to nearest, ties to even. -/
def rneShr (n : Int) (k : Nat) : Int := rneDiv n (2 ^ k)

/-- An integer held between two limits. -/
def clampI (lo hi v : Int) : Int := max lo (min hi v)

/-- The sum of a list of integers. -/
def sumI (l : List Int) : Int := l.foldl (· + ·) 0

/-- The sum of a list of numbers. -/
def sumN (l : List Nat) : Nat := l.foldl (· + ·) 0

/-- A list sorted by a key, the smallest first, equal keys in their order. -/
def insertBy {α : Type} (le : α → α → Bool) (x : α) : List α → List α
  | [] => [x]
  | y :: r => if le x y then x :: y :: r else y :: insertBy le x r

/-- Insertion sort, stable. -/
def sortBy {α : Type} (le : α → α → Bool) (l : List α) : List α := l.foldr (insertBy le) []

/-- The bits set in the low `n` bits of a number. -/
def popcount (v n : Nat) : Nat := ((List.range n).filter (fun i => v.testBit i)).length

/-- The entries of a port entry's mask. -/
def maskBits (m : Nat) : List Nat := (List.range 16).filter (fun i => m.testBit i)

end Sys2Proof.Machine
end

