-- ==== Sys2Proof/Config.lean ====
section
/-! DEFINITION. The free values of the model: constants without a body, which no proof can evaluate. They stand for values that
the manual leaves open (analogue noise, the exact bits of the special functions within their stated bounds) and for the
functions of external standards that the manual names and does not restate (SHAKE256, AES-256-GCM, SPDM). -/

namespace Sys2Proof.Config

/-- A fresh value that the manual leaves open: its kind and the number of the draw (log entry 4). -/
opaque freeValue : Nat → Nat → Nat

/-- The special functions of the vector engine and the Winnow, by function code and operand bits (R307, R320): the manual
bounds their error and does not give their bits (log entry 5). -/
opaque special : Nat → BitVec 32 → BitVec 32

/-- SHAKE256 of a byte string, an output length in bytes (external standard, log entry 6). -/
opaque shake256 : List Byte → Nat → List Byte

/-- AES-256-GCM: key, nonce, associated data, plaintext; the ciphertext with its 16-byte tag (external standard, log entry 6). -/
opaque aesGcm : List Byte → Nat → List Byte → List Byte → List Byte

/-- AES-256-GCM decryption: the same arguments with the ciphertext and its tag; the plaintext where the tag holds. -/
opaque aesGcmOpen : List Byte → Nat → List Byte → List Byte → Option (List Byte)

/-- The answer of the SPDM responder to a request, given its measurements (external standard, log entry 6). -/
opaque spdmAnswer : List Byte → List (Nat × List Byte) → List Byte

/-- The nominal result of rail channel 19 + i in 1/16 LSB: the manual speaks of a nominal value and gives none (log entry 34). -/
opaque railNominal : Nat → Nat

/-- The bank (bits 4:0) and the row (bits 22:5) of a device granule in its pseudo-channel: the controller's own, as the manual says (R420). -/
opaque hbmPlace : Nat → Nat

/-- Device constants: the fuses' contents (R553). -/
opaque fuse : Nat → Nat

end Sys2Proof.Config
end

