-- ==== Sys2Proof/Machine/RegMap.lean ====
section
/-! DEFINITION. The register map: one descriptor for every field of every register table of the manual, with its BAR0
offset, its place and width in the register, its access type (R15) and its value after device reset (R17). A field whose
Reset column reads "cfg" or "pin" holds 0 until the start sequence loads it (log entry 3). -/

namespace Sys2Proof.Machine

/-- Access types (R15). -/
inductive Acc where
  | ro | rw | w1c | wo
  deriving DecidableEq, Repr

/-- One field of one register, or of an array of like registers: instance (i, j) lies in the register at
`off + s1 * i + s2 * j`, in bits `[lsb + width - 1 : lsb]`. -/
structure Fld where
  id : Nat
  name : String
  off : Nat
  n1 : Nat
  s1 : Nat
  n2 : Nat
  s2 : Nat
  lsb : Nat
  width : Nat
  acc : Acc
  rst : Nat
  deriving DecidableEq, Repr

/-- The register offset of an instance. -/
def Fld.reg (f : Fld) (i j : Nat) : Nat := f.off + f.s1 * i + f.s2 * j

/-- The key of an instance within its field's part of the register bank. -/
def Fld.key (_ : Fld) (i j : Nat) : Nat := i * 1024 + j

namespace R


/-! ident: 00 R5. -/

def ident_PART_CODE : Fld := ⟨1, "PART_CODE", 0x00000000, 1, 0x0, 1, 0, 16, 16, .ro, 8964⟩
def ident_STEPPING : Fld := ⟨2, "STEPPING", 0x00000000, 1, 0x0, 1, 0, 8, 8, .ro, 176⟩
def ident_MODULE_REV : Fld := ⟨3, "MODULE_REV", 0x00000000, 1, 0x0, 1, 0, 0, 8, .ro, 1⟩
/-- The fields of this table. -/
def map0 : List Fld :=
  [ident_PART_CODE, ident_STEPPING, ident_MODULE_REV]

/-! tick: 02 R58. -/

def tick_PERIOD_LOG2 : Fld := ⟨4, "PERIOD_LOG2", 0x00100000, 1, 0x0, 1, 0, 0, 5, .ro, 14⟩
def tick_ROLE : Fld := ⟨5, "ROLE", 0x00100000, 1, 0x0, 1, 0, 8, 2, .ro, 0⟩ -- pin
def tick_RUNNING : Fld := ⟨6, "RUNNING", 0x00100000, 1, 0x0, 1, 0, 16, 1, .ro, 0⟩
/-- The fields of this table. -/
def map1 : List Fld :=
  [tick_PERIOD_LOG2, tick_ROLE, tick_RUNNING]

/-! tick: 02 R57. -/

def tick_NUM_LO : Fld := ⟨7, "NUM_LO", 0x00100004, 1, 0x0, 1, 0, 0, 32, .ro, 0⟩
def tick_NUM_HI : Fld := ⟨8, "NUM_HI", 0x00100008, 1, 0x0, 1, 0, 0, 16, .ro, 0⟩
def tick_CYCLE : Fld := ⟨9, "CYCLE", 0x0010000C, 1, 0x0, 1, 0, 0, 17, .ro, 0⟩
/-- The fields of this table. -/
def map2 : List Fld :=
  [tick_NUM_LO, tick_NUM_HI, tick_CYCLE]

/-! tick: 02 R58. -/

def tick_NEXT_LOG2 : Fld := ⟨10, "NEXT_LOG2", 0x00100010, 1, 0x0, 1, 0, 0, 5, .rw, 14⟩
def tick_AT_LO : Fld := ⟨11, "AT_LO", 0x00100014, 1, 0x0, 1, 0, 0, 32, .rw, 0⟩
def tick_AT_HI : Fld := ⟨12, "AT_HI", 0x00100018, 1, 0x0, 1, 0, 0, 16, .rw, 0⟩
def tick_ARM : Fld := ⟨13, "ARM", 0x0010001C, 1, 0x0, 1, 0, 0, 1, .wo, 0⟩
/-- The fields of this table. -/
def map3 : List Fld :=
  [tick_NEXT_LOG2, tick_AT_LO, tick_AT_HI, tick_ARM]

/-! tick: 02 R82. -/

def tick_SOURCE_OK : Fld := ⟨14, "SOURCE_OK", 0x00100020, 1, 0x0, 1, 0, 0, 1, .ro, 0⟩
def tick_HOLDOVER : Fld := ⟨15, "HOLDOVER", 0x00100020, 1, 0x0, 1, 0, 1, 1, .ro, 0⟩
def tick_ALIGN_ERR : Fld := ⟨16, "ALIGN_ERR", 0x00100020, 1, 0x0, 1, 0, 2, 1, .w1c, 0⟩
def tick_NUM_ERR : Fld := ⟨17, "NUM_ERR", 0x00100020, 1, 0x0, 1, 0, 3, 1, .w1c, 0⟩
def tick_PCHG : Fld := ⟨18, "PCHG", 0x00100020, 1, 0x0, 1, 0, 4, 3, .ro, 0⟩
def tick_UPPORT : Fld := ⟨19, "UPPORT", 0x00100020, 1, 0x0, 1, 0, 16, 5, .ro, 31⟩
/-- The fields of this table. -/
def map4 : List Fld :=
  [tick_SOURCE_OK, tick_HOLDOVER, tick_ALIGN_ERR, tick_NUM_ERR, tick_PCHG, tick_UPPORT]

/-! tick: 02 R62. -/

def tick_PHASE_ERR : Fld := ⟨20, "PHASE_ERR", 0x00100024, 1, 0x0, 1, 0, 0, 16, .ro, 0⟩
def tick_PATH_DELAY : Fld := ⟨21, "PATH_DELAY", 0x00100024, 1, 0x0, 1, 0, 16, 16, .ro, 0⟩
/-- The fields of this table. -/
def map5 : List Fld :=
  [tick_PHASE_ERR, tick_PATH_DELAY]

/-! frm: 02 R81. -/

def frm_FRAME_TICKS : Fld := ⟨22, "FRAME_TICKS", 0x00101000, 64, 0x20, 1, 0, 0, 4, .ro, 1⟩
def frm_FRAME_LIMIT : Fld := ⟨23, "FRAME_LIMIT", 0x00101000, 64, 0x20, 1, 0, 16, 13, .ro, 64⟩
def frm_FRAME_SEQ : Fld := ⟨24, "FRAME_SEQ", 0x00101004, 64, 0x20, 1, 0, 0, 32, .ro, 0⟩
def frm_PUB_LO : Fld := ⟨25, "PUB_LO", 0x00101008, 64, 0x20, 1, 0, 0, 32, .ro, 0⟩
def frm_PUB_HI : Fld := ⟨26, "PUB_HI", 0x0010100C, 64, 0x20, 1, 0, 0, 16, .ro, 0⟩
def frm_SLIP_OVR : Fld := ⟨27, "SLIP_OVR", 0x00101010, 64, 0x20, 1, 0, 0, 32, .ro, 0⟩
def frm_SLIP_FB : Fld := ⟨28, "SLIP_FB", 0x00101014, 64, 0x20, 1, 0, 0, 32, .ro, 0⟩
def frm_SLIP_GOV : Fld := ⟨29, "SLIP_GOV", 0x00101018, 64, 0x20, 1, 0, 0, 32, .ro, 0⟩
def frm_STATE : Fld := ⟨30, "STATE", 0x0010101C, 64, 0x20, 1, 0, 0, 3, .ro, 0⟩
def frm_SPAN : Fld := ⟨31, "SPAN", 0x0010101C, 64, 0x20, 1, 0, 8, 8, .ro, 0⟩
/-- The fields of this table. -/
def map6 : List Fld :=
  [frm_FRAME_TICKS, frm_FRAME_LIMIT, frm_FRAME_SEQ, frm_PUB_LO, frm_PUB_HI, frm_SLIP_OVR,
   frm_SLIP_FB, frm_SLIP_GOV, frm_STATE, frm_SPAN]

/-! arr: 03 R126. -/

def arr_ARRAYS_OK : Fld := ⟨32, "ARRAYS_OK", 0x01007000, 512, 0x8000, 1, 0, 0, 7, .ro, 0⟩
def arr_SPARES_USED : Fld := ⟨33, "SPARES_USED", 0x01007000, 512, 0x8000, 1, 0, 8, 4, .ro, 0⟩
def arr_OCTETS_RETIRED : Fld := ⟨34, "OCTETS_RETIRED", 0x01007000, 512, 0x8000, 1, 0, 16, 4, .ro, 0⟩
def arr_DEGRADED : Fld := ⟨35, "DEGRADED", 0x01007000, 512, 0x8000, 1, 0, 24, 1, .ro, 0⟩
def arr_CAL_STALE : Fld := ⟨36, "CAL_STALE", 0x01007000, 512, 0x8000, 1, 0, 25, 1, .w1c, 0⟩
def arr_REMAP_A : Fld := ⟨37, "REMAP_A", 0x01007004, 512, 0x8000, 1, 0, 0, 16, .ro, 0⟩
def arr_REMAP_B : Fld := ⟨38, "REMAP_B", 0x01007004, 512, 0x8000, 1, 0, 16, 16, .ro, 0⟩
def arr_WEAR_MAX_A : Fld := ⟨39, "WEAR_MAX_A", 0x01007008, 512, 0x8000, 1, 0, 0, 32, .ro, 0⟩
def arr_WEAR_MAX_B : Fld := ⟨40, "WEAR_MAX_B", 0x0100700C, 512, 0x8000, 1, 0, 0, 32, .ro, 0⟩
def arr_MARGIN_A : Fld := ⟨41, "MARGIN_A", 0x01007010, 512, 0x8000, 1, 0, 0, 8, .ro, 255⟩
def arr_MARGIN_B : Fld := ⟨42, "MARGIN_B", 0x01007010, 512, 0x8000, 1, 0, 8, 8, .ro, 255⟩
def arr_PULSES : Fld := ⟨43, "PULSES", 0x01007014, 512, 0x8000, 1, 0, 0, 32, .ro, 0⟩
def arr_PULSES_SKIP : Fld := ⟨44, "PULSES_SKIP", 0x01007018, 512, 0x8000, 1, 0, 0, 32, .ro, 0⟩
def arr_SAT_CONV : Fld := ⟨45, "SAT_CONV", 0x0100701C, 512, 0x8000, 1, 0, 0, 32, .ro, 0⟩
def arr_ZERO_PROD : Fld := ⟨46, "ZERO_PROD", 0x01007020, 512, 0x8000, 1, 0, 0, 32, .ro, 0⟩
def arr_DEFECTS : Fld := ⟨47, "DEFECTS", 0x01007024, 512, 0x8000, 1, 0, 0, 16, .ro, 0⟩
def arr_NEW_DEFECT : Fld := ⟨48, "NEW_DEFECT", 0x01007024, 512, 0x8000, 1, 0, 31, 1, .w1c, 0⟩
def arr_POISON_COLS : Fld := ⟨49, "POISON_COLS", 0x01007028, 512, 0x8000, 1, 0, 0, 32, .ro, 0⟩
/-- The fields of this table. -/
def map7 : List Fld :=
  [arr_ARRAYS_OK, arr_SPARES_USED, arr_OCTETS_RETIRED, arr_DEGRADED, arr_CAL_STALE, arr_REMAP_A,
   arr_REMAP_B, arr_WEAR_MAX_A, arr_WEAR_MAX_B, arr_MARGIN_A, arr_MARGIN_B, arr_PULSES,
   arr_PULSES_SKIP, arr_SAT_CONV, arr_ZERO_PROD, arr_DEFECTS, arr_NEW_DEFECT, arr_POISON_COLS]

/-! fmtp: 04 R163. -/

def fmtp_POLICY : Fld := ⟨50, "POLICY", 0x00204000, 64, 0x10, 1, 0, 0, 1, .rw, 0⟩
def fmtp_PROMO_EN : Fld := ⟨51, "PROMO_EN", 0x00204000, 64, 0x10, 1, 0, 8, 1, .ro, 0⟩
def fmtp_MODE : Fld := ⟨52, "MODE", 0x00204000, 64, 0x10, 1, 0, 16, 1, .ro, 0⟩
def fmtp_PROMO_N : Fld := ⟨53, "PROMO_N", 0x00204004, 64, 0x10, 1, 0, 0, 6, .ro, 0⟩
def fmtp_PROMO_WIN : Fld := ⟨54, "PROMO_WIN", 0x00204004, 64, 0x10, 1, 0, 8, 8, .ro, 0⟩
def fmtp_DEMOTE_QUIET : Fld := ⟨55, "DEMOTE_QUIET", 0x00204004, 64, 0x10, 1, 0, 16, 16, .ro, 0⟩
def fmtp_CLIP_EVENTS : Fld := ⟨56, "CLIP_EVENTS", 0x00204008, 64, 0x10, 1, 0, 0, 32, .ro, 0⟩
def fmtp_PROMO_UP : Fld := ⟨57, "PROMO_UP", 0x0020400C, 64, 0x10, 1, 0, 0, 32, .ro, 0⟩
/-- The fields of this table. -/
def map8 : List Fld :=
  [fmtp_POLICY, fmtp_PROMO_EN, fmtp_MODE, fmtp_PROMO_N, fmtp_PROMO_WIN, fmtp_DEMOTE_QUIET,
   fmtp_CLIP_EVENTS, fmtp_PROMO_UP]

/-! fmt: 04 R164. -/

def fmt_FB_STEP1 : Fld := ⟨58, "FB_STEP1", 0x01007100, 512, 0x8000, 1, 0, 0, 32, .ro, 0⟩
def fmt_FB_STEP2 : Fld := ⟨59, "FB_STEP2", 0x01007104, 512, 0x8000, 1, 0, 0, 32, .ro, 0⟩
def fmt_FB_EXCESS : Fld := ⟨60, "FB_EXCESS", 0x01007108, 512, 0x8000, 1, 0, 0, 32, .ro, 0⟩
def fmt_CLIP_TILES : Fld := ⟨61, "CLIP_TILES", 0x0100710C, 512, 0x8000, 1, 0, 0, 32, .ro, 0⟩
def fmt_SAT_ACCEPT : Fld := ⟨62, "SAT_ACCEPT", 0x01007110, 512, 0x8000, 1, 0, 0, 32, .ro, 0⟩
def fmt_ALLOW_LEFT : Fld := ⟨63, "ALLOW_LEFT", 0x01007114, 512, 0x8000, 1, 0, 0, 16, .ro, 0⟩
def fmt_ALLOW : Fld := ⟨64, "ALLOW", 0x01007114, 512, 0x8000, 1, 0, 16, 16, .ro, 0⟩
def fmt_RENORM : Fld := ⟨65, "RENORM", 0x01007118, 512, 0x8000, 1, 0, 0, 32, .ro, 0⟩
def fmt_RENORM_OVF : Fld := ⟨66, "RENORM_OVF", 0x0100711C, 512, 0x8000, 1, 0, 0, 32, .ro, 0⟩
def fmt_ENTRY_CLAMP : Fld := ⟨67, "ENTRY_CLAMP", 0x01007120, 512, 0x8000, 1, 0, 0, 32, .ro, 0⟩
/-- The fields of this table. -/
def map9 : List Fld :=
  [fmt_FB_STEP1, fmt_FB_STEP2, fmt_FB_EXCESS, fmt_CLIP_TILES, fmt_SAT_ACCEPT, fmt_ALLOW_LEFT,
   fmt_ALLOW, fmt_RENORM, fmt_RENORM_OVF, fmt_ENTRY_CLAMP]

/-! mx: 05 R197. -/

def mx_BUSY : Fld := ⟨68, "BUSY", 0x01007200, 512, 0x8000, 1, 0, 0, 1, .ro, 0⟩
def mx_HEAD_WAIT : Fld := ⟨69, "HEAD_WAIT", 0x01007200, 512, 0x8000, 1, 0, 1, 3, .ro, 0⟩
def mx_INFLIGHT : Fld := ⟨70, "INFLIGHT", 0x01007200, 512, 0x8000, 1, 0, 8, 5, .ro, 0⟩
def mx_MX_RETIRED : Fld := ⟨71, "MX_RETIRED", 0x01007204, 512, 0x8000, 1, 0, 0, 32, .ro, 0⟩
def mx_MX_TAGMIS : Fld := ⟨72, "MX_TAGMIS", 0x01007208, 512, 0x8000, 1, 0, 0, 32, .ro, 0⟩
def mx_MX_CMDERR : Fld := ⟨73, "MX_CMDERR", 0x0100720C, 512, 0x8000, 1, 0, 0, 32, .ro, 0⟩
def mx_ERR_CODE : Fld := ⟨74, "ERR_CODE", 0x01007210, 512, 0x8000, 1, 0, 0, 8, .ro, 0⟩
def mx_ERR_WSID : Fld := ⟨75, "ERR_WSID", 0x01007210, 512, 0x8000, 1, 0, 8, 12, .ro, 0⟩
def mx_ERR_TILE : Fld := ⟨76, "ERR_TILE", 0x01007210, 512, 0x8000, 1, 0, 20, 10, .ro, 0⟩
def mx_ERR_VALID : Fld := ⟨77, "ERR_VALID", 0x01007210, 512, 0x8000, 1, 0, 31, 1, .w1c, 0⟩
def mx_MX_GOV_WAIT : Fld := ⟨78, "MX_GOV_WAIT", 0x01007214, 512, 0x8000, 1, 0, 0, 32, .ro, 0⟩
def mx_MX_GRANT : Fld := ⟨79, "MX_GRANT", 0x01007218, 512, 0x8000, 1, 0, 0, 16, .ro, 0⟩
def mx_WS_SEL : Fld := ⟨80, "WS_SEL", 0x0100721C, 512, 0x8000, 1, 0, 0, 12, .rw, 0⟩
def mx_WS_DATA : Fld := ⟨81, "WS_DATA", 0x01007220, 512, 0x8000, 4, 4, 0, 32, .ro, 0⟩
def mx_MX_POISON_IN : Fld := ⟨82, "MX_POISON_IN", 0x01007230, 512, 0x8000, 1, 0, 0, 32, .ro, 0⟩
/-- The fields of this table. -/
def map10 : List Fld :=
  [mx_BUSY, mx_HEAD_WAIT, mx_INFLIGHT, mx_MX_RETIRED, mx_MX_TAGMIS, mx_MX_CMDERR,
   mx_ERR_CODE, mx_ERR_WSID, mx_ERR_TILE, mx_ERR_VALID, mx_MX_GOV_WAIT, mx_MX_GRANT,
   mx_WS_SEL, mx_WS_DATA, mx_MX_POISON_IN]

/-! we: 06 R232. -/

def we_AUTO_REFR : Fld := ⟨83, "AUTO_REFR", 0x01007300, 512, 0x8000, 1, 0, 0, 1, .rw, 1⟩
def we_REFR_THR : Fld := ⟨84, "REFR_THR", 0x01007300, 512, 0x8000, 1, 0, 8, 5, .rw, 20⟩
def we_SAMPLE_LOG2 : Fld := ⟨85, "SAMPLE_LOG2", 0x01007300, 512, 0x8000, 1, 0, 16, 4, .rw, 6⟩
def we_WE_CEIL : Fld := ⟨86, "WE_CEIL", 0x01007304, 512, 0x8000, 1, 0, 0, 21, .rw, 0⟩ -- cfg
def we_WE_RESERVE : Fld := ⟨87, "WE_RESERVE", 0x01007308, 512, 0x8000, 1, 0, 0, 16, .rw, 2000⟩
def we_WE_WARN : Fld := ⟨88, "WE_WARN", 0x0100730C, 512, 0x8000, 1, 0, 0, 21, .rw, 0⟩ -- cfg
def we_PASSES_RUN : Fld := ⟨89, "PASSES_RUN", 0x01007310, 512, 0x8000, 1, 0, 0, 5, .ro, 0⟩
def we_PASSES_QUEUED : Fld := ⟨90, "PASSES_QUEUED", 0x01007310, 512, 0x8000, 1, 0, 8, 5, .ro, 0⟩
def we_REFRESH_DUE_ACT : Fld := ⟨91, "REFRESH_DUE_ACT", 0x01007310, 512, 0x8000, 1, 0, 16, 1, .ro, 0⟩
def we_REFRESHING : Fld := ⟨92, "REFRESHING", 0x01007310, 512, 0x8000, 1, 0, 17, 1, .ro, 0⟩
def we_MARGIN_FLOOR : Fld := ⟨93, "MARGIN_FLOOR", 0x01007310, 512, 0x8000, 1, 0, 18, 1, .w1c, 0⟩
def we_CEIL_HIT : Fld := ⟨94, "CEIL_HIT", 0x01007310, 512, 0x8000, 1, 0, 19, 1, .w1c, 0⟩
def we_WARN_HIT : Fld := ⟨95, "WARN_HIT", 0x01007310, 512, 0x8000, 1, 0, 20, 1, .w1c, 0⟩
def we_WE_PASSES : Fld := ⟨96, "WE_PASSES", 0x01007314, 512, 0x8000, 1, 0, 0, 32, .ro, 0⟩
def we_WE_REFRESHES : Fld := ⟨97, "WE_REFRESHES", 0x01007318, 512, 0x8000, 1, 0, 0, 32, .ro, 0⟩
def we_WE_REPAIRS : Fld := ⟨98, "WE_REPAIRS", 0x0100731C, 512, 0x8000, 1, 0, 0, 32, .ro, 0⟩
def we_WE_FLIPS : Fld := ⟨99, "WE_FLIPS", 0x01007320, 512, 0x8000, 1, 0, 0, 32, .ro, 0⟩
def we_WE_FLIP_REF : Fld := ⟨100, "WE_FLIP_REF", 0x01007324, 512, 0x8000, 1, 0, 0, 32, .ro, 0⟩
def we_ERR_CODE : Fld := ⟨101, "ERR_CODE", 0x01007328, 512, 0x8000, 1, 0, 0, 8, .ro, 0⟩
def we_ERR_WSID : Fld := ⟨102, "ERR_WSID", 0x01007328, 512, 0x8000, 1, 0, 8, 12, .ro, 0⟩
def we_ERR_VALID : Fld := ⟨103, "ERR_VALID", 0x01007328, 512, 0x8000, 1, 0, 31, 1, .w1c, 0⟩
def we_FLIP_RES : Fld := ⟨104, "FLIP_RES", 0x0100732C, 512, 0x8000, 1, 0, 0, 3, .ro, 0⟩
def we_FLIP_WSID : Fld := ⟨105, "FLIP_WSID", 0x0100732C, 512, 0x8000, 1, 0, 8, 12, .ro, 0⟩
def we_IMG_SEL : Fld := ⟨106, "IMG_SEL", 0x01007330, 512, 0x8000, 1, 0, 0, 12, .rw, 0⟩
def we_IMG_A : Fld := ⟨107, "IMG_A", 0x01007334, 512, 0x8000, 1, 0, 0, 32, .ro, 0⟩
def we_IMG_B : Fld := ⟨108, "IMG_B", 0x01007338, 512, 0x8000, 1, 0, 0, 32, .ro, 0⟩
def we_WE_HCMD : Fld := ⟨109, "WE_HCMD", 0x01007340, 512, 0x8000, 8, 4, 0, 32, .rw, 0⟩
def we_WE_HGO : Fld := ⟨110, "WE_HGO", 0x01007360, 512, 0x8000, 1, 0, 0, 1, .wo, 0⟩
def we_HRES : Fld := ⟨111, "HRES", 0x01007364, 512, 0x8000, 1, 0, 0, 2, .ro, 0⟩
def we_HRES_CODE : Fld := ⟨112, "HRES_CODE", 0x01007364, 512, 0x8000, 1, 0, 8, 8, .ro, 0⟩
/-- The fields of this table. -/
def map11 : List Fld :=
  [we_AUTO_REFR, we_REFR_THR, we_SAMPLE_LOG2, we_WE_CEIL, we_WE_RESERVE, we_WE_WARN,
   we_PASSES_RUN, we_PASSES_QUEUED, we_REFRESH_DUE_ACT, we_REFRESHING, we_MARGIN_FLOOR, we_CEIL_HIT,
   we_WARN_HIT, we_WE_PASSES, we_WE_REFRESHES, we_WE_REPAIRS, we_WE_FLIPS, we_WE_FLIP_REF,
   we_ERR_CODE, we_ERR_WSID, we_ERR_VALID, we_FLIP_RES, we_FLIP_WSID, we_IMG_SEL,
   we_IMG_A, we_IMG_B, we_WE_HCMD, we_WE_HGO, we_HRES, we_HRES_CODE]

/-! cap: 06 R233. -/

def cap_CAP_W : Fld := ⟨113, "CAP_W", 0x00300080, 1, 0x0, 1, 0, 0, 11, .rw, 0⟩ -- cfg
def cap_USED_W : Fld := ⟨114, "USED_W", 0x00300080, 1, 0x0, 1, 0, 16, 11, .ro, 0⟩
/-- The fields of this table. -/
def map12 : List Fld :=
  [cap_CAP_W, cap_USED_W]

/-! cal: 07 R264. -/

def cal_CAL_DT : Fld := ⟨115, "CAL_DT", 0x01007400, 512, 0x8000, 1, 0, 0, 5, .rw, 4⟩
def cal_CAL_AGE : Fld := ⟨116, "CAL_AGE", 0x01007400, 512, 0x8000, 1, 0, 8, 8, .rw, 168⟩
def cal_CAL_AUTO : Fld := ⟨117, "CAL_AUTO", 0x01007400, 512, 0x8000, 1, 0, 16, 1, .rw, 1⟩
def cal_CAL_FORCE : Fld := ⟨118, "CAL_FORCE", 0x01007400, 512, 0x8000, 1, 0, 24, 1, .wo, 0⟩
def cal_DUE : Fld := ⟨119, "DUE", 0x01007404, 512, 0x8000, 1, 0, 0, 1, .ro, 0⟩
def cal_RUNNING : Fld := ⟨120, "RUNNING", 0x01007404, 512, 0x8000, 1, 0, 1, 1, .ro, 0⟩
def cal_RAMPING : Fld := ⟨121, "RAMPING", 0x01007404, 512, 0x8000, 1, 0, 2, 1, .ro, 0⟩
def cal_DUE_CAUSE : Fld := ⟨122, "DUE_CAUSE", 0x01007404, 512, 0x8000, 1, 0, 4, 3, .ro, 0⟩
def cal_CAL_FAULT : Fld := ⟨123, "CAL_FAULT", 0x01007404, 512, 0x8000, 1, 0, 8, 1, .w1c, 0⟩
def cal_CAL_EPOCH : Fld := ⟨124, "CAL_EPOCH", 0x01007408, 512, 0x8000, 1, 0, 0, 32, .ro, 0⟩
def cal_RAMP_POS : Fld := ⟨125, "RAMP_POS", 0x0100740C, 512, 0x8000, 1, 0, 0, 16, .ro, 0⟩
def cal_RAMP_LEFT : Fld := ⟨126, "RAMP_LEFT", 0x0100740C, 512, 0x8000, 1, 0, 16, 16, .ro, 0⟩
def cal_T_MEAS : Fld := ⟨127, "T_MEAS", 0x01007410, 512, 0x8000, 1, 0, 0, 16, .ro, 0⟩
def cal_T_CORE : Fld := ⟨128, "T_CORE", 0x01007410, 512, 0x8000, 1, 0, 16, 16, .ro, 0⟩
def cal_AGE_H : Fld := ⟨129, "AGE_H", 0x01007414, 512, 0x8000, 1, 0, 0, 16, .ro, 0⟩
def cal_THETA : Fld := ⟨130, "THETA", 0x01007414, 512, 0x8000, 1, 0, 16, 16, .ro, 0⟩
def cal_CAL_RUNS : Fld := ⟨131, "CAL_RUNS", 0x01007418, 512, 0x8000, 1, 0, 0, 32, .ro, 0⟩
def cal_CAL_ABANDON : Fld := ⟨132, "CAL_ABANDON", 0x0100741C, 512, 0x8000, 1, 0, 0, 32, .ro, 0⟩
def cal_CAL_WAIT : Fld := ⟨133, "CAL_WAIT", 0x01007420, 512, 0x8000, 1, 0, 0, 32, .ro, 0⟩
def cal_CAL_COLFAULT : Fld := ⟨134, "CAL_COLFAULT", 0x01007424, 512, 0x8000, 1, 0, 0, 32, .ro, 0⟩
/-- The fields of this table. -/
def map13 : List Fld :=
  [cal_CAL_DT, cal_CAL_AGE, cal_CAL_AUTO, cal_CAL_FORCE, cal_DUE, cal_RUNNING,
   cal_RAMPING, cal_DUE_CAUSE, cal_CAL_FAULT, cal_CAL_EPOCH, cal_RAMP_POS, cal_RAMP_LEFT,
   cal_T_MEAS, cal_T_CORE, cal_AGE_H, cal_THETA, cal_CAL_RUNS, cal_CAL_ABANDON,
   cal_CAL_WAIT, cal_CAL_COLFAULT]

/-! cslot: 07 R265. -/

def cslot_CAL_AT : Fld := ⟨135, "CAL_AT", 0x00205000, 64, 0x10, 1, 0, 0, 17, .ro, 0⟩
def cslot_CAL_EVERY : Fld := ⟨136, "CAL_EVERY", 0x00205004, 64, 0x10, 1, 0, 0, 11, .ro, 0⟩
/-- The fields of this table. -/
def map14 : List Fld :=
  [cslot_CAL_AT, cslot_CAL_EVERY]

/-! core: 08 R302. -/

def core_M_STATE : Fld := ⟨137, "M_STATE", 0x01007500, 512, 0x8000, 1, 0, 0, 3, .ro, 0⟩
def core_V_STATE : Fld := ⟨138, "V_STATE", 0x01007500, 512, 0x8000, 1, 0, 4, 3, .ro, 0⟩
def core_T_STATE : Fld := ⟨139, "T_STATE", 0x01007500, 512, 0x8000, 1, 0, 8, 3, .ro, 0⟩
def core_W_STATE : Fld := ⟨140, "W_STATE", 0x01007500, 512, 0x8000, 1, 0, 12, 3, .ro, 0⟩
def core_PC_M : Fld := ⟨141, "PC_M", 0x01007504, 512, 0x8000, 1, 0, 0, 18, .ro, 0⟩
def core_PC_V : Fld := ⟨142, "PC_V", 0x01007508, 512, 0x8000, 1, 0, 0, 18, .ro, 0⟩
def core_PC_T : Fld := ⟨143, "PC_T", 0x0100750C, 512, 0x8000, 1, 0, 0, 18, .ro, 0⟩
def core_PC_W : Fld := ⟨144, "PC_W", 0x01007510, 512, 0x8000, 1, 0, 0, 18, .ro, 0⟩
def core_FRAME_HDR : Fld := ⟨145, "FRAME_HDR", 0x01007514, 512, 0x8000, 1, 0, 0, 17, .ro, 0⟩
def core_DEBUG : Fld := ⟨146, "DEBUG", 0x01007518, 512, 0x8000, 1, 0, 0, 1, .ro, 0⟩
def core_HZ_HOLD : Fld := ⟨147, "HZ_HOLD", 0x01007518, 512, 0x8000, 1, 0, 1, 1, .rw, 0⟩
def core_HZ_VALID : Fld := ⟨148, "HZ_VALID", 0x01007518, 512, 0x8000, 1, 0, 2, 1, .w1c, 0⟩
def core_CMD_RSVD : Fld := ⟨149, "CMD_RSVD", 0x0100751C, 512, 0x8000, 1, 0, 0, 32, .ro, 0⟩
def core_ECC_CORR : Fld := ⟨150, "ECC_CORR", 0x01007520, 512, 0x8000, 1, 0, 0, 32, .ro, 0⟩
def core_ECC_POISON : Fld := ⟨151, "ECC_POISON", 0x01007524, 512, 0x8000, 1, 0, 0, 32, .ro, 0⟩
def core_CORE_ERR : Fld := ⟨152, "CORE_ERR", 0x01007528, 512, 0x8000, 1, 0, 0, 8, .ro, 0⟩
def core_CORE_ERR_ENG : Fld := ⟨153, "CORE_ERR_ENG", 0x01007528, 512, 0x8000, 1, 0, 8, 2, .ro, 0⟩
def core_CORE_ERR_VALID : Fld := ⟨154, "CORE_ERR_VALID", 0x01007528, 512, 0x8000, 1, 0, 31, 1, .w1c, 0⟩
def core_XFER_ERR : Fld := ⟨155, "XFER_ERR", 0x0100752C, 512, 0x8000, 1, 0, 0, 32, .ro, 0⟩
/-- The fields of this table. -/
def map15 : List Fld :=
  [core_M_STATE, core_V_STATE, core_T_STATE, core_W_STATE, core_PC_M, core_PC_V,
   core_PC_T, core_PC_W, core_FRAME_HDR, core_DEBUG, core_HZ_HOLD, core_HZ_VALID,
   core_CMD_RSVD, core_ECC_CORR, core_ECC_POISON, core_CORE_ERR, core_CORE_ERR_ENG, core_CORE_ERR_VALID,
   core_XFER_ERR]

/-! core: 08 R303. -/

def core_TALLY : Fld := ⟨156, "TALLY", 0x01007800, 512, 0x8000, 64, 4, 0, 16, .rw, 0⟩
def core_FQ_CPL : Fld := ⟨157, "FQ_CPL", 0x01007900, 512, 0x8000, 16, 4, 0, 16, .ro, 0⟩
def core_FQ_DEPTH : Fld := ⟨158, "FQ_DEPTH", 0x01007900, 512, 0x8000, 16, 4, 16, 6, .ro, 0⟩
def core_SQ_READ : Fld := ⟨159, "SQ_READ", 0x01007940, 512, 0x8000, 8, 4, 0, 16, .ro, 0⟩
def core_SQ_DONE : Fld := ⟨160, "SQ_DONE", 0x01007940, 512, 0x8000, 8, 4, 16, 16, .ro, 0⟩
def core_HZ_REPORT : Fld := ⟨161, "HZ_REPORT", 0x01007A00, 512, 0x8000, 16, 4, 0, 32, .ro, 0⟩
/-- The fields of this table. -/
def map16 : List Fld :=
  [core_TALLY, core_FQ_CPL, core_FQ_DEPTH, core_SQ_READ, core_SQ_DONE, core_HZ_REPORT]

/-! vec: 09 R329. -/

def vec_V_RETIRED : Fld := ⟨162, "V_RETIRED", 0x01007600, 512, 0x8000, 1, 0, 0, 32, .ro, 0⟩
def vec_V_BUSY_CYC : Fld := ⟨163, "V_BUSY_CYC", 0x01007604, 512, 0x8000, 1, 0, 0, 32, .ro, 0⟩
def vec_NAN_POISON : Fld := ⟨164, "NAN_POISON", 0x01007608, 512, 0x8000, 1, 0, 0, 32, .ro, 0⟩
def vec_INF_OUT : Fld := ⟨165, "INF_OUT", 0x0100760C, 512, 0x8000, 1, 0, 0, 32, .ro, 0⟩
def vec_FP8_SAT : Fld := ⟨166, "FP8_SAT", 0x01007610, 512, 0x8000, 1, 0, 0, 32, .ro, 0⟩
def vec_CLIP_MARK : Fld := ⟨167, "CLIP_MARK", 0x01007614, 512, 0x8000, 1, 0, 0, 32, .ro, 0⟩
def vec_POISON_PROP : Fld := ⟨168, "POISON_PROP", 0x01007618, 512, 0x8000, 1, 0, 0, 32, .ro, 0⟩
def vec_V_CMDERR : Fld := ⟨169, "V_CMDERR", 0x0100761C, 512, 0x8000, 1, 0, 0, 32, .ro, 0⟩
def vec_ERR_CODE : Fld := ⟨170, "ERR_CODE", 0x01007620, 512, 0x8000, 1, 0, 0, 8, .ro, 0⟩
def vec_ERR_OP : Fld := ⟨171, "ERR_OP", 0x01007620, 512, 0x8000, 1, 0, 8, 8, .ro, 0⟩
def vec_ERR_VALID : Fld := ⟨172, "ERR_VALID", 0x01007620, 512, 0x8000, 1, 0, 31, 1, .w1c, 0⟩
def vec_REF_PROD : Fld := ⟨173, "REF_PROD", 0x01007624, 512, 0x8000, 1, 0, 0, 32, .ro, 0⟩
def vec_REF_CYC : Fld := ⟨174, "REF_CYC", 0x01007628, 512, 0x8000, 1, 0, 0, 32, .ro, 0⟩
/-- The fields of this table. -/
def map17 : List Fld :=
  [vec_V_RETIRED, vec_V_BUSY_CYC, vec_NAN_POISON, vec_INF_OUT, vec_FP8_SAT, vec_CLIP_MARK,
   vec_POISON_PROP, vec_V_CMDERR, vec_ERR_CODE, vec_ERR_OP, vec_ERR_VALID, vec_REF_PROD,
   vec_REF_CYC]

/-! rtr: 10 R354. -/

def rtr_GRAN_C : Fld := ⟨175, "GRAN_C", 0x01007C00, 32, 0x80000, 6, 4, 0, 32, .ro, 0⟩
def rtr_RED_SUMS : Fld := ⟨176, "RED_SUMS", 0x01007C18, 32, 0x80000, 1, 0, 0, 32, .ro, 0⟩
def rtr_MC_COPIES : Fld := ⟨177, "MC_COPIES", 0x01007C1C, 32, 0x80000, 1, 0, 0, 32, .ro, 0⟩
def rtr_CRED_HOLD : Fld := ⟨178, "CRED_HOLD", 0x01007C20, 32, 0x80000, 1, 0, 0, 32, .ro, 0⟩
def rtr_BUF_CORR : Fld := ⟨179, "BUF_CORR", 0x01007C24, 32, 0x80000, 1, 0, 0, 32, .ro, 0⟩
def rtr_BUF_POISON : Fld := ⟨180, "BUF_POISON", 0x01007C28, 32, 0x80000, 1, 0, 0, 32, .ro, 0⟩
def rtr_RED_ERR : Fld := ⟨181, "RED_ERR", 0x01007C2C, 32, 0x80000, 1, 0, 0, 32, .ro, 0⟩
def rtr_NODE_SEL : Fld := ⟨182, "NODE_SEL", 0x01007C30, 32, 0x80000, 1, 0, 0, 8, .rw, 0⟩
def rtr_NODE_LO : Fld := ⟨183, "NODE_LO", 0x01007C34, 32, 0x80000, 1, 0, 0, 32, .rw, 0⟩
def rtr_NODE_HI : Fld := ⟨184, "NODE_HI", 0x01007C38, 32, 0x80000, 1, 0, 0, 32, .rw, 0⟩
def rtr_ERR_CODE : Fld := ⟨185, "ERR_CODE", 0x01007C3C, 32, 0x80000, 1, 0, 0, 8, .ro, 0⟩
def rtr_ERR_CIRC : Fld := ⟨186, "ERR_CIRC", 0x01007C3C, 32, 0x80000, 1, 0, 8, 8, .ro, 0⟩
def rtr_ERR_VALID : Fld := ⟨187, "ERR_VALID", 0x01007C3C, 32, 0x80000, 1, 0, 31, 1, .w1c, 0⟩
/-- The fields of this table. -/
def map18 : List Fld :=
  [rtr_GRAN_C, rtr_RED_SUMS, rtr_MC_COPIES, rtr_CRED_HOLD, rtr_BUF_CORR, rtr_BUF_POISON,
   rtr_RED_ERR, rtr_NODE_SEL, rtr_NODE_LO, rtr_NODE_HI, rtr_ERR_CODE, rtr_ERR_CIRC,
   rtr_ERR_VALID]

/-! tm: 11 R386. -/

def tm_RATE_GBS : Fld := ⟨188, "RATE_GBS", 0x00800000, 1, 0x0, 1, 0, 0, 8, .rw, 0⟩ -- cfg
def tm_MOVES : Fld := ⟨189, "MOVES", 0x00800004, 1, 0x0, 1, 0, 0, 16, .ro, 0⟩
def tm_TM_HCMD : Fld := ⟨190, "TM_HCMD", 0x00800010, 1, 0x0, 4, 4, 0, 32, .rw, 0⟩
def tm_TM_HGO : Fld := ⟨191, "TM_HGO", 0x00800020, 1, 0x0, 1, 0, 0, 1, .wo, 0⟩
def tm_HRES : Fld := ⟨192, "HRES", 0x00800024, 1, 0x0, 1, 0, 0, 2, .ro, 0⟩
def tm_HRES_CODE : Fld := ⟨193, "HRES_CODE", 0x00800024, 1, 0x0, 1, 0, 8, 8, .ro, 0⟩
def tm_RQ_SEL : Fld := ⟨194, "RQ_SEL", 0x00800028, 1, 0x0, 1, 0, 0, 16, .rw, 0⟩
def tm_BYTES_OUT : Fld := ⟨195, "BYTES_OUT", 0x00800030, 1, 0x0, 1, 0, 0, 32, .ro, 0⟩
def tm_BYTES_IN : Fld := ⟨196, "BYTES_IN", 0x00800034, 1, 0x0, 1, 0, 0, 32, .ro, 0⟩
def tm_RQ_DATA : Fld := ⟨197, "RQ_DATA", 0x00800100, 1, 0x0, 64, 4, 0, 32, .ro, 0⟩
/-- The fields of this table. -/
def map19 : List Fld :=
  [tm_RATE_GBS, tm_MOVES, tm_TM_HCMD, tm_TM_HGO, tm_HRES, tm_HRES_CODE,
   tm_RQ_SEL, tm_BYTES_OUT, tm_BYTES_IN, tm_RQ_DATA]

/-! ptier: 11 R387. -/

def ptier_REQ_BASE : Fld := ⟨198, "REQ_BASE", 0x00801000, 64, 0x40, 1, 0, 0, 16, .ro, 0⟩
def ptier_REQ_COUNT : Fld := ⟨199, "REQ_COUNT", 0x00801004, 64, 0x40, 1, 0, 0, 17, .ro, 0⟩
def ptier_VIEW_LOG2 : Fld := ⟨200, "VIEW_LOG2", 0x00801008, 64, 0x40, 1, 0, 0, 6, .ro, 0⟩
def ptier_KV_ROW : Fld := ⟨201, "KV_ROW", 0x00801008, 64, 0x40, 1, 0, 8, 9, .ro, 0⟩
def ptier_KV_STREAMS : Fld := ⟨202, "KV_STREAMS", 0x00801008, 64, 0x40, 1, 0, 20, 12, .ro, 0⟩
def ptier_IDLE_MS : Fld := ⟨203, "IDLE_MS", 0x0080100C, 64, 0x40, 1, 0, 0, 16, .rw, 2000⟩
def ptier_AUTO_PARK : Fld := ⟨204, "AUTO_PARK", 0x0080100C, 64, 0x40, 1, 0, 16, 1, .rw, 1⟩
def ptier_TTL_DEF : Fld := ⟨205, "TTL_DEF", 0x00801010, 64, 0x40, 1, 0, 0, 17, .rw, 600⟩
def ptier_POOL_TOTAL : Fld := ⟨206, "POOL_TOTAL", 0x00801014, 64, 0x40, 1, 0, 0, 26, .ro, 0⟩
def ptier_POOL_FREE : Fld := ⟨207, "POOL_FREE", 0x00801018, 64, 0x40, 1, 0, 0, 26, .ro, 0⟩
def ptier_POOL_LOW : Fld := ⟨208, "POOL_LOW", 0x0080101C, 64, 0x40, 1, 0, 0, 26, .rw, 0⟩
def ptier_SILO_LIST_LO : Fld := ⟨209, "SILO_LIST_LO", 0x00801020, 64, 0x40, 1, 0, 0, 32, .rw, 0⟩
def ptier_SILO_LIST_HI : Fld := ⟨210, "SILO_LIST_HI", 0x00801024, 64, 0x40, 1, 0, 0, 4, .rw, 0⟩
def ptier_SILO_COUNT : Fld := ⟨211, "SILO_COUNT", 0x00801028, 64, 0x40, 1, 0, 0, 26, .rw, 0⟩
def ptier_SILO_FREE : Fld := ⟨212, "SILO_FREE", 0x0080102C, 64, 0x40, 1, 0, 0, 26, .ro, 0⟩
def ptier_SILO_ERR : Fld := ⟨213, "SILO_ERR", 0x0080102C, 64, 0x40, 1, 0, 31, 1, .w1c, 0⟩
def ptier_PARKS : Fld := ⟨214, "PARKS", 0x00801030, 64, 0x40, 1, 0, 0, 32, .ro, 0⟩
def ptier_RETURNS : Fld := ⟨215, "RETURNS", 0x00801034, 64, 0x40, 1, 0, 0, 32, .ro, 0⟩
def ptier_EXPIRIES : Fld := ⟨216, "EXPIRIES", 0x00801038, 64, 0x40, 1, 0, 0, 32, .ro, 0⟩
def ptier_TIER_ERRS : Fld := ⟨217, "TIER_ERRS", 0x0080103C, 64, 0x40, 1, 0, 0, 32, .ro, 0⟩
/-- The fields of this table. -/
def map20 : List Fld :=
  [ptier_REQ_BASE, ptier_REQ_COUNT, ptier_VIEW_LOG2, ptier_KV_ROW, ptier_KV_STREAMS, ptier_IDLE_MS,
   ptier_AUTO_PARK, ptier_TTL_DEF, ptier_POOL_TOTAL, ptier_POOL_FREE, ptier_POOL_LOW, ptier_SILO_LIST_LO,
   ptier_SILO_LIST_HI, ptier_SILO_COUNT, ptier_SILO_FREE, ptier_SILO_ERR, ptier_PARKS, ptier_RETURNS,
   ptier_EXPIRIES, ptier_TIER_ERRS]

/-! win: 12 R414. -/

def win_SLOT_TOTAL : Fld := ⟨218, "SLOT_TOTAL", 0x00700000, 1, 0x0, 1, 0, 0, 11, .ro, 1024⟩
def win_DRAWS : Fld := ⟨219, "DRAWS", 0x00700004, 1, 0x0, 1, 0, 0, 32, .ro, 0⟩
def win_DRAFT_DRAWS : Fld := ⟨220, "DRAFT_DRAWS", 0x00700008, 1, 0x0, 1, 0, 0, 32, .ro, 0⟩
def win_CAND_DROP : Fld := ⟨221, "CAND_DROP", 0x0070000C, 1, 0x0, 1, 0, 0, 32, .ro, 0⟩
def win_W_BUSY_CYC : Fld := ⟨222, "W_BUSY_CYC", 0x00700010, 1, 0x0, 1, 0, 0, 32, .ro, 0⟩
def win_ERR_CODE : Fld := ⟨223, "ERR_CODE", 0x00700014, 1, 0x0, 1, 0, 0, 8, .ro, 0⟩
def win_ERR_REQ : Fld := ⟨224, "ERR_REQ", 0x00700014, 1, 0x0, 1, 0, 8, 16, .ro, 0⟩
def win_ERR_VALID : Fld := ⟨225, "ERR_VALID", 0x00700014, 1, 0x0, 1, 0, 31, 1, .w1c, 0⟩
/-- The fields of this table. -/
def map21 : List Fld :=
  [win_SLOT_TOTAL, win_DRAWS, win_DRAFT_DRAWS, win_CAND_DROP, win_W_BUSY_CYC, win_ERR_CODE,
   win_ERR_REQ, win_ERR_VALID]

/-! pwin: 12 R414. -/

def pwin_SLOT_BASE : Fld := ⟨226, "SLOT_BASE", 0x00701000, 64, 0x20, 1, 0, 0, 10, .ro, 0⟩
def pwin_SLOT_COUNT : Fld := ⟨227, "SLOT_COUNT", 0x00701000, 64, 0x20, 1, 0, 16, 11, .ro, 0⟩
def pwin_COMMITS : Fld := ⟨228, "COMMITS", 0x00701004, 64, 0x20, 1, 0, 0, 32, .ro, 0⟩
def pwin_DRAFTED : Fld := ⟨229, "DRAFTED", 0x00701008, 64, 0x20, 1, 0, 0, 32, .ro, 0⟩
def pwin_ACCEPTED : Fld := ⟨230, "ACCEPTED", 0x0070100C, 64, 0x20, 1, 0, 0, 32, .ro, 0⟩
def pwin_VERIFIES : Fld := ⟨231, "VERIFIES", 0x00701010, 64, 0x20, 1, 0, 0, 32, .ro, 0⟩
def pwin_DC_OFFS : Fld := ⟨232, "DC_OFFS", 0x00701014, 64, 0x20, 1, 0, 0, 32, .ro, 0⟩
def pwin_CNT_DROP : Fld := ⟨233, "CNT_DROP", 0x00701018, 64, 0x20, 1, 0, 0, 32, .ro, 0⟩
def pwin_W_ERRS : Fld := ⟨234, "W_ERRS", 0x0070101C, 64, 0x20, 1, 0, 0, 32, .ro, 0⟩
/-- The fields of this table. -/
def map22 : List Fld :=
  [pwin_SLOT_BASE, pwin_SLOT_COUNT, pwin_COMMITS, pwin_DRAFTED, pwin_ACCEPTED, pwin_VERIFIES,
   pwin_DC_OFFS, pwin_CNT_DROP, pwin_W_ERRS]

/-! hbm: 13 R439. -/

def hbm_RATE : Fld := ⟨235, "RATE", 0x03000000, 24, 0x10000, 1, 0, 0, 2, .ro, 0⟩
def hbm_DEGRADED : Fld := ⟨236, "DEGRADED", 0x03000000, 24, 0x10000, 1, 0, 8, 1, .ro, 0⟩
def hbm_WARN : Fld := ⟨237, "WARN", 0x03000000, 24, 0x10000, 1, 0, 9, 1, .ro, 0⟩
def hbm_THROTTLE : Fld := ⟨238, "THROTTLE", 0x03000000, 24, 0x10000, 1, 0, 10, 1, .ro, 0⟩
def hbm_REFRESH_2X : Fld := ⟨239, "REFRESH_2X", 0x03000000, 24, 0x10000, 1, 0, 11, 1, .ro, 0⟩
def hbm_TEMP : Fld := ⟨240, "TEMP", 0x03000004, 24, 0x10000, 1, 0, 0, 16, .ro, 0⟩
def hbm_WARN_C : Fld := ⟨241, "WARN_C", 0x03000008, 24, 0x10000, 1, 0, 0, 8, .rw, 0⟩ -- cfg
def hbm_THROT_C : Fld := ⟨242, "THROT_C", 0x03000008, 24, 0x10000, 1, 0, 8, 8, .rw, 0⟩ -- cfg
def hbm_SHUT_C : Fld := ⟨243, "SHUT_C", 0x03000008, 24, 0x10000, 1, 0, 16, 8, .rw, 0⟩ -- cfg
def hbm_SCRUB_H : Fld := ⟨244, "SCRUB_H", 0x0300000C, 24, 0x10000, 1, 0, 0, 8, .rw, 24⟩
def hbm_CE_COUNT : Fld := ⟨245, "CE_COUNT", 0x03000010, 24, 0x10000, 1, 0, 0, 32, .ro, 0⟩
def hbm_UE_COUNT : Fld := ⟨246, "UE_COUNT", 0x03000014, 24, 0x10000, 1, 0, 0, 32, .ro, 0⟩
def hbm_POISON_RD : Fld := ⟨247, "POISON_RD", 0x03000018, 24, 0x10000, 1, 0, 0, 32, .ro, 0⟩
def hbm_ODECC : Fld := ⟨248, "ODECC", 0x0300001C, 24, 0x10000, 1, 0, 0, 32, .ro, 0⟩
def hbm_RD_GRAN : Fld := ⟨249, "RD_GRAN", 0x03000020, 24, 0x10000, 1, 0, 0, 32, .ro, 0⟩
def hbm_WR_GRAN : Fld := ⟨250, "WR_GRAN", 0x03000024, 24, 0x10000, 1, 0, 0, 32, .ro, 0⟩
def hbm_UE_ADDR_LO : Fld := ⟨251, "UE_ADDR_LO", 0x03000028, 24, 0x10000, 1, 0, 0, 32, .ro, 0⟩
def hbm_UE_ADDR_HI : Fld := ⟨252, "UE_ADDR_HI", 0x0300002C, 24, 0x10000, 1, 0, 0, 4, .ro, 0⟩
def hbm_THROT_MS : Fld := ⟨253, "THROT_MS", 0x03000030, 24, 0x10000, 1, 0, 0, 32, .ro, 0⟩
/-- The fields of this table. -/
def map23 : List Fld :=
  [hbm_RATE, hbm_DEGRADED, hbm_WARN, hbm_THROTTLE, hbm_REFRESH_2X, hbm_TEMP,
   hbm_WARN_C, hbm_THROT_C, hbm_SHUT_C, hbm_SCRUB_H, hbm_CE_COUNT, hbm_UE_COUNT,
   hbm_POISON_RD, hbm_ODECC, hbm_RD_GRAN, hbm_WR_GRAN, hbm_UE_ADDR_LO, hbm_UE_ADDR_HI,
   hbm_THROT_MS]

/-! bar2: 13 R440. -/

def bar2_SIZE_LOG2 : Fld := ⟨254, "SIZE_LOG2", 0x03200000, 1, 0x0, 1, 0, 0, 6, .ro, 28⟩
def bar2_BASE_BUSHEL : Fld := ⟨255, "BASE_BUSHEL", 0x03200100, 1, 0x0, 32, 4, 0, 21, .rw, 0⟩
def bar2_VALID : Fld := ⟨256, "VALID", 0x03200100, 1, 0x0, 32, 4, 31, 1, .rw, 0⟩
/-- The fields of this table. -/
def map24 : List Fld :=
  [bar2_SIZE_LOG2, bar2_BASE_BUSHEL, bar2_VALID]

/-! port: 14 R467. -/

def port_ENABLE : Fld := ⟨257, "ENABLE", 0x02000000, 24, 0x10000, 1, 0, 0, 1, .rw, 0⟩ -- cfg
def port_MODE : Fld := ⟨258, "MODE", 0x02000000, 24, 0x10000, 1, 0, 1, 1, .rw, 0⟩ -- cfg
def port_WIDTH_MIN : Fld := ⟨259, "WIDTH_MIN", 0x02000000, 24, 0x10000, 1, 0, 2, 2, .rw, 0⟩
def port_RETRAIN : Fld := ⟨260, "RETRAIN", 0x02000000, 24, 0x10000, 1, 0, 8, 1, .wo, 0⟩
def port_STATE : Fld := ⟨261, "STATE", 0x02000004, 24, 0x10000, 1, 0, 0, 3, .ro, 0⟩
def port_WIDTH : Fld := ⟨262, "WIDTH", 0x02000004, 24, 0x10000, 1, 0, 4, 3, .ro, 0⟩
def port_REVERSED : Fld := ⟨263, "REVERSED", 0x02000004, 24, 0x10000, 1, 0, 7, 1, .ro, 0⟩
def port_POL : Fld := ⟨264, "POL", 0x02000004, 24, 0x10000, 1, 0, 8, 4, .ro, 0⟩
def port_LANES_OK : Fld := ⟨265, "LANES_OK", 0x02000004, 24, 0x10000, 1, 0, 12, 4, .ro, 0⟩
def port_FAIL_CODE : Fld := ⟨266, "FAIL_CODE", 0x02000004, 24, 0x10000, 1, 0, 16, 8, .ro, 0⟩
def port_PATH_DELAY : Fld := ⟨267, "PATH_DELAY", 0x02000008, 24, 0x10000, 1, 0, 0, 20, .ro, 0⟩
def port_SLACK : Fld := ⟨268, "SLACK", 0x0200000C, 24, 0x10000, 1, 0, 0, 16, .rw, 0⟩ -- cfg
def port_RT : Fld := ⟨269, "RT", 0x0200000C, 24, 0x10000, 1, 0, 16, 16, .ro, 0⟩
def port_FEC_CW : Fld := ⟨270, "FEC_CW", 0x02000010, 24, 0x10000, 1, 0, 0, 32, .ro, 0⟩
def port_FEC_CORR : Fld := ⟨271, "FEC_CORR", 0x02000014, 24, 0x10000, 1, 0, 0, 32, .ro, 0⟩
def port_FEC_UNCORR : Fld := ⟨272, "FEC_UNCORR", 0x02000018, 24, 0x10000, 1, 0, 0, 32, .ro, 0⟩
def port_CRC_ERR : Fld := ⟨273, "CRC_ERR", 0x0200001C, 24, 0x10000, 1, 0, 0, 32, .ro, 0⟩
def port_REPLAYED : Fld := ⟨274, "REPLAYED", 0x02000020, 24, 0x10000, 1, 0, 0, 32, .ro, 0⟩
def port_LATE_FLITS : Fld := ⟨275, "LATE_FLITS", 0x02000024, 24, 0x10000, 1, 0, 0, 32, .ro, 0⟩
def port_RETRAINS : Fld := ⟨276, "RETRAINS", 0x02000028, 24, 0x10000, 1, 0, 0, 32, .ro, 0⟩
def port_DEGRADES : Fld := ⟨277, "DEGRADES", 0x0200002C, 24, 0x10000, 1, 0, 0, 32, .ro, 0⟩
def port_PROTO_ERR : Fld := ⟨278, "PROTO_ERR", 0x02000030, 24, 0x10000, 1, 0, 0, 32, .ro, 0⟩
def port_LANE_SER : Fld := ⟨279, "LANE_SER", 0x02000040, 24, 0x10000, 4, 4, 0, 32, .ro, 0⟩
def port_TX_TAPS : Fld := ⟨280, "TX_TAPS", 0x02000050, 24, 0x10000, 4, 4, 0, 24, .ro, 0⟩
def port_SLOT_START : Fld := ⟨281, "SLOT_START", 0x02000100, 24, 0x10000, 64, 8, 0, 17, .rw, 0⟩
def port_SLOT_VALID : Fld := ⟨282, "SLOT_VALID", 0x02000100, 24, 0x10000, 64, 8, 31, 1, .rw, 0⟩
def port_SLOT_LEN : Fld := ⟨283, "SLOT_LEN", 0x02000104, 24, 0x10000, 64, 8, 0, 17, .rw, 0⟩
def port_SLOT_OWNER : Fld := ⟨284, "SLOT_OWNER", 0x02000104, 24, 0x10000, 64, 8, 24, 6, .rw, 0⟩
/-- The fields of this table. -/
def map25 : List Fld :=
  [port_ENABLE, port_MODE, port_WIDTH_MIN, port_RETRAIN, port_STATE, port_WIDTH,
   port_REVERSED, port_POL, port_LANES_OK, port_FAIL_CODE, port_PATH_DELAY, port_SLACK,
   port_RT, port_FEC_CW, port_FEC_CORR, port_FEC_UNCORR, port_CRC_ERR, port_REPLAYED,
   port_LATE_FLITS, port_RETRAINS, port_DEGRADES, port_PROTO_ERR, port_LANE_SER, port_TX_TAPS,
   port_SLOT_START, port_SLOT_VALID, port_SLOT_LEN, port_SLOT_OWNER]

/-! msg: 15 R501. -/

def msg_POS : Fld := ⟨285, "POS", 0x02800000, 1, 0x0, 1, 0, 0, 6, .ro, 0⟩ -- pin
def msg_BLK : Fld := ⟨286, "BLK", 0x02800000, 1, 0x0, 1, 0, 8, 6, .ro, 0⟩ -- pin
def msg_TICKSRC : Fld := ⟨287, "TICKSRC", 0x02800000, 1, 0x0, 1, 0, 16, 1, .ro, 0⟩ -- pin
def msg_STRAP_PAR : Fld := ⟨288, "STRAP_PAR", 0x02800000, 1, 0x0, 1, 0, 17, 1, .ro, 0⟩ -- pin
def msg_STRAP_OK : Fld := ⟨289, "STRAP_OK", 0x02800000, 1, 0x0, 1, 0, 20, 1, .ro, 0⟩
def msg_POS_SRC : Fld := ⟨290, "POS_SRC", 0x02800000, 1, 0x0, 1, 0, 21, 1, .ro, 0⟩
def msg_STRAP_POLICY : Fld := ⟨291, "STRAP_POLICY", 0x02800000, 1, 0x0, 1, 0, 22, 1, .ro, 0⟩ -- cfg
def msg_FIELD_EN : Fld := ⟨292, "FIELD_EN", 0x02800000, 1, 0x0, 1, 0, 23, 1, .ro, 0⟩ -- cfg
def msg_MSG_FWD : Fld := ⟨293, "MSG_FWD", 0x02800004, 1, 0x0, 1, 0, 0, 32, .ro, 0⟩
def msg_MSG_BAD : Fld := ⟨294, "MSG_BAD", 0x02800008, 1, 0x0, 1, 0, 0, 32, .ro, 0⟩
def msg_UNREACH : Fld := ⟨295, "UNREACH", 0x0280000C, 1, 0x0, 1, 0, 0, 32, .ro, 0⟩
def msg_NOTES_Q : Fld := ⟨296, "NOTES_Q", 0x02800010, 1, 0x0, 1, 0, 0, 13, .ro, 0⟩
def msg_SNAP_LATE : Fld := ⟨297, "SNAP_LATE", 0x02800014, 1, 0x0, 1, 0, 0, 32, .ro, 0⟩
def msg_MGMT_DROP : Fld := ⟨298, "MGMT_DROP", 0x02800018, 1, 0x0, 1, 0, 0, 32, .ro, 0⟩
def msg_MSG_ERR : Fld := ⟨299, "MSG_ERR", 0x0280001C, 1, 0x0, 1, 0, 0, 8, .ro, 0⟩
def msg_MSG_ERR_ST : Fld := ⟨300, "MSG_ERR_ST", 0x0280001C, 1, 0x0, 1, 0, 8, 10, .ro, 0⟩
def msg_MSG_ERR_VALID : Fld := ⟨301, "MSG_ERR_VALID", 0x0280001C, 1, 0x0, 1, 0, 31, 1, .w1c, 0⟩
def msg_ROUTE_POS : Fld := ⟨302, "ROUTE_POS", 0x02800100, 1, 0x0, 64, 4, 0, 5, .rw, 0⟩ -- cfg
def msg_ALT_POS : Fld := ⟨303, "ALT_POS", 0x02800100, 1, 0x0, 64, 4, 8, 5, .rw, 0⟩ -- cfg
def msg_ROUTE_BLK : Fld := ⟨304, "ROUTE_BLK", 0x02800200, 1, 0x0, 64, 4, 0, 5, .rw, 0⟩ -- cfg
def msg_ALT_BLK : Fld := ⟨305, "ALT_BLK", 0x02800200, 1, 0x0, 64, 4, 8, 5, .rw, 0⟩ -- cfg
/-- The fields of this table. -/
def map26 : List Fld :=
  [msg_POS, msg_BLK, msg_TICKSRC, msg_STRAP_PAR, msg_STRAP_OK, msg_POS_SRC,
   msg_STRAP_POLICY, msg_FIELD_EN, msg_MSG_FWD, msg_MSG_BAD, msg_UNREACH, msg_NOTES_Q,
   msg_SNAP_LATE, msg_MGMT_DROP, msg_MSG_ERR, msg_MSG_ERR_ST, msg_MSG_ERR_VALID, msg_ROUTE_POS,
   msg_ALT_POS, msg_ROUTE_BLK, msg_ALT_BLK]

/-! port: 15 R502. -/

def port_NPOS : Fld := ⟨306, "NPOS", 0x02000400, 24, 0x10000, 1, 0, 0, 6, .ro, 0⟩
def port_NBLK : Fld := ⟨307, "NBLK", 0x02000400, 24, 0x10000, 1, 0, 8, 6, .ro, 0⟩
def port_NPORT : Fld := ⟨308, "NPORT", 0x02000400, 24, 0x10000, 1, 0, 16, 5, .ro, 0⟩
def port_MISMATCH : Fld := ⟨309, "MISMATCH", 0x02000400, 24, 0x10000, 1, 0, 30, 1, .w1c, 0⟩
def port_NVALID : Fld := ⟨310, "NVALID", 0x02000400, 24, 0x10000, 1, 0, 31, 1, .ro, 0⟩
def port_EXPECT : Fld := ⟨311, "EXPECT", 0x02000404, 24, 0x10000, 1, 0, 0, 32, .rw, 0⟩ -- cfg
def port_PEER : Fld := ⟨312, "PEER", 0x02000408, 24, 0x10000, 1, 0, 0, 5, .rw, 31⟩
def port_SW_EN : Fld := ⟨313, "SW_EN", 0x02000408, 24, 0x10000, 1, 0, 8, 1, .rw, 0⟩
def port_PROT_EN : Fld := ⟨314, "PROT_EN", 0x0200040C, 24, 0x10000, 1, 0, 0, 1, .rw, 0⟩
def port_KEY_OWNER : Fld := ⟨315, "KEY_OWNER", 0x0200040C, 24, 0x10000, 1, 0, 8, 6, .rw, 0⟩
def port_KEY_LOADED : Fld := ⟨316, "KEY_LOADED", 0x0200040C, 24, 0x10000, 1, 0, 16, 1, .ro, 0⟩
def port_SALT_TX : Fld := ⟨317, "SALT_TX", 0x02000410, 24, 0x10000, 1, 0, 0, 32, .rw, 0⟩
def port_SALT_RX : Fld := ⟨318, "SALT_RX", 0x02000414, 24, 0x10000, 1, 0, 0, 32, .rw, 0⟩
def port_KEY : Fld := ⟨319, "KEY", 0x02000420, 24, 0x10000, 8, 4, 0, 32, .wo, 0⟩
def port_KEY_LOAD : Fld := ⟨320, "KEY_LOAD", 0x02000440, 24, 0x10000, 1, 0, 0, 1, .wo, 0⟩
def port_AUTH_FAIL : Fld := ⟨321, "AUTH_FAIL", 0x02000444, 24, 0x10000, 1, 0, 0, 32, .ro, 0⟩
def port_MSG_TX : Fld := ⟨322, "MSG_TX", 0x02000448, 24, 0x10000, 1, 0, 0, 32, .ro, 0⟩
def port_MSG_RX : Fld := ⟨323, "MSG_RX", 0x0200044C, 24, 0x10000, 1, 0, 0, 32, .ro, 0⟩
def port_LOST : Fld := ⟨324, "LOST", 0x02000450, 24, 0x10000, 1, 0, 0, 32, .ro, 0⟩
def port_RW_MOD : Fld := ⟨325, "RW_MOD", 0x02000480, 24, 0x10000, 16, 4, 0, 12, .rw, 0⟩
def port_RW_CORE : Fld := ⟨326, "RW_CORE", 0x02000480, 24, 0x10000, 16, 4, 12, 9, .rw, 0⟩
def port_RW_WIN : Fld := ⟨327, "RW_WIN", 0x02000480, 24, 0x10000, 16, 4, 24, 4, .rw, 0⟩
def port_RW_VALID : Fld := ⟨328, "RW_VALID", 0x02000480, 24, 0x10000, 16, 4, 31, 1, .rw, 0⟩
def port_LOCAL : Fld := ⟨329, "LOCAL", 0x020004C0, 24, 0x10000, 16, 4, 0, 8, .rw, 0⟩
def port_REMOTE : Fld := ⟨330, "REMOTE", 0x020004C0, 24, 0x10000, 16, 4, 8, 8, .rw, 0⟩
def port_DIR : Fld := ⟨331, "DIR", 0x020004C0, 24, 0x10000, 16, 4, 16, 1, .rw, 0⟩
def port_CONFIRMED : Fld := ⟨332, "CONFIRMED", 0x020004C0, 24, 0x10000, 16, 4, 17, 1, .ro, 0⟩
def port_VALID : Fld := ⟨333, "VALID", 0x020004C0, 24, 0x10000, 16, 4, 31, 1, .rw, 0⟩
/-- The fields of this table. -/
def map27 : List Fld :=
  [port_NPOS, port_NBLK, port_NPORT, port_MISMATCH, port_NVALID, port_EXPECT,
   port_PEER, port_SW_EN, port_PROT_EN, port_KEY_OWNER, port_KEY_LOADED, port_SALT_TX,
   port_SALT_RX, port_KEY, port_KEY_LOAD, port_AUTH_FAIL, port_MSG_TX, port_MSG_RX,
   port_LOST, port_RW_MOD, port_RW_CORE, port_RW_WIN, port_RW_VALID, port_LOCAL,
   port_REMOTE, port_DIR, port_CONFIRMED, port_VALID]

/-! wdw: 15 R503. -/

def wdw_OPEN : Fld := ⟨334, "OPEN", 0x01007B00, 512, 0x8000, 16, 16, 0, 1, .ro, 0⟩
def wdw_GEN : Fld := ⟨335, "GEN", 0x01007B00, 512, 0x8000, 16, 16, 8, 8, .ro, 0⟩
def wdw_AVAIL : Fld := ⟨336, "AVAIL", 0x01007B00, 512, 0x8000, 16, 16, 16, 12, .ro, 0⟩
def wdw_BASE : Fld := ⟨337, "BASE", 0x01007B04, 512, 0x8000, 16, 16, 0, 11, .ro, 0⟩
def wdw_LEN : Fld := ⟨338, "LEN", 0x01007B04, 512, 0x8000, 16, 16, 16, 11, .ro, 0⟩
def wdw_WR_LANDED : Fld := ⟨339, "WR_LANDED", 0x01007B08, 512, 0x8000, 16, 16, 0, 32, .ro, 0⟩
def wdw_WR_DROPPED : Fld := ⟨340, "WR_DROPPED", 0x01007B0C, 512, 0x8000, 16, 16, 0, 32, .ro, 0⟩
def wdw_CRED_ENTRIES : Fld := ⟨341, "CRED_ENTRIES", 0x01007A80, 512, 0x8000, 1, 0, 0, 7, .ro, 0⟩
def wdw_WS_FAIL : Fld := ⟨342, "WS_FAIL", 0x01007A84, 512, 0x8000, 1, 0, 0, 32, .ro, 0⟩
def wdw_GRANT_DROP : Fld := ⟨343, "GRANT_DROP", 0x01007A88, 512, 0x8000, 1, 0, 0, 32, .ro, 0⟩
/-- The fields of this table. -/
def map28 : List Fld :=
  [wdw_OPEN, wdw_GEN, wdw_AVAIL, wdw_BASE, wdw_LEN, wdw_WR_LANDED,
   wdw_WR_DROPPED, wdw_CRED_ENTRIES, wdw_WS_FAIL, wdw_GRANT_DROP]

/-! hc: 16 R519. -/

def hc_HC_HOST_LO : Fld := ⟨344, "HC_HOST_LO", 0x03802000, 64, 0x40, 1, 0, 0, 32, .rw, 0⟩
def hc_HC_HOST_HI : Fld := ⟨345, "HC_HOST_HI", 0x03802004, 64, 0x40, 1, 0, 0, 32, .rw, 0⟩
def hc_HC_GRAN_LO : Fld := ⟨346, "HC_GRAN_LO", 0x03802008, 64, 0x40, 1, 0, 0, 32, .rw, 0⟩
def hc_HC_GRAN_HI : Fld := ⟨347, "HC_GRAN_HI", 0x0380200C, 64, 0x40, 1, 0, 0, 4, .rw, 0⟩
def hc_HC_LEN : Fld := ⟨348, "HC_LEN", 0x03802010, 64, 0x40, 1, 0, 0, 24, .rw, 0⟩
def hc_HC_DIR : Fld := ⟨349, "HC_DIR", 0x03802010, 64, 0x40, 1, 0, 31, 1, .rw, 0⟩
def hc_HC_GO : Fld := ⟨350, "HC_GO", 0x03802014, 64, 0x40, 1, 0, 0, 1, .wo, 0⟩
def hc_HC_DONE : Fld := ⟨351, "HC_DONE", 0x03802018, 64, 0x40, 1, 0, 0, 16, .ro, 0⟩
def hc_HC_DEPTH : Fld := ⟨352, "HC_DEPTH", 0x03802018, 64, 0x40, 1, 0, 16, 5, .ro, 0⟩
/-- The fields of this table. -/
def map29 : List Fld :=
  [hc_HC_HOST_LO, hc_HC_HOST_HI, hc_HC_GRAN_LO, hc_HC_GRAN_HI, hc_HC_LEN, hc_HC_DIR,
   hc_HC_GO, hc_HC_DONE, hc_HC_DEPTH]

/-! ring: 16 R510. -/

def ring_SQ_TAIL : Fld := ⟨353, "SQ_TAIL", 0x03810000, 64, 0x1000, 4, 32, 0, 11, .rw, 0⟩
def ring_SQ_HEAD : Fld := ⟨354, "SQ_HEAD", 0x03810004, 64, 0x1000, 4, 32, 0, 11, .ro, 0⟩
def ring_SQ_SIZE_LOG2 : Fld := ⟨355, "SQ_SIZE_LOG2", 0x03810008, 64, 0x1000, 4, 32, 0, 4, .rw, 4⟩
def ring_SQ_EN : Fld := ⟨356, "SQ_EN", 0x03810008, 64, 0x1000, 4, 32, 8, 1, .rw, 0⟩
def ring_SQ_REFUSED : Fld := ⟨357, "SQ_REFUSED", 0x0381000C, 64, 0x1000, 4, 32, 0, 32, .ro, 0⟩
def ring_CQ_BASE_LO : Fld := ⟨358, "CQ_BASE_LO", 0x03810080, 64, 0x1000, 2, 32, 0, 32, .rw, 0⟩
def ring_CQ_BASE_HI : Fld := ⟨359, "CQ_BASE_HI", 0x03810084, 64, 0x1000, 2, 32, 0, 32, .rw, 0⟩
def ring_CQ_SIZE_LOG2 : Fld := ⟨360, "CQ_SIZE_LOG2", 0x03810088, 64, 0x1000, 2, 32, 0, 5, .rw, 6⟩
def ring_CQ_EN : Fld := ⟨361, "CQ_EN", 0x03810088, 64, 0x1000, 2, 32, 8, 1, .rw, 0⟩
def ring_MSIX_EN : Fld := ⟨362, "MSIX_EN", 0x03810088, 64, 0x1000, 2, 32, 16, 1, .rw, 0⟩
def ring_CQ_HEAD : Fld := ⟨363, "CQ_HEAD", 0x0381008C, 64, 0x1000, 2, 32, 0, 16, .rw, 0⟩
def ring_CQ_TAIL : Fld := ⟨364, "CQ_TAIL", 0x03810090, 64, 0x1000, 2, 32, 0, 16, .ro, 0⟩
def ring_CQ_TAILPTR_LO : Fld := ⟨365, "CQ_TAILPTR_LO", 0x03810094, 64, 0x1000, 2, 32, 0, 32, .rw, 0⟩
def ring_CQ_TAILPTR_HI : Fld := ⟨366, "CQ_TAILPTR_HI", 0x03810098, 64, 0x1000, 2, 32, 0, 32, .rw, 0⟩
def ring_CQ_LOST : Fld := ⟨367, "CQ_LOST", 0x0381009C, 64, 0x1000, 2, 32, 0, 32, .ro, 0⟩
/-- The fields of this table. -/
def map30 : List Fld :=
  [ring_SQ_TAIL, ring_SQ_HEAD, ring_SQ_SIZE_LOG2, ring_SQ_EN, ring_SQ_REFUSED, ring_CQ_BASE_LO,
   ring_CQ_BASE_HI, ring_CQ_SIZE_LOG2, ring_CQ_EN, ring_MSIX_EN, ring_CQ_HEAD, ring_CQ_TAIL,
   ring_CQ_TAILPTR_LO, ring_CQ_TAILPTR_HI, ring_CQ_LOST]

/-! host: 16 R505. -/

def host_HOST_LINK : Fld := ⟨368, "HOST_LINK", 0x03800000, 1, 0x0, 1, 0, 0, 3, .ro, 0⟩
def host_WIDTH : Fld := ⟨369, "WIDTH", 0x03800000, 1, 0x0, 1, 0, 4, 5, .ro, 0⟩
def host_FLIT : Fld := ⟨370, "FLIT", 0x03800000, 1, 0x0, 1, 0, 9, 1, .ro, 0⟩
def host_IDE_UP : Fld := ⟨371, "IDE_UP", 0x03800000, 1, 0x0, 1, 0, 10, 1, .ro, 0⟩
def host_LINK_DOWNS : Fld := ⟨372, "LINK_DOWNS", 0x03800004, 1, 0x0, 1, 0, 0, 32, .ro, 0⟩
def host_HELD : Fld := ⟨373, "HELD", 0x03800008, 1, 0x0, 1, 0, 0, 17, .ro, 0⟩
def host_HAE_COUNT : Fld := ⟨374, "HAE_COUNT", 0x0380000C, 1, 0x0, 1, 0, 0, 32, .ro, 0⟩
def host_HOST_IDE_FAIL : Fld := ⟨375, "HOST_IDE_FAIL", 0x03800010, 1, 0x0, 1, 0, 0, 32, .ro, 0⟩
/-- The fields of this table. -/
def map31 : List Fld :=
  [host_HOST_LINK, host_WIDTH, host_FLIT, host_IDE_UP, host_LINK_DOWNS, host_HELD,
   host_HAE_COUNT, host_HOST_IDE_FAIL]

/-! ctab: 17 R533. -/

def ctab_OWNER : Fld := ⟨376, "OWNER", 0x00202000, 512, 0x4, 1, 0, 0, 6, .rw, 0⟩
def ctab_OWNED : Fld := ⟨377, "OWNED", 0x00202000, 512, 0x4, 1, 0, 6, 1, .rw, 0⟩
def ctab_FRAME_HDR : Fld := ⟨378, "FRAME_HDR", 0x00202000, 512, 0x4, 1, 0, 8, 17, .rw, 0⟩
def ctab_STAGE_EN : Fld := ⟨379, "STAGE_EN", 0x00202000, 512, 0x4, 1, 0, 25, 1, .rw, 0⟩
def ctab_STAGE_FOR : Fld := ⟨380, "STAGE_FOR", 0x00202000, 512, 0x4, 1, 0, 26, 6, .rw, 0⟩
/-- The fields of this table. -/
def map32 : List Fld :=
  [ctab_OWNER, ctab_OWNED, ctab_FRAME_HDR, ctab_STAGE_EN, ctab_STAGE_FOR]

/-! acc: 17 R536. -/

def acc_N_ENABLED : Fld := ⟨381, "N_ENABLED", 0x00200000, 1, 0x0, 1, 0, 0, 7, .ro, 0⟩
def acc_ACC_BUSY : Fld := ⟨382, "ACC_BUSY", 0x00200000, 1, 0x0, 1, 0, 8, 1, .ro, 0⟩
def acc_ACC_PART : Fld := ⟨383, "ACC_PART", 0x00200000, 1, 0x0, 1, 0, 16, 6, .ro, 0⟩
def acc_FEAT_DEV_LO : Fld := ⟨384, "FEAT_DEV_LO", 0x00200004, 1, 0x0, 1, 0, 0, 32, .ro, 0⟩
def acc_FEAT_DEV_HI : Fld := ⟨385, "FEAT_DEV_HI", 0x00200008, 1, 0x0, 1, 0, 0, 32, .ro, 0⟩
def acc_ACC_RUNS : Fld := ⟨386, "ACC_RUNS", 0x0020000C, 1, 0x0, 1, 0, 0, 32, .ro, 0⟩
def acc_ACC_REFUSED : Fld := ⟨387, "ACC_REFUSED", 0x00200010, 1, 0x0, 1, 0, 0, 32, .ro, 0⟩
/-- The fields of this table. -/
def map33 : List Fld :=
  [acc_N_ENABLED, acc_ACC_BUSY, acc_ACC_PART, acc_FEAT_DEV_LO, acc_FEAT_DEV_HI, acc_ACC_RUNS,
   acc_ACC_REFUSED]

/-! part: 17 R528. -/

def part_ENABLE : Fld := ⟨388, "ENABLE", 0x00201000, 64, 0x40, 1, 0, 0, 1, .wo, 0⟩
def part_DISABLE : Fld := ⟨389, "DISABLE", 0x00201000, 64, 0x40, 1, 0, 1, 1, .wo, 0⟩
def part_ENABLE_AT_LO : Fld := ⟨390, "ENABLE_AT_LO", 0x00201004, 64, 0x40, 1, 0, 0, 32, .rw, 0⟩
def part_ENABLE_AT_HI : Fld := ⟨391, "ENABLE_AT_HI", 0x00201008, 64, 0x40, 1, 0, 0, 16, .rw, 0⟩
def part_DISABLE_AT_LO : Fld := ⟨392, "DISABLE_AT_LO", 0x0020100C, 64, 0x40, 1, 0, 0, 32, .rw, 0⟩
def part_DISABLE_AT_HI : Fld := ⟨393, "DISABLE_AT_HI", 0x00201010, 64, 0x40, 1, 0, 0, 16, .rw, 0⟩
def part_PSTATE : Fld := ⟨394, "PSTATE", 0x00201014, 64, 0x40, 1, 0, 0, 3, .ro, 0⟩
def part_REASON : Fld := ⟨395, "REASON", 0x00201014, 64, 0x40, 1, 0, 8, 8, .ro, 0⟩
def part_RESET_CAUSE : Fld := ⟨396, "RESET_CAUSE", 0x00201014, 64, 0x40, 1, 0, 16, 8, .ro, 0⟩
def part_REFUSED : Fld := ⟨397, "REFUSED", 0x00201014, 64, 0x40, 1, 0, 31, 1, .w1c, 0⟩
def part_ACC_DETAIL : Fld := ⟨398, "ACC_DETAIL", 0x00201018, 64, 0x40, 1, 0, 0, 32, .ro, 0⟩
def part_EN_TICK_LO : Fld := ⟨399, "EN_TICK_LO", 0x0020101C, 64, 0x40, 1, 0, 0, 32, .ro, 0⟩
def part_EN_TICK_HI : Fld := ⟨400, "EN_TICK_HI", 0x00201020, 64, 0x40, 1, 0, 0, 16, .ro, 0⟩
def part_ENABLES : Fld := ⟨401, "ENABLES", 0x00201024, 64, 0x40, 1, 0, 0, 32, .ro, 0⟩
/-- The fields of this table. -/
def map34 : List Fld :=
  [part_ENABLE, part_DISABLE, part_ENABLE_AT_LO, part_ENABLE_AT_HI, part_DISABLE_AT_LO, part_DISABLE_AT_HI,
   part_PSTATE, part_REASON, part_RESET_CAUSE, part_REFUSED, part_ACC_DETAIL, part_EN_TICK_LO,
   part_EN_TICK_HI, part_ENABLES]

/-! mx: 17 R541. -/

def mx_WS_TENANT : Fld := ⟨402, "WS_TENANT", 0x01007234, 512, 0x8000, 1, 0, 0, 32, .ro, 0⟩
/-- The fields of this table. -/
def map35 : List Fld :=
  [mx_WS_TENANT]

/-! mgmt: 18 R559. -/

def mgmt_STAGE : Fld := ⟨403, "STAGE", 0x03C00000, 1, 0x0, 1, 0, 0, 4, .ro, 0⟩
def mgmt_FAIL_CODE : Fld := ⟨404, "FAIL_CODE", 0x03C00000, 1, 0x0, 1, 0, 8, 8, .ro, 0⟩
def mgmt_RUN_HALF : Fld := ⟨405, "RUN_HALF", 0x03C00000, 1, 0x0, 1, 0, 16, 1, .ro, 0⟩
def mgmt_FW_STATE : Fld := ⟨406, "FW_STATE", 0x03C00000, 1, 0x0, 1, 0, 17, 3, .ro, 0⟩
def mgmt_ID_OK : Fld := ⟨407, "ID_OK", 0x03C00000, 1, 0x0, 1, 0, 20, 1, .ro, 0⟩
def mgmt_POWER_S : Fld := ⟨408, "POWER_S", 0x03C00004, 1, 0x0, 1, 0, 0, 32, .ro, 0⟩
def mgmt_DRV_CP : Fld := ⟨409, "DRV_CP", 0x03C00008, 1, 0x0, 1, 0, 0, 16, .rw, 0⟩
def mgmt_FW_CP : Fld := ⟨410, "FW_CP", 0x03C0000C, 1, 0x0, 1, 0, 0, 16, .ro, 0⟩
def mgmt_FW_PAGE : Fld := ⟨411, "FW_PAGE", 0x03C00010, 1, 0x0, 1, 0, 0, 3, .rw, 0⟩
def mgmt_FW_TARGET : Fld := ⟨412, "FW_TARGET", 0x03C00010, 1, 0x0, 1, 0, 4, 1, .rw, 0⟩
def mgmt_FW_GO : Fld := ⟨413, "FW_GO", 0x03C00010, 1, 0x0, 1, 0, 8, 1, .wo, 0⟩
def mgmt_FW_SWAP : Fld := ⟨414, "FW_SWAP", 0x03C00010, 1, 0x0, 1, 0, 9, 1, .wo, 0⟩
def mgmt_CFG_GO : Fld := ⟨415, "CFG_GO", 0x03C00010, 1, 0x0, 1, 0, 10, 1, .wo, 0⟩
def mgmt_FW_LEN : Fld := ⟨416, "FW_LEN", 0x03C00014, 1, 0x0, 1, 0, 0, 23, .rw, 0⟩
def mgmt_FW_RESULT : Fld := ⟨417, "FW_RESULT", 0x03C00018, 1, 0x0, 1, 0, 0, 8, .ro, 0⟩
def mgmt_HANDOFF_AT_LO : Fld := ⟨418, "HANDOFF_AT_LO", 0x03C0001C, 1, 0x0, 1, 0, 0, 32, .rw, 0⟩
def mgmt_HANDOFF_AT_HI : Fld := ⟨419, "HANDOFF_AT_HI", 0x03C00020, 1, 0x0, 1, 0, 0, 16, .rw, 0⟩
def mgmt_HANDOFF_TICK_LO : Fld := ⟨420, "HANDOFF_TICK_LO", 0x03C00024, 1, 0x0, 1, 0, 0, 32, .ro, 0⟩
def mgmt_HANDOFF_TICK_HI : Fld := ⟨421, "HANDOFF_TICK_HI", 0x03C00028, 1, 0x0, 1, 0, 0, 16, .ro, 0⟩
def mgmt_FW_SVN : Fld := ⟨422, "FW_SVN", 0x03C0002C, 1, 0x0, 1, 0, 0, 16, .ro, 0⟩
def mgmt_MIN_FW_SVN : Fld := ⟨423, "MIN_FW_SVN", 0x03C0002C, 1, 0x0, 1, 0, 16, 16, .ro, 0⟩ -- cfg
def mgmt_CFG_FLOOR : Fld := ⟨424, "CFG_FLOOR", 0x03C00030, 1, 0x0, 1, 0, 0, 7, .ro, 0⟩
def mgmt_CFG_SVN : Fld := ⟨425, "CFG_SVN", 0x03C00030, 1, 0x0, 1, 0, 8, 8, .ro, 0⟩ -- cfg
def mgmt_CFG_COPY : Fld := ⟨426, "CFG_COPY", 0x03C00030, 1, 0x0, 1, 0, 16, 1, .ro, 0⟩
def mgmt_FLASH_BUSY : Fld := ⟨427, "FLASH_BUSY", 0x03C00034, 1, 0x0, 1, 0, 0, 1, .ro, 0⟩
def mgmt_PPR_SKIP : Fld := ⟨428, "PPR_SKIP", 0x03C00038, 1, 0x0, 1, 0, 0, 16, .ro, 0⟩
/-- The fields of this table. -/
def map36 : List Fld :=
  [mgmt_STAGE, mgmt_FAIL_CODE, mgmt_RUN_HALF, mgmt_FW_STATE, mgmt_ID_OK, mgmt_POWER_S,
   mgmt_DRV_CP, mgmt_FW_CP, mgmt_FW_PAGE, mgmt_FW_TARGET, mgmt_FW_GO, mgmt_FW_SWAP,
   mgmt_CFG_GO, mgmt_FW_LEN, mgmt_FW_RESULT, mgmt_HANDOFF_AT_LO, mgmt_HANDOFF_AT_HI, mgmt_HANDOFF_TICK_LO,
   mgmt_HANDOFF_TICK_HI, mgmt_FW_SVN, mgmt_MIN_FW_SVN, mgmt_CFG_FLOOR, mgmt_CFG_SVN, mgmt_CFG_COPY,
   mgmt_FLASH_BUSY, mgmt_PPR_SKIP]

/-! gauge: 19 R597. -/

def gauge_RUN : Fld := ⟨429, "RUN", 0x00308000, 1, 0x0, 1, 0, 0, 1, .ro, 0⟩
def gauge_INTLV_DEG : Fld := ⟨430, "INTLV_DEG", 0x00308000, 1, 0x0, 1, 0, 1, 1, .ro, 0⟩
def gauge_CONV_FAIL : Fld := ⟨431, "CONV_FAIL", 0x00308000, 1, 0x0, 1, 0, 4, 4, .ro, 0⟩
def gauge_G2_START : Fld := ⟨432, "G2_START", 0x00308004, 1, 0x0, 1, 0, 0, 6, .rw, 0⟩
def gauge_G2_END : Fld := ⟨433, "G2_END", 0x00308004, 1, 0x0, 1, 0, 8, 6, .rw, 23⟩
def gauge_G2_PD_EN : Fld := ⟨434, "G2_PD_EN", 0x00308004, 1, 0x0, 1, 0, 16, 1, .rw, 1⟩
def gauge_G3_START : Fld := ⟨435, "G3_START", 0x00308008, 1, 0x0, 1, 0, 0, 6, .rw, 32⟩
def gauge_G3_END : Fld := ⟨436, "G3_END", 0x00308008, 1, 0x0, 1, 0, 8, 6, .rw, 63⟩
def gauge_G3_PD_EN : Fld := ⟨437, "G3_PD_EN", 0x00308008, 1, 0x0, 1, 0, 16, 1, .rw, 1⟩
def gauge_POWERED : Fld := ⟨438, "POWERED", 0x0030800C, 1, 0x0, 1, 0, 0, 4, .ro, 0⟩
def gauge_ENTRY_BAD : Fld := ⟨439, "ENTRY_BAD", 0x0030800C, 1, 0x0, 1, 0, 8, 1, .w1c, 0⟩
def gauge_IIN_CODE : Fld := ⟨440, "IIN_CODE", 0x00308010, 1, 0x0, 1, 0, 0, 12, .ro, 0⟩
def gauge_IIN_OVR : Fld := ⟨441, "IIN_OVR", 0x00308010, 1, 0x0, 1, 0, 12, 1, .ro, 0⟩
def gauge_IIN_SRC : Fld := ⟨442, "IIN_SRC", 0x00308010, 1, 0x0, 1, 0, 13, 1, .ro, 0⟩
def gauge_IIN_SEQ : Fld := ⟨443, "IIN_SEQ", 0x00308010, 1, 0x0, 1, 0, 16, 16, .ro, 0⟩
def gauge_OPEN_MAP : Fld := ⟨444, "OPEN_MAP", 0x00308014, 1, 0x0, 1, 0, 0, 16, .ro, 0⟩
def gauge_OVR_MAP : Fld := ⟨445, "OVR_MAP", 0x00308018, 1, 0x0, 1, 0, 0, 3, .w1c, 0⟩
def gauge_MUX_WAIT : Fld := ⟨446, "MUX_WAIT", 0x00308020, 1, 0x0, 1, 0, 0, 32, .ro, 0⟩
def gauge_ENTRY_SKIP : Fld := ⟨447, "ENTRY_SKIP", 0x00308024, 1, 0x0, 1, 0, 0, 32, .ro, 0⟩
def gauge_OW_EVENTS : Fld := ⟨448, "OW_EVENTS", 0x00308028, 1, 0x0, 1, 0, 0, 32, .ro, 0⟩
def gauge_OVR_EVENTS : Fld := ⟨449, "OVR_EVENTS", 0x0030802C, 1, 0x0, 1, 0, 0, 32, .ro, 0⟩
def gauge_IIN_OVR_CNT : Fld := ⟨450, "IIN_OVR_CNT", 0x00308030, 1, 0x0, 1, 0, 0, 32, .ro, 0⟩
def gauge_OFS_TRIM : Fld := ⟨451, "OFS_TRIM", 0x00308040, 1, 0x0, 4, 4, 0, 16, .ro, 0⟩
def gauge_GAIN_TRIM : Fld := ⟨452, "GAIN_TRIM", 0x00308040, 1, 0x0, 4, 4, 16, 8, .ro, 0⟩
def gauge_SU : Fld := ⟨453, "SU", 0x00308040, 1, 0x0, 4, 4, 24, 8, .ro, 0⟩
def gauge_ENTRY_LO : Fld := ⟨454, "ENTRY_LO", 0x00308400, 1, 0x0, 64, 8, 0, 32, .rw, 0⟩
def gauge_ENTRY_HI : Fld := ⟨455, "ENTRY_HI", 0x00308404, 1, 0x0, 64, 8, 0, 32, .rw, 0⟩
/-- The fields of this table. -/
def map37 : List Fld :=
  [gauge_RUN, gauge_INTLV_DEG, gauge_CONV_FAIL, gauge_G2_START, gauge_G2_END, gauge_G2_PD_EN,
   gauge_G3_START, gauge_G3_END, gauge_G3_PD_EN, gauge_POWERED, gauge_ENTRY_BAD, gauge_IIN_CODE,
   gauge_IIN_OVR, gauge_IIN_SRC, gauge_IIN_SEQ, gauge_OPEN_MAP, gauge_OVR_MAP, gauge_MUX_WAIT,
   gauge_ENTRY_SKIP, gauge_OW_EVENTS, gauge_OVR_EVENTS, gauge_IIN_OVR_CNT, gauge_OFS_TRIM, gauge_GAIN_TRIM,
   gauge_SU, gauge_ENTRY_LO, gauge_ENTRY_HI]

/-! gres: 19 R597. -/

def gres_VALUE : Fld := ⟨456, "VALUE", 0x00308800, 64, 0x10, 1, 0, 0, 16, .ro, 0⟩
def gres_OVR : Fld := ⟨457, "OVR", 0x00308800, 64, 0x10, 1, 0, 16, 1, .ro, 0⟩
def gres_FS : Fld := ⟨458, "FS", 0x00308800, 64, 0x10, 1, 0, 17, 1, .ro, 0⟩
def gres_OPEN : Fld := ⟨459, "OPEN", 0x00308800, 64, 0x10, 1, 0, 18, 1, .ro, 0⟩
def gres_SEQ : Fld := ⟨460, "SEQ", 0x00308800, 64, 0x10, 1, 0, 20, 12, .ro, 0⟩
def gres_MIN : Fld := ⟨461, "MIN", 0x00308804, 64, 0x10, 1, 0, 0, 16, .ro, 0⟩
def gres_MAX : Fld := ⟨462, "MAX", 0x00308804, 64, 0x10, 1, 0, 16, 16, .ro, 0⟩
def gres_TICK_LO : Fld := ⟨463, "TICK_LO", 0x00308808, 64, 0x10, 1, 0, 0, 32, .ro, 0⟩
def gres_CYC : Fld := ⟨464, "CYC", 0x0030880C, 64, 0x10, 1, 0, 0, 17, .ro, 0⟩
/-- The fields of this table. -/
def map38 : List Fld :=
  [gres_VALUE, gres_OVR, gres_FS, gres_OPEN, gres_SEQ, gres_MIN,
   gres_MAX, gres_TICK_LO, gres_CYC]

/-! gov: 20 R626. -/

def gov_CEIL_W : Fld := ⟨465, "CEIL_W", 0x00300000, 1, 0x0, 1, 0, 0, 12, .rw, 0⟩ -- cfg
def gov_SLEW : Fld := ⟨466, "SLEW", 0x00300000, 1, 0x0, 1, 0, 16, 5, .rw, 0⟩ -- cfg
def gov_OTHER_RES : Fld := ⟨467, "OTHER_RES", 0x00300004, 1, 0x0, 1, 0, 0, 12, .rw, 0⟩ -- cfg
def gov_THROT_FRAC : Fld := ⟨468, "THROT_FRAC", 0x00300004, 1, 0x0, 1, 0, 16, 7, .rw, 0⟩ -- cfg
def gov_CEIL_EFF : Fld := ⟨469, "CEIL_EFF", 0x00300008, 1, 0x0, 1, 0, 0, 12, .ro, 0⟩
def gov_RED_VIN : Fld := ⟨470, "RED_VIN", 0x00300008, 1, 0x0, 1, 0, 16, 1, .ro, 0⟩
def gov_RED_COOL : Fld := ⟨471, "RED_COOL", 0x00300008, 1, 0x0, 1, 0, 17, 1, .ro, 0⟩
def gov_GCEIL : Fld := ⟨472, "GCEIL", 0x0030000C, 1, 0x0, 1, 0, 0, 16, .ro, 0⟩
def gov_STEP_G : Fld := ⟨473, "STEP_G", 0x0030000C, 1, 0x0, 1, 0, 16, 16, .ro, 0⟩
def gov_SCALE : Fld := ⟨474, "SCALE", 0x00300010, 1, 0x0, 1, 0, 0, 16, .ro, 32768⟩
def gov_PIN_W : Fld := ⟨475, "PIN_W", 0x00300014, 1, 0x0, 1, 0, 0, 12, .ro, 0⟩
def gov_PIN_PEAK : Fld := ⟨476, "PIN_PEAK", 0x00300014, 1, 0x0, 1, 0, 16, 12, .ro, 0⟩
def gov_HELD_W : Fld := ⟨477, "HELD_W", 0x00300018, 1, 0x0, 1, 0, 0, 16, .ro, 0⟩
def gov_FREEZE : Fld := ⟨478, "FREEZE", 0x00300018, 1, 0x0, 1, 0, 16, 1, .ro, 0⟩
def gov_HOLD : Fld := ⟨479, "HOLD", 0x00300018, 1, 0x0, 1, 0, 17, 1, .ro, 0⟩
def gov_FAST_TRIPS : Fld := ⟨480, "FAST_TRIPS", 0x0030001C, 1, 0x0, 1, 0, 0, 32, .ro, 0⟩
def gov_IREV_TRIPS : Fld := ⟨481, "IREV_TRIPS", 0x00300020, 1, 0x0, 1, 0, 0, 32, .ro, 0⟩
def gov_VIN_OV : Fld := ⟨482, "VIN_OV", 0x00300024, 1, 0x0, 1, 0, 0, 16, .ro, 0⟩ -- cfg
def gov_VIN_UV : Fld := ⟨483, "VIN_UV", 0x00300024, 1, 0x0, 1, 0, 16, 16, .ro, 0⟩ -- cfg
def gov_IIN_TRIP : Fld := ⟨484, "IIN_TRIP", 0x00300028, 1, 0x0, 1, 0, 0, 16, .ro, 0⟩ -- cfg
def gov_IREV_TRIP : Fld := ⟨485, "IREV_TRIP", 0x00300028, 1, 0x0, 1, 0, 16, 16, .ro, 0⟩ -- cfg
def gov_COOL_FAULT_W : Fld := ⟨486, "COOL_FAULT_W", 0x0030002C, 1, 0x0, 1, 0, 0, 12, .ro, 0⟩ -- cfg
def gov_HOLD_TRIPS : Fld := ⟨487, "HOLD_TRIPS", 0x00300030, 1, 0x0, 1, 0, 0, 32, .ro, 0⟩
/-- The fields of this table. -/
def map39 : List Fld :=
  [gov_CEIL_W, gov_SLEW, gov_OTHER_RES, gov_THROT_FRAC, gov_CEIL_EFF, gov_RED_VIN,
   gov_RED_COOL, gov_GCEIL, gov_STEP_G, gov_SCALE, gov_PIN_W, gov_PIN_PEAK,
   gov_HELD_W, gov_FREEZE, gov_HOLD, gov_FAST_TRIPS, gov_IREV_TRIPS, gov_VIN_OV,
   gov_VIN_UV, gov_IIN_TRIP, gov_IREV_TRIP, gov_COOL_FAULT_W, gov_HOLD_TRIPS]

/-! pgov: 20 R626. -/

def pgov_SHARE_EFF : Fld := ⟨488, "SHARE_EFF", 0x00301000, 64, 0x10, 1, 0, 0, 16, .ro, 0⟩
def pgov_LEVEL : Fld := ⟨489, "LEVEL", 0x00301000, 64, 0x10, 1, 0, 16, 16, .ro, 0⟩
def pgov_HELD : Fld := ⟨490, "HELD", 0x00301004, 64, 0x10, 1, 0, 0, 16, .ro, 0⟩
def pgov_PEAK : Fld := ⟨491, "PEAK", 0x00301004, 64, 0x10, 1, 0, 16, 16, .ro, 0⟩
def pgov_STEP : Fld := ⟨492, "STEP", 0x00301008, 64, 0x10, 1, 0, 0, 16, .ro, 0⟩
def pgov_GOV_DEFER : Fld := ⟨493, "GOV_DEFER", 0x0030100C, 64, 0x10, 1, 0, 0, 32, .ro, 0⟩
/-- The fields of this table. -/
def map40 : List Fld :=
  [pgov_SHARE_EFF, pgov_LEVEL, pgov_HELD, pgov_PEAK, pgov_STEP, pgov_GOV_DEFER]

/-! therm: 20 R626. -/

def therm_WARN_C : Fld := ⟨494, "WARN_C", 0x00400000, 1, 0x0, 1, 0, 0, 8, .rw, 0⟩ -- cfg
def therm_THROT_C : Fld := ⟨495, "THROT_C", 0x00400000, 1, 0x0, 1, 0, 8, 8, .rw, 0⟩ -- cfg
def therm_SHUT_C : Fld := ⟨496, "SHUT_C", 0x00400000, 1, 0x0, 1, 0, 16, 8, .rw, 0⟩ -- cfg
def therm_CROSS_MARGIN : Fld := ⟨497, "CROSS_MARGIN", 0x00400004, 1, 0x0, 1, 0, 0, 5, .rw, 0⟩ -- cfg
def therm_SD_MODE : Fld := ⟨498, "SD_MODE", 0x00400004, 1, 0x0, 1, 0, 8, 1, .rw, 0⟩ -- cfg
def therm_ORD_MAX_S : Fld := ⟨499, "ORD_MAX_S", 0x00400004, 1, 0x0, 1, 0, 16, 8, .rw, 0⟩ -- cfg
def therm_COOL_WARN_C : Fld := ⟨500, "COOL_WARN_C", 0x00400008, 1, 0x0, 1, 0, 0, 8, .rw, 0⟩ -- cfg
def therm_COOL_SHUT_C : Fld := ⟨501, "COOL_SHUT_C", 0x00400008, 1, 0x0, 1, 0, 8, 8, .rw, 0⟩ -- cfg
def therm_PST_SHUT_C : Fld := ⟨502, "PST_SHUT_C", 0x00400008, 1, 0x0, 1, 0, 16, 8, .rw, 0⟩ -- cfg
def therm_TMAX : Fld := ⟨503, "TMAX", 0x0040000C, 1, 0x0, 1, 0, 0, 16, .ro, 0⟩
def therm_TMAX_SENS : Fld := ⟨504, "TMAX_SENS", 0x0040000C, 1, 0x0, 1, 0, 16, 7, .ro, 0⟩
def therm_COOL_FAULT : Fld := ⟨505, "COOL_FAULT", 0x0040000C, 1, 0x0, 1, 0, 24, 1, .ro, 0⟩
def therm_SD_STATE : Fld := ⟨506, "SD_STATE", 0x0040000C, 1, 0x0, 1, 0, 25, 3, .ro, 0⟩
def therm_SD_CAUSE : Fld := ⟨507, "SD_CAUSE", 0x0040000C, 1, 0x0, 1, 0, 28, 4, .ro, 0⟩
def therm_WARN_CL : Fld := ⟨508, "WARN_CL", 0x00400010, 1, 0x0, 1, 0, 0, 32, .ro, 0⟩
def therm_THROT_CL : Fld := ⟨509, "THROT_CL", 0x00400014, 1, 0x0, 1, 0, 0, 32, .ro, 0⟩
def therm_SD_REQ : Fld := ⟨510, "SD_REQ", 0x00400018, 1, 0x0, 1, 0, 0, 1, .wo, 0⟩
def therm_SD_CUT : Fld := ⟨511, "SD_CUT", 0x0040001C, 1, 0x0, 1, 0, 0, 4, .ro, 0⟩
def therm_SENS_FAULT : Fld := ⟨512, "SENS_FAULT", 0x00400020, 1, 0x0, 4, 4, 0, 32, .ro, 0⟩
def therm_WARN_EVENTS : Fld := ⟨513, "WARN_EVENTS", 0x00400030, 1, 0x0, 1, 0, 0, 32, .ro, 0⟩
def therm_THROT_EVENTS : Fld := ⟨514, "THROT_EVENTS", 0x00400034, 1, 0x0, 1, 0, 0, 32, .ro, 0⟩
def therm_THROT_TICKS : Fld := ⟨515, "THROT_TICKS", 0x00400038, 1, 0x0, 1, 0, 0, 32, .ro, 0⟩
def therm_SENS_FAULTS : Fld := ⟨516, "SENS_FAULTS", 0x0040003C, 1, 0x0, 1, 0, 0, 32, .ro, 0⟩
def therm_SENS_T : Fld := ⟨517, "SENS_T", 0x00400100, 1, 0x0, 128, 4, 0, 16, .ro, 0⟩
def therm_FAULTY : Fld := ⟨518, "FAULTY", 0x00400100, 1, 0x0, 128, 4, 16, 1, .ro, 0⟩
def therm_NO_CHECK : Fld := ⟨519, "NO_CHECK", 0x00400100, 1, 0x0, 128, 4, 17, 1, .ro, 0⟩
/-- The fields of this table. -/
def map41 : List Fld :=
  [therm_WARN_C, therm_THROT_C, therm_SHUT_C, therm_CROSS_MARGIN, therm_SD_MODE, therm_ORD_MAX_S,
   therm_COOL_WARN_C, therm_COOL_SHUT_C, therm_PST_SHUT_C, therm_TMAX, therm_TMAX_SENS, therm_COOL_FAULT,
   therm_SD_STATE, therm_SD_CAUSE, therm_WARN_CL, therm_THROT_CL, therm_SD_REQ, therm_SD_CUT,
   therm_SENS_FAULT, therm_WARN_EVENTS, therm_THROT_EVENTS, therm_THROT_TICKS, therm_SENS_FAULTS, therm_SENS_T,
   therm_FAULTY, therm_NO_CHECK]

/-! err: 21 R651. -/

def err_LOG_WR : Fld := ⟨520, "LOG_WR", 0x00500000, 1, 0x0, 1, 0, 0, 16, .ro, 0⟩
def err_LOG_RD : Fld := ⟨521, "LOG_RD", 0x00500004, 1, 0x0, 1, 0, 0, 16, .rw, 0⟩
def err_HAE_WR : Fld := ⟨522, "HAE_WR", 0x00500008, 1, 0x0, 1, 0, 0, 16, .ro, 0⟩
def err_HAE_RD : Fld := ⟨523, "HAE_RD", 0x0050000C, 1, 0x0, 1, 0, 0, 16, .rw, 0⟩
def err_CNT_CORR : Fld := ⟨524, "CNT_CORR", 0x00500010, 1, 0x0, 1, 0, 0, 32, .ro, 0⟩
def err_CNT_DEFER : Fld := ⟨525, "CNT_DEFER", 0x00500014, 1, 0x0, 1, 0, 0, 32, .ro, 0⟩
def err_CNT_PFATAL : Fld := ⟨526, "CNT_PFATAL", 0x00500018, 1, 0x0, 1, 0, 0, 32, .ro, 0⟩
def err_CNT_DFATAL : Fld := ⟨527, "CNT_DFATAL", 0x0050001C, 1, 0x0, 1, 0, 0, 32, .ro, 0⟩
def err_LOST_LOW : Fld := ⟨528, "LOST_LOW", 0x00500020, 1, 0x0, 1, 0, 0, 32, .ro, 0⟩
def err_LOST_FATAL : Fld := ⟨529, "LOST_FATAL", 0x00500024, 1, 0x0, 1, 0, 0, 32, .ro, 0⟩
def err_LOG_SEL : Fld := ⟨530, "LOG_SEL", 0x00500028, 1, 0x0, 1, 0, 0, 16, .rw, 0⟩
def err_HAE_LOST : Fld := ⟨531, "HAE_LOST", 0x0050002C, 1, 0x0, 1, 0, 0, 32, .ro, 0⟩
def err_LOG_DATA : Fld := ⟨532, "LOG_DATA", 0x00500040, 1, 0x0, 16, 4, 0, 32, .ro, 0⟩
def err_FATAL : Fld := ⟨533, "FATAL", 0x00500080, 1, 0x0, 16, 4, 0, 32, .ro, 0⟩
/-- The fields of this table. -/
def map42 : List Fld :=
  [err_LOG_WR, err_LOG_RD, err_HAE_WR, err_HAE_RD, err_CNT_CORR, err_CNT_DEFER,
   err_CNT_PFATAL, err_CNT_DFATAL, err_LOST_LOW, err_LOST_FATAL, err_LOG_SEL, err_HAE_LOST,
   err_LOG_DATA, err_FATAL]

/-! glean: 21 R651. -/

def glean_GL_CORE : Fld := ⟨534, "GL_CORE", 0x00502000, 1, 0x0, 1, 0, 0, 9, .rw, 0⟩
def glean_GL_SUITE : Fld := ⟨535, "GL_SUITE", 0x00502000, 1, 0x0, 1, 0, 16, 8, .rw, 0⟩
def glean_GL_DEADLINE : Fld := ⟨536, "GL_DEADLINE", 0x00502004, 1, 0x0, 1, 0, 0, 16, .rw, 1024⟩
def glean_GL_GO : Fld := ⟨537, "GL_GO", 0x00502008, 1, 0x0, 1, 0, 0, 1, .wo, 0⟩
def glean_GL_STATE : Fld := ⟨538, "GL_STATE", 0x0050200C, 1, 0x0, 1, 0, 0, 2, .ro, 0⟩
def glean_GL_FAIL : Fld := ⟨539, "GL_FAIL", 0x0050200C, 1, 0x0, 1, 0, 8, 8, .ro, 0⟩
def glean_GL_RES : Fld := ⟨540, "GL_RES", 0x0050200C, 1, 0x0, 1, 0, 16, 3, .ro, 0⟩
def glean_GL_DETAIL : Fld := ⟨541, "GL_DETAIL", 0x00502010, 1, 0x0, 1, 0, 0, 32, .ro, 0⟩
/-- The fields of this table. -/
def map43 : List Fld :=
  [glean_GL_CORE, glean_GL_SUITE, glean_GL_DEADLINE, glean_GL_GO, glean_GL_STATE, glean_GL_FAIL,
   glean_GL_RES, glean_GL_DETAIL]

/-! ptest: 21 R651. -/

def ptest_BUDGET : Fld := ⟨542, "BUDGET", 0x00501000, 64, 0x20, 1, 0, 0, 3, .ro, 0⟩
def ptest_MAINT_EVERY : Fld := ⟨543, "MAINT_EVERY", 0x00501000, 64, 0x20, 1, 0, 16, 11, .ro, 0⟩
def ptest_AUDITS : Fld := ⟨544, "AUDITS", 0x00501004, 64, 0x20, 1, 0, 0, 32, .ro, 0⟩
def ptest_AUDIT_FAILS : Fld := ⟨545, "AUDIT_FAILS", 0x00501008, 64, 0x20, 1, 0, 0, 32, .ro, 0⟩
def ptest_MAINT_FRAMES : Fld := ⟨546, "MAINT_FRAMES", 0x0050100C, 64, 0x20, 1, 0, 0, 32, .ro, 0⟩
def ptest_GLEANS : Fld := ⟨547, "GLEANS", 0x00501010, 64, 0x20, 1, 0, 0, 32, .ro, 0⟩
/-- The fields of this table. -/
def map44 : List Fld :=
  [ptest_BUDGET, ptest_MAINT_EVERY, ptest_AUDITS, ptest_AUDIT_FAILS, ptest_MAINT_FRAMES, ptest_GLEANS]

/-! aud: 21 R652. -/

def aud_AUD_PASS : Fld := ⟨548, "AUD_PASS", 0x01007700, 512, 0x8000, 1, 0, 0, 32, .ro, 0⟩
def aud_AUD_FAIL : Fld := ⟨549, "AUD_FAIL", 0x01007704, 512, 0x8000, 1, 0, 0, 32, .ro, 0⟩
def aud_AUD_SKIP : Fld := ⟨550, "AUD_SKIP", 0x01007708, 512, 0x8000, 1, 0, 0, 32, .ro, 0⟩
def aud_AUD_WORST : Fld := ⟨551, "AUD_WORST", 0x0100770C, 512, 0x8000, 1, 0, 0, 16, .ro, 0⟩
def aud_SUSPECT : Fld := ⟨552, "SUSPECT", 0x0100770C, 512, 0x8000, 1, 0, 31, 1, .w1c, 0⟩
/-- The fields of this table. -/
def map45 : List Fld :=
  [aud_AUD_PASS, aud_AUD_FAIL, aud_AUD_SKIP, aud_AUD_WORST, aud_SUSPECT]

/-! trail: 22 R671. -/

def trail_TR_EN : Fld := ⟨553, "TR_EN", 0x00600000, 64, 0x40, 1, 0, 0, 1, .rw, 0⟩
def trail_TR_DETAIL : Fld := ⟨554, "TR_DETAIL", 0x00600000, 64, 0x40, 1, 0, 1, 1, .rw, 0⟩
def trail_TR_FULL : Fld := ⟨555, "TR_FULL", 0x00600000, 64, 0x40, 1, 0, 2, 1, .rw, 0⟩
def trail_HM_EN : Fld := ⟨556, "HM_EN", 0x00600000, 64, 0x40, 1, 0, 3, 1, .rw, 0⟩
def trail_TR_SIZE_LOG2 : Fld := ⟨557, "TR_SIZE_LOG2", 0x00600000, 64, 0x40, 1, 0, 16, 5, .rw, 12⟩
def trail_TR_BASE_LO : Fld := ⟨558, "TR_BASE_LO", 0x00600004, 64, 0x40, 1, 0, 0, 32, .rw, 0⟩
def trail_TR_BASE_HI : Fld := ⟨559, "TR_BASE_HI", 0x00600008, 64, 0x40, 1, 0, 0, 4, .rw, 0⟩
def trail_TR_WR : Fld := ⟨560, "TR_WR", 0x0060000C, 64, 0x40, 1, 0, 0, 26, .ro, 0⟩
def trail_TR_RD : Fld := ⟨561, "TR_RD", 0x00600010, 64, 0x40, 1, 0, 0, 26, .rw, 0⟩
def trail_TR_LOST : Fld := ⟨562, "TR_LOST", 0x00600014, 64, 0x40, 1, 0, 0, 32, .ro, 0⟩
def trail_TR_HOLD : Fld := ⟨563, "TR_HOLD", 0x00600018, 64, 0x40, 1, 0, 0, 32, .ro, 0⟩
def trail_HM_BASE_LO : Fld := ⟨564, "HM_BASE_LO", 0x0060001C, 64, 0x40, 1, 0, 0, 32, .rw, 0⟩
def trail_HM_BASE_HI : Fld := ⟨565, "HM_BASE_HI", 0x00600020, 64, 0x40, 1, 0, 0, 32, .rw, 0⟩
def trail_HM_TAILPTR_LO : Fld := ⟨566, "HM_TAILPTR_LO", 0x00600024, 64, 0x40, 1, 0, 0, 32, .rw, 0⟩
def trail_HM_TAILPTR_HI : Fld := ⟨567, "HM_TAILPTR_HI", 0x00600028, 64, 0x40, 1, 0, 0, 32, .rw, 0⟩
def trail_TR_RSEQ : Fld := ⟨568, "TR_RSEQ", 0x0060002C, 64, 0x40, 1, 0, 0, 32, .ro, 0⟩
/-- The fields of this table. -/
def map46 : List Fld :=
  [trail_TR_EN, trail_TR_DETAIL, trail_TR_FULL, trail_HM_EN, trail_TR_SIZE_LOG2, trail_TR_BASE_LO,
   trail_TR_BASE_HI, trail_TR_WR, trail_TR_RD, trail_TR_LOST, trail_TR_HOLD, trail_HM_BASE_LO,
   trail_HM_BASE_HI, trail_HM_TAILPTR_LO, trail_HM_TAILPTR_HI, trail_TR_RSEQ]

/-! rp: 22 R671. -/

def rp_RP_EN : Fld := ⟨569, "RP_EN", 0x00601000, 64, 0x40, 1, 0, 0, 1, .rw, 0⟩
def rp_RP_FORCE_ALL : Fld := ⟨570, "RP_FORCE_ALL", 0x00601000, 64, 0x40, 1, 0, 1, 1, .rw, 0⟩
def rp_RP_SRC_LO : Fld := ⟨571, "RP_SRC_LO", 0x00601004, 64, 0x40, 1, 0, 0, 32, .rw, 0⟩
def rp_RP_SRC_HI : Fld := ⟨572, "RP_SRC_HI", 0x00601008, 64, 0x40, 1, 0, 0, 4, .rw, 0⟩
def rp_RP_SRC_UNITS : Fld := ⟨573, "RP_SRC_UNITS", 0x0060100C, 64, 0x40, 1, 0, 0, 26, .rw, 0⟩
def rp_RP_FORCE_LO : Fld := ⟨574, "RP_FORCE_LO", 0x00601010, 64, 0x40, 1, 0, 0, 32, .rw, 0⟩
def rp_RP_FORCE_HI : Fld := ⟨575, "RP_FORCE_HI", 0x00601014, 64, 0x40, 1, 0, 0, 4, .rw, 0⟩
def rp_RP_NFORCE : Fld := ⟨576, "RP_NFORCE", 0x00601018, 64, 0x40, 1, 0, 0, 20, .rw, 0⟩
def rp_RP_CAL_LO : Fld := ⟨577, "RP_CAL_LO", 0x0060101C, 64, 0x40, 1, 0, 0, 32, .rw, 0⟩
def rp_RP_CAL_HI : Fld := ⟨578, "RP_CAL_HI", 0x00601020, 64, 0x40, 1, 0, 0, 4, .rw, 0⟩
def rp_RP_NCAL : Fld := ⟨579, "RP_NCAL", 0x00601024, 64, 0x40, 1, 0, 0, 16, .rw, 0⟩
def rp_RP_STATE : Fld := ⟨580, "RP_STATE", 0x00601028, 64, 0x40, 1, 0, 0, 3, .ro, 0⟩
def rp_RP_CODE : Fld := ⟨581, "RP_CODE", 0x00601028, 64, 0x40, 1, 0, 8, 8, .ro, 0⟩
def rp_GEN_DIFF : Fld := ⟨582, "GEN_DIFF", 0x00601028, 64, 0x40, 1, 0, 16, 1, .ro, 0⟩
def rp_RP_FRAMES : Fld := ⟨583, "RP_FRAMES", 0x0060102C, 64, 0x40, 1, 0, 0, 32, .ro, 0⟩
def rp_RP_LAST : Fld := ⟨584, "RP_LAST", 0x00601030, 64, 0x40, 1, 0, 0, 32, .rw, 0⟩
/-- The fields of this table. -/
def map47 : List Fld :=
  [rp_RP_EN, rp_RP_FORCE_ALL, rp_RP_SRC_LO, rp_RP_SRC_HI, rp_RP_SRC_UNITS, rp_RP_FORCE_LO,
   rp_RP_FORCE_HI, rp_RP_NFORCE, rp_RP_CAL_LO, rp_RP_CAL_HI, rp_RP_NCAL, rp_RP_STATE,
   rp_RP_CODE, rp_GEN_DIFF, rp_RP_FRAMES, rp_RP_LAST]

/-! snap: 22 R671. -/

def snap_SNAP_AT_LO : Fld := ⟨585, "SNAP_AT_LO", 0x00602000, 1, 0x0, 1, 0, 0, 32, .rw, 0⟩
def snap_SNAP_AT_HI : Fld := ⟨586, "SNAP_AT_HI", 0x00602004, 1, 0x0, 1, 0, 0, 16, .rw, 0⟩
def snap_SNAP_NUM : Fld := ⟨587, "SNAP_NUM", 0x00602008, 1, 0x0, 1, 0, 0, 16, .rw, 0⟩
def snap_SNAP_SCOPE : Fld := ⟨588, "SNAP_SCOPE", 0x00602008, 1, 0x0, 1, 0, 16, 1, .rw, 0⟩
def snap_SNAP_ARM : Fld := ⟨589, "SNAP_ARM", 0x0060200C, 1, 0x0, 1, 0, 0, 1, .wo, 0⟩
def snap_SNAP_RES : Fld := ⟨590, "SNAP_RES", 0x00602010, 1, 0x0, 1, 0, 0, 3, .ro, 0⟩
def snap_PENDING : Fld := ⟨591, "PENDING", 0x00602010, 1, 0x0, 1, 0, 4, 3, .ro, 0⟩
def snap_SNAP_SEQ : Fld := ⟨592, "SNAP_SEQ", 0x00602014, 1, 0x0, 1, 0, 0, 32, .ro, 0⟩
def snap_SNAP_TICK_LO : Fld := ⟨593, "SNAP_TICK_LO", 0x00602018, 1, 0x0, 1, 0, 0, 32, .ro, 0⟩
def snap_SNAP_TICK_HI : Fld := ⟨594, "SNAP_TICK_HI", 0x0060201C, 1, 0x0, 1, 0, 0, 16, .ro, 0⟩
def snap_SNAP_LAST_NUM : Fld := ⟨595, "SNAP_LAST_NUM", 0x00602020, 1, 0x0, 1, 0, 0, 16, .ro, 0⟩
def snap_SNAP_VIEW : Fld := ⟨596, "SNAP_VIEW", 0x00602024, 1, 0x0, 1, 0, 0, 1, .rw, 0⟩
/-- The fields of this table. -/
def map48 : List Fld :=
  [snap_SNAP_AT_LO, snap_SNAP_AT_HI, snap_SNAP_NUM, snap_SNAP_SCOPE, snap_SNAP_ARM, snap_SNAP_RES,
   snap_PENDING, snap_SNAP_SEQ, snap_SNAP_TICK_LO, snap_SNAP_TICK_HI, snap_SNAP_LAST_NUM, snap_SNAP_VIEW]

/-! tab: 10 R340. -/

def tab_CIRC : Fld := ⟨597, "CIRC", 0x00208000, 256, 0x40, 16, 4, 0, 32, .rw, 0⟩
def tab_TGT : Fld := ⟨598, "TGT", 0x00210000, 256, 0x80, 32, 4, 0, 32, .rw, 0⟩
/-- The fields of this table. -/
def map49 : List Fld :=
  [tab_CIRC, tab_TGT]

/-! tab: 17 R532. -/

def tab_MAIN : Fld := ⟨599, "MAIN", 0x00218000, 64, 0x80, 32, 4, 0, 32, .rw, 0⟩
/-- The fields of this table. -/
def map50 : List Fld :=
  [tab_MAIN]

/-! tab: 17 R534. -/

def tab_EXT : Fld := ⟨600, "EXT", 0x00220000, 64, 0x200, 128, 4, 0, 32, .rw, 0⟩
/-- The fields of this table. -/
def map51 : List Fld :=
  [tab_EXT]

/-! live: R57, R81, R439, R528, R571, R598, R670. -/

def live_NUM_HI : Fld := ⟨601, "NUM_HI", 0x04000000, 1, 0x4, 1, 0, 0, 16, .ro, 0⟩
def live_PUB_HI : Fld := ⟨602, "PUB_HI", 0x04001000, 64, 0x4, 1, 0, 0, 16, .ro, 0⟩
def live_EN_TICK_HI : Fld := ⟨603, "EN_TICK_HI", 0x04002000, 64, 0x4, 1, 0, 0, 16, .ro, 0⟩
def live_SNAP_TICK_HI : Fld := ⟨604, "SNAP_TICK_HI", 0x04003000, 1, 0x4, 1, 0, 0, 16, .ro, 0⟩
def live_HANDOFF_TICK_HI : Fld := ⟨605, "HANDOFF_TICK_HI", 0x04004000, 1, 0x4, 1, 0, 0, 16, .ro, 0⟩
def live_UE_ADDR_HI : Fld := ⟨606, "UE_ADDR_HI", 0x04005000, 24, 0x4, 1, 0, 0, 4, .ro, 0⟩
def live_G_MIN : Fld := ⟨607, "G_MIN", 0x04006000, 64, 0x4, 1, 0, 0, 16, .ro, 0⟩
def live_G_MAX : Fld := ⟨608, "G_MAX", 0x04007000, 64, 0x4, 1, 0, 0, 16, .ro, 0⟩
def live_G_TICK : Fld := ⟨609, "G_TICK", 0x04008000, 64, 0x4, 1, 0, 0, 32, .ro, 0⟩
def live_G_CYC : Fld := ⟨610, "G_CYC", 0x04009000, 64, 0x4, 1, 0, 0, 17, .ro, 0⟩
def live_V_HCMD : Fld := ⟨611, "V_HCMD", 0x0400A000, 65, 0x10, 4, 4, 0, 32, .ro, 0⟩
def live_V_HRES : Fld := ⟨612, "V_HRES", 0x0400B000, 65, 0x4, 1, 0, 0, 2, .ro, 0⟩
def live_V_HRES_CODE : Fld := ⟨613, "V_HRES_CODE", 0x0400B000, 65, 0x4, 1, 0, 8, 8, .ro, 0⟩
/-- The fields of this table. -/
def map52 : List Fld :=
  [live_NUM_HI, live_PUB_HI, live_EN_TICK_HI, live_SNAP_TICK_HI, live_HANDOFF_TICK_HI, live_UE_ADDR_HI,
   live_G_MIN, live_G_MAX, live_G_TICK, live_G_CYC, live_V_HCMD, live_V_HRES, live_V_HRES_CODE]

end R

/-- Every register field of the device, in the order of the manual. -/
def regMap : List Fld :=
  R.map0 ++ R.map1 ++ R.map2 ++ R.map3 ++ R.map4 ++ R.map5 ++ R.map6 ++ R.map7 ++
  R.map8 ++ R.map9 ++ R.map10 ++ R.map11 ++ R.map12 ++ R.map13 ++ R.map14 ++ R.map15 ++
  R.map16 ++ R.map17 ++ R.map18 ++ R.map19 ++ R.map20 ++ R.map21 ++ R.map22 ++ R.map23 ++
  R.map24 ++ R.map25 ++ R.map26 ++ R.map27 ++ R.map28 ++ R.map29 ++ R.map30 ++ R.map31 ++
  R.map32 ++ R.map33 ++ R.map34 ++ R.map35 ++ R.map36 ++ R.map37 ++ R.map38 ++ R.map39 ++
  R.map40 ++ R.map41 ++ R.map42 ++ R.map43 ++ R.map44 ++ R.map45 ++ R.map46 ++ R.map47 ++
  R.map48 ++ R.map49 ++ R.map50 ++ R.map51 ++ R.map52

end Sys2Proof.Machine
end

