-- ==== Sys2Proof/Machine/Table.lean ====
section
/-! DEFINITION. Sparse tables and memories: lists of (key, value) pairs with strictly rising keys, in which no entry
equals what an unlisted key reads as, so that equal contents are equal data. -/

namespace Sys2Proof.Machine

/-- A sparse table keyed by numbers. -/
abbrev Tbl (α : Type) := List (Nat × α)

/-- The entry listed under a key, if any. -/
def Tbl.find {α : Type} : Tbl α → Nat → Option α
  | [], _ => none
  | (a, v) :: r, k => if a = k then some v else Tbl.find r k

/-- The value under a key, `d` where the key is unlisted. -/
def Tbl.get {α : Type} (d : α) (t : Tbl α) (k : Nat) : α := (t.find k).getD d

/-- Lists a value under a key, in key order. -/
def Tbl.put {α : Type} : Tbl α → Nat → α → Tbl α
  | [], k, v => [(k, v)]
  | (a, w) :: r, k, v =>
    if k < a then (k, v) :: (a, w) :: r else if k = a then (k, v) :: r else (a, w) :: Tbl.put r k v

/-- Removes a key. -/
def Tbl.del {α : Type} : Tbl α → Nat → Tbl α
  | [], _ => []
  | (a, w) :: r, k => if a = k then Tbl.del r k else (a, w) :: Tbl.del r k

/-- Sets the value under a key; the default value is not listed. -/
def Tbl.set {α : Type} [DecidableEq α] (d : α) (t : Tbl α) (k : Nat) (v : α) : Tbl α :=
  if v = d then t.del k else t.put k v

/-- Applies a function to the value under a key. -/
def Tbl.upd {α : Type} [DecidableEq α] (d : α) (t : Tbl α) (k : Nat) (f : α → α) : Tbl α :=
  t.set d k (f (t.get d k))

/-- The keys rise strictly. -/
abbrev Tbl.sorted {α : Type} (t : Tbl α) : Prop := t.Pairwise (fun a b => a.1 < b.1)

/-- The canonical form: rising keys and no default entry. -/
abbrev Tbl.wf {α : Type} (d : α) (t : Tbl α) : Prop := t.sorted ∧ ∀ e ∈ t, e.2 ≠ d

/-- Removes every key of a range, which then reads as the default. -/
def Tbl.clearRange {α : Type} (t : Tbl α) (lo n : Nat) : Tbl α :=
  t.filter (fun e => !(decide (lo ≤ e.1) && decide (e.1 < lo + n)))

/-- A byte memory: the cells that are not zero. An unlisted byte reads 0 (DESIGN CHOICE, log entry 2). -/
abbrev Mem := List Host.Cell

/-- The canonical form of a memory. -/
abbrev Mem.wf (m : Mem) : Prop := Tbl.wf (0 : Byte) m

/-- One byte. -/
def Mem.rd (m : Mem) (a : Nat) : Byte := Tbl.get (0 : Byte) m a

/-- Writes one byte. -/
def Mem.wr (m : Mem) (a : Nat) (b : Byte) : Mem := Tbl.set (0 : Byte) m a b

/-- `n` bytes from an address, lowest first (R18). -/
def Mem.bytes (m : Mem) (a : Nat) : Nat → List Byte
  | 0 => []
  | n + 1 => m.rd a :: Mem.bytes m (a + 1) n

/-- The cells of a run of bytes: those that are not zero. -/
def Mem.cells (a : Nat) : List Byte → Mem
  | [] => []
  | b :: r => if b = 0 then Mem.cells (a + 1) r else (a, b) :: Mem.cells (a + 1) r

/-- Writes bytes from an address upward. -/
def Mem.write (m : Mem) (a : Nat) (bs : List Byte) : Mem :=
  m.filter (fun e => decide (e.1 < a)) ++ (Mem.cells a bs ++ m.filter (fun e => decide (a + bs.length ≤ e.1)))

/-- The little-endian number in `n` bytes (R18). -/
def Mem.le (m : Mem) (a n : Nat) : Nat := leNat (m.bytes a n)

/-- Writes a number as `n` little-endian bytes (R18). -/
def Mem.putLe (m : Mem) (a n v : Nat) : Mem := m.write a (toLe n v)

/-- Zeroes a range of bytes. -/
def Mem.zero (m : Mem) (a n : Nat) : Mem := Tbl.clearRange m a n

/-- A set of numbers: the marked keys of a sparse table. -/
abbrev Marks := Tbl Bool

/-- Is the key marked? -/
def Marks.has (m : Marks) (k : Nat) : Bool := Tbl.get false m k

/-- Marks or unmarks a key. -/
def Marks.put (m : Marks) (k : Nat) (b : Bool) : Marks := Tbl.set false m k b

/-- Unmarks a range. -/
def Marks.clear (m : Marks) (lo n : Nat) : Marks := Tbl.clearRange m lo n

/-- Bytes laid out from (offset, byte count, value) rows into a record of `n` zero bytes (R18). -/
def layout (n : Nat) (rows : List (Nat × Nat × Nat)) : List Byte :=
  (rows.foldl (fun m r => Mem.putLe m r.1 r.2.1 r.2.2) ([] : Mem)).bytes 0 n

end Sys2Proof.Machine
end

