-- ==== Sys2Proof/Machine/Parts/Log.lean ====
section
/-! DEFINITION. The data that the error logger, the host interface and the Sillage trail hold (chapters 16, 21, 22). -/

namespace Sys2Proof.Machine

/-- An error record as the logger gathers it; SEQ and CHECK are formed when it is written (R629). -/
structure ErrRec where
  cls : Byte
  src : Byte
  code : Byte
  part : Byte
  station : BitVec 16
  tick : BitVec 48
  frame : Word
  req : BitVec 16
  item : BitVec 16
  addr : BitVec 64
  count : Word
  detail : List Byte
  deriving DecidableEq, Repr

/-- A host access error record as gathered (R526). -/
structure HaeRec where
  kind : Byte
  func : Byte
  bar : Byte
  access : Byte
  offset : BitVec 64
  data : Word
  tick : BitVec 48
  deriving DecidableEq, Repr

/-- A Sillage record before its header is filled in: its type, its length in 64-byte units, the frame it concerns and
its body as (byte offset, byte count, value) rows (R654). -/
structure TrailRec where
  type : Byte
  units : Nat
  frame : Word
  body : List (Nat × Nat × Nat)
  deriving DecidableEq, Repr

/-- A write that the device sends to the host on behalf of a function: bytes at a bus address, or an MSI-X message
(R516, R521). -/
inductive HostWrite where
  | bytes (fn : Nat) (addr : Nat) (data : List Byte)
  | msi (fn : Nat) (vector : Nat)
  deriving DecidableEq, Repr

/-- A queued host copy: the channel registers as they stood at HC_GO (R519). -/
structure HostCopy where
  host : Nat
  gran : Nat
  len : Nat
  toHost : Bool
  deriving DecidableEq, Repr

/-- The logger: records gathered in the tick in progress and in the tick before it, and the next SEQ (R629). -/
structure LogSt where
  cur : List ErrRec := []
  prev : List ErrRec := []
  haeCur : List HaeRec := []
  haePrev : List HaeRec := []
  seq : Word := 0
  deriving DecidableEq, Repr

/-- The host interface: the held writes, the MSI-X mask and pending bits, the messages sent, the link, the memory decode of
the PF and the IDE state of each function (R519 to R525). -/
structure HostSt where
  linkUp : Bool := false
  held : List HostWrite := []
  masked : Marks := []
  msixPending : Marks := []
  sent : List (Nat × Nat) := []
  /-- what the block answered to the last host read: its bytes, the poisoned-data bit, and whether it was an unsupported request -/
  answer : List Byte := []
  answerBad : Bool := false
  answerUr : Bool := false
  ideReq : Bool := false
  linkSecure : Bool := false
  fnSecure : Marks := []
  fnInsecure : Marks := []
  msixTab : Mem := []
  /-- the write-out vectors sent at the present edge: function and vector (R516) -/
  edgeVec : List (Nat × Nat) := []
  deriving DecidableEq, Repr

end Sys2Proof.Machine
end

