-- ==== Sys2Proof/Machine/Parts/Base.lean ====
section
/-! DEFINITION. The data of the tick unit, the memories, the power entry, the governor and the partitions
(chapters 2, 11, 16, 17, 20, 22). A field's default is its value at reset. -/

namespace Sys2Proof.Machine

/-- A visit of a table converter: its entry, the entry's words as the visit began with them (R582), and whether the converter was powered down
then (R588). -/
structure Visit where
  entry : Nat
  lo : Nat
  hi : Nat
  cold : Bool
  deriving DecidableEq, Repr

/-- A flash write in progress: its kind (0 calibration slot, 1 summary copy, 2 cause record, 3 configuration copy, 4 entry of the HBM repair list), offset and bytes. -/
structure FlashOp where
  kind : Nat
  off : Nat
  data : List Byte
  deriving DecidableEq, Repr

/-- The memories: every core's Loft (byte `core * 2^23 + address`), the Granary (byte `granule * 64 + offset` of the device),
host memory behind the PCI Express link, the flash and the management SRAM's load windows; the poison marks by granule; and
the ECC errors that the cells of a memory carry and no read has met yet (1 single-bit, 2 double-bit; per 16-byte quarter
in a Loft, per granule in the Granary). -/
structure MemSt where
  /-- granules read (even keys) and written (odd keys) that a stack's counter of 1,024s does not show yet -/
  granLeft : Tbl Nat := []
  /-- the next granule of each stack's scrub (R428), counted within the stack -/
  scrubAt : Tbl Nat := []
  /-- stacks whose last temperature read-out failed (R433) -/
  tempFail : Marks := []
  /-- the flash write in progress (R548) -/
  flashOp : Option FlashOp := none
  /-- a flash section whose image granule was found poisoned: no more write-back until device reset (R633) -/
  flashStop : Marks := []
  loft : Mem := []
  granary : Mem := []
  host : Mem := []
  flash : Mem := []
  loadWin : Mem := []
  cfgStage : Mem := []
  loftPoison : Marks := []
  /-- blocks stored with entry_clamp set, by the Loft byte of their exponent (R132) -/
  loftClamp : Marks := []
  granPoison : Marks := []
  loftErr : Tbl Nat := []
  granErr : Tbl Nat := []
  deriving DecidableEq, Repr

/-- The tick unit's own state (R58 to R65, R82, R83). -/
structure TickSt where
  /-- an accepted period change: its log2 period and its tick -/
  change : Option (Nat × Nat) := none
  /-- ports that have delivered a mark for the coming edge -/
  seen : Marks := []
  /-- per port, elapsed delay plus path delay of its last mark (R62), and those of the most recent edge at which marks arrived on every
  candidate port -/
  sums : Tbl Nat := []
  sumsAll : Tbl Nat := []
  /-- the block mark and the FIELD mark of the tick in progress have left (R61, R498) -/
  marked : Bool := false
  fieldMarked : Bool := false
  /-- consecutive edges without a mark from the upstream port -/
  missUp : Nat := 0
  /-- consecutive edges without a mark from any port -/
  missAll : Nat := 0
  /-- ticks of holdover so far (R83) -/
  holdTicks : Nat := 0
  /-- the count that consecutive unexpected marks agree on, less the local count, and how many agree -/
  agreeDiff : Int := 0
  agreeN : Nat := 0
  /-- period changes so far, the latest first: the tick and the log2 period in force before it (R372) -/
  history : List (Nat × Nat) := []
  deriving DecidableEq, Repr

/-- Who asks for a grant (R604): a partition, or the program cap. -/
inductive Holder where
  | part (p : Nat)
  | cap
  deriving DecidableEq, Repr

/-- A grant request that waits, or a grant held: watts in 1/1000 W, the core and a number that names the product or pass. -/
structure Grant where
  holder : Holder
  core : Nat
  id : Nat
  mw : Nat
  deriving DecidableEq, Repr

/-- The power entry, the governor's bookkeeping and the stops (chapters 20, 23). Powers of the governor are kept in 1/1000 W. -/
structure PowerSt where
  input : Bool := true
  /-- the bulk bank has reached 46 V and the power stages run -/
  stages : Bool := true
  vbulk : Nat := 5400
  diodeOff : Bool := false
  /-- latched stop (R620) -/
  latched : Bool := false
  /-- device-fatal stop (R635) -/
  fatal : Bool := false
  /-- an orderly stop in progress: detection tick S, detection second, phase, what has been done -/
  orderly : Bool := false
  ordTick : Nat := 0
  ordSince : Nat := 0
  ordDone : Nat := 0
  /-- how far an orderly stop has come: 0 stopping partitions, 1 first cause record, 2 calibration, 3 summary, 4 last cause record; and
  whether a partition had to be reset -/
  ordStep : Nat := 0
  ordForced : Bool := false
  /-- a latched stop has begun and the device has not stopped yet (R620) -/
  latching : Bool := false
  /-- causes found by a converter or sensor that the stop logic has not taken yet: code, value, source (R619) -/
  causes : List (Nat × Nat × Nat) := []
  /-- what stood at the detection of an orderly stop (R624): value, source, TMAX, HBM_MAX, COOL, VIN -/
  sdAt : List Nat := []
  /-- sensors whose last conversion failed (R613) -/
  convFail : Marks := []
  /-- the last coolant inlet result -/
  coolVal : Nat := 0
  waiting : List Grant := []
  held : List Grant := []
  /-- level, peak of the present tick, share and step of each partition, and of the cap under key 64, in 1/1000 W -/
  level : Tbl Nat := []
  peak : Tbl Nat := []
  lastPeak : Tbl Nat := []
  /-- CEIL_EFF in 10 mW, and GCEIL in 1/1075 mW (R603) -/
  ceilEff : Nat := 0
  gceil : Nat := 0
  share : Tbl Nat := []
  step : Tbl Nat := []
  /-- writes to RW fields that take effect at the next tick edge (R610, R626): field number, instance, value -/
  wr : List (Nat × Nat × Nat) := []
  /-- last VIN result in 10 mV, samples of the average in progress, averages of the tick -/
  vin : Nat := 5400
  samples : List Nat := []
  tickSum : Nat := 0
  tickN : Nat := 0
  tickPeak : Nat := 0
  irevTimes : List Nat := []
  cntVinOv : Nat := 0
  cntVinUv : Nat := 0
  cntIin : Nat := 0
  cntIinOvr : Nat := 0
  cntRail : Tbl Nat := []
  /-- consecutive disagreements of each sensor (R613) -/
  disagree : Tbl Nat := []
  coolWarn : Bool := false
  /-- per table converter (0 G2, 1 G3), one more than the entry it visited last -/
  gaugeAt : Tbl Nat := []
  /-- per table converter, the visit in progress (R582, R583) -/
  visits : Tbl Visit := []
  /-- per external channel, one more than the VALUE of its last visit with a pull-up current, and with a pull-down current (R593) -/
  owUp : Tbl Nat := []
  owDown : Tbl Nat := []
  /-- place in the SDC_N frame, in milliseconds; the pin is pulled low -/
  sdcPhase : Nat := 0
  sdcOn : Bool := false
  sdcLow : Bool := false
  deriving DecidableEq, Repr

/-- A submission entry taken (R511): its ring and index, its bytes and its outcome 0 admitted, 1 NOT_RESIDENT, 2 refused
(with the failed rule in `rule`). -/
structure Entry where
  ring : Nat
  index : Nat
  bytes : List Byte
  outcome : Nat
  rule : Nat
  deriving DecidableEq, Repr

/-- A commit decided for a request and waiting for its publication (R405 to R408, COMMIT record of R657). -/
structure Commit where
  req : Nat
  mode : Nat
  k : Nat
  a : Nat
  nextK : Nat
  /-- END, END_STOP and END_LIMIT in bits 0 to 2 -/
  flags : Nat
  forced : Nat
  toks : List Nat
  mains : List Nat
  drafts : List Nat
  len : Nat
  newLen : Nat
  pend : Nat
  failed : Bool
  full : Bool
  /-- the controller's state after the commit: KCUR, WIN_N, WIN_K, WIN_A, OFF_TOK, OFF -/
  dc : List Nat
  deriving DecidableEq, Repr

/-- A request that consumed poison in the frame (R632), with the error that its record names. -/
structure FailInfo where
  req : Nat
  src : Nat
  code : Nat
  station : Nat
  addr : Nat
  deriving DecidableEq, Repr

/-- The frame in progress of a partition (R70 to R79, R657). -/
structure FrameSt where
  seq : Word := 0
  admitTick : Nat := 0
  entries : List Entry := []
  complete : Bool := false
  dones : List Nat := []
  pubAt : Option Nat := none
  maint : Bool := false
  audit : Bool := false
  calSlot : Bool := false
  flip : Bool := false
  clip : Bool := false
  slipOvr : Nat := 0
  slipFb : Nat := 0
  slipGov : Nat := 0
  failed : List FailInfo := []
  clipped : List Nat := []
  /-- requests that the frame serves (R360) -/
  served : List Nat := []
  commits : List Commit := []
  /-- acknowledgements of commit notes still awaited (R411) -/
  notes : Nat := 0
  /-- the count-table entries that the frame's commits have changed, the latest first: request, byte of the linear space, entry before (R530) -/
  undo : List (Nat × Nat × Nat) := []
  /-- the slip of the present tick has been counted: the tick of the last cut that the frame missed, plus 1 -/
  cutTick : Nat := 0
  coreInfo : List (Nat × Nat × Nat) := []
  deriving DecidableEq, Repr

/-- What a partition holds beside its registers (chapters 2, 16, 17, 22). -/
structure PartSt where
  tails : List Nat := [0, 0, 0, 0]
  cqHead : List Nat := [0, 0]
  cq0Reserved : Nat := 0
  frame : Option FrameSt := none
  /-- entries taken by the lead of a spanning partition for the coming edge (R514) -/
  taken : List Entry := []
  /-- policy value pending until the publication edge (R163) -/
  policyNext : Option Nat := none
  disableReq : Bool := false
  resetDue : Option Nat := none
  /-- zeroing of extents done and the flips queued (R537); the flips that the check found to be needed: core, set, version -/
  zeroDone : Bool := false
  flips : List (Nat × Nat × Nat) := []
  /-- the distinct (core, WSID) pairs of the manifest (R658) -/
  manifest : List (Nat × Nat) := []
  goNote : Option Bool := none
  members : List (Nat × Nat) := []
  scrubbing : Bool := false
  copies : List HostCopy := []
  trailOn : Bool := false
  events : List TrailRec := []
  draws : List TrailRec := []
  commitRecs : List TrailRec := []
  lostNow : Nat := 0
  /-- the trail unit from which the mirror has still to be copied (R662) -/
  mirrored : Nat := 0
  /-- commit notes of a sampling module, applied at the next publication: request, END flags, LEN, PASSES (R411) -/
  notesIn : List (Nat × Nat × Nat × Nat) := []
  wsGen : Nat := 0
  /-- FRAME_SEQ of the last frame admitted, of the last audit frame and of the last maintenance frame (R571) -/
  frames : Nat := 0
  sinceAudit : Nat := 0
  sinceMaint : Nat := 0
  /-- replay: the unit of the source read next, the RSEQ expected next, frames replayed -/
  rpOn : Bool := false
  rpUnit : Nat := 0
  rpSeq : Nat := 0
  /-- the maintenance frame named by the lead (R648) -/
  maintAt : Option Nat := none
  /-- the ports of the program record with the RWIN and LCIRC entries used, one bit each (R535), as read at enable -/
  ports : List (Nat × Nat × Nat) := []
  /-- a lead has sent its go or refusal (R540) -/
  goSent : Bool := false
  /-- the CSET messages of the check are out, and how long it waits for their answers is the world's (R482) -/
  csetSent : Bool := false
  /-- tier events waiting for CQ1 -/
  tierEvents : List (List Byte) := []
  deriving DecidableEq, Repr

/-- The management complex beside its registers (chapters 17 and 18). -/
structure MgmtSt where
  /-- reset release has come (R558, R679) -/
  released : Bool := false
  /-- the straps as sampled (R491) -/
  straps : Nat := 0
  /-- partitions whose Accord check is queued or runs, in order (R536) -/
  checkq : List Nat := []
  /-- the first 576 bytes of the header of the running and of the staged image; empty where there is none -/
  runHead : List Byte := []
  stageHead : List Byte := []
  /-- the digest D of the configuration copy in force (R555, R574) -/
  cfgDigest : List Byte := []
  /-- FW_SWAP waits for the next edge (R569) -/
  swapReq : Bool := false
  /-- a hand-off's progress: 0 none, 1 record written, 2 restarted in the new half, 3 restarted in the old half -/
  handPhase : Nat := 0
  /-- SEQ and tick of the last calibration write-back, SEQ and tick of the last summary write (R571) -/
  wbSeq : Nat := 0
  wbTick : Nat := 0
  sumSeq : Nat := 0
  sumTick : Nat := 0
  /-- the start-up configuration's CAL_WB_MIN in minutes, and the second of the last write-back (R262) -/
  wbMin : Nat := 0
  wbTime : Nat := 0
  /-- CFG_FLOOR positions that R556 has blown -/
  blown : Nat := 0
  /-- BURN of the configuration copy in force (R556) -/
  burn : Bool := false
  /-- a verified configuration block waits for the flash write in progress (R557) -/
  cfgWait : Bool := false
  /-- the calibration write-back that a swap or a stop has asked for still waits for the flash (R569, R621) -/
  wbDue : Bool := false
  /-- an epoch has advanced after CAL_WB_MIN minutes had passed since the last write-back (R262) -/
  wbAdvance : Bool := false
  /-- the uncorrectable errors found in each HBM row, under the row's fields of the repair list (R551) -/
  rowErrs : Tbl Nat := []
  /-- rows that wait for their entry in the repair list (R551) -/
  repairDue : List Nat := []
  deriving DecidableEq, Repr

/-- A glean request of a core (R644): the kernels still to run, the deadline, the kernels that failed and the first failing item; whether an
edge has taken it, a kernel has begun, all have run, it has been dropped; and the kernels that have run. -/
structure Glean where
  core : Nat
  suite : Nat
  deadline : Nat
  fail : Nat
  detail : Nat
  started : Bool
  taken : Bool
  done : Bool
  dropped : Bool
  ran : Nat
  deriving DecidableEq, Repr

/-- A pending tick-numbered snapshot (R668). -/
structure Snap where
  at_ : Nat
  num : Nat
  deriving DecidableEq, Repr

end Sys2Proof.Machine
end

