-- ==== Sys2Proof/Machine/Parts/Core.lean ====
section
/-! DEFINITION. What a core holds beside its registers, its Loft and its poison marks (chapters 3 to 9 and 21). A field's
default is its value at reset. -/

namespace Sys2Proof.Machine

/-- A weight-set table entry (R176), its tenant (R541) and the image last used for each bank (IMG_A, IMG_B). Bank states:
0 EMPTY, 1 PROGRAMMING, 2 VERIFYING, 3 READY, 4 ACTIVE, 5 SWITCHING. -/
structure WSet where
  valid : Bool := false
  fmt : Nat := 0
  active : Nat := 0
  stA : Nat := 0
  stB : Nat := 0
  verA : Nat := 0
  verB : Nat := 0
  tiles : Nat := 0
  tileBase : Nat := 0
  nPiece : Nat := 0
  pieceBase : Nat := 0
  layout : Nat := 0
  progGen : Nat := 0
  tenant : Nat := 0
  imgA : Nat := 0
  imgB : Nat := 0
  /-- bank states before a switch in progress (R194) -/
  befA : Nat := 0
  befB : Nat := 0
  deriving DecidableEq, Repr

/-- The kinds of weight-engine pass (R207, R208, R215, R118). -/
inductive PassKind where
  | prog | adopt | refresh | verify | repair | replace
  deriving DecidableEq, Repr

/-- A weight pass: running, suspended or queued (R208, R209, R223). `code` is set when it has ended (0 for success) and its
state change and tally wait for the next publication edge. -/
structure Pass where
  id : Nat
  kind : PassKind
  set : Nat
  bank : Nat
  version : Nat
  img : Nat
  tally : Nat
  tallyEn : Bool
  part : Option Nat
  tenant : Nat
  arrays : List Nat
  running : Bool
  suspended : Bool
  code : Option Nat
  hot : Bool
  deriving DecidableEq, Repr

/-- A flip request (R221): the set, the version, the tally to raise; the frame of a WFLIP (its FRAME_SEQ) or none for a host
or enable request. -/
structure FlipReq where
  set : Nat
  version : Nat
  tally : Option Nat
  frame : Option Nat
  fromEnable : Bool
  deriving DecidableEq, Repr

/-- A flip between E c 0 and E c 1,536 (R194). -/
structure Flip where
  req : FlipReq
  arrays : List Nat
  accepted : Bool
  deriving DecidableEq, Repr

/-- A command in a store queue: a STORE, WSEND, MSEND, RSEND or WDRAW; whether its source has been read, the data captured
(64-byte granules with their poison), the slot or number under which it was sent, and whether it is done. -/
structure SqEnt where
  op : Nat
  cmd : Cmd
  pc : Nat
  read : Bool
  data : List (List Byte × Bool)
  num : Nat
  done : Bool
  /-- acknowledgements awaited: write number and multicast target -/
  wait : List (Nat × Nat) := []
  poisMask : Nat := 0
  /-- granules of a multicast replaced by poison notes: target and granule -/
  noted : List (Nat × Nat) := []
  /-- the GEN of each multicast target's credits at admission (R348, R475), and the tick at which the last acknowledgement arrived (R351) -/
  gens : Tbl Nat := []
  ackTick : Nat := 0
  deriving DecidableEq, Repr

/-- A PS32 group (R137 to R139): its exponent, its flag byte, its 32 values, and the poison of its two 64-byte granules. -/
structure PsGroup where
  exp : Int
  flag : Nat
  vals : List Int
  bad : List Bool
  deriving DecidableEq, Repr

/-- A product between issue and retirement (R185, R187, R191). Stages: 0 waits for its grant, 1 granted, pulsing once
`atHead` is false, 2 its repeat waits, 3 its slab is final. `failed`: retired under R190 and waiting for the products before
it. -/
structure Product where
  id : Nat
  cmd : Cmd
  stage : Nat
  atHead : Bool
  failed : Bool
  step : Nat
  /-- working format code, RANGE and promotion of the attempt -/
  fmt : Nat
  range : Nat
  promoted : Bool
  /-- the input as loaded: the images of segments 0 upward -/
  input : List Byte
  groups : List PsGroup
  /-- blocks of the input whose producer clamped them, 32 × segment + block (R132) -/
  clampIn : List Nat := []
  reference : Bool
  /-- the order in which the attempt began pulsing, and whether the governor has deferred the command (R149, R188) -/
  start : Nat := 0
  deferred : Bool := false
  /-- the address the command was read from, and the Loft runs that it reads (R297) -/
  pc : Nat := 0x3FFFF
  reads : List (Nat × Nat) := []
  deriving DecidableEq, Repr

/-- A column repair of a bank (R121, R215): the free spare, the user column, the pass that programs it, and whether it has been verified. -/
structure Fix where
  spare : Nat
  col : Nat
  job : Nat
  done : Bool
  deriving DecidableEq, Repr

/-- One bank of one physical array: its health record (R124), its margin in 1/256 of the level spacing (0xFF when none has been formed), its
remaps, and what awaits repair. -/
structure BankSt where
  wear : Nat := 0
  /-- the least margin sampled since the bank was last programmed (R111), and the margin at its last verify (R124) -/
  margin : Nat := 0xFF
  verMargin : Nat := 0xFF
  stuckLo : Nat := 0
  stuckHi : Nat := 0
  outRange : Nat := 0
  /-- spare k in use for user column: (k, column); a spare that is unusable is listed under 0xFFFF (R117) -/
  remap : List (Nat × Nat) := []
  /-- user columns whose defect awaits its repair (R121) -/
  poisoned : List Nat := []
  /-- repairs begun and not yet in effect (R121, R122) -/
  fixes : List Fix := []
  /-- reference columns found faulty (R118) -/
  refBad : List Nat := []
  /-- the read-verify path has sampled the bank since it was last programmed (R111) -/
  sampled : Bool := false
  /-- the record was rebuilt at start-up and the bank has not been verified since (R125) -/
  unverified : Bool := false
  deriving DecidableEq, Repr

/-- What the sweep of a replacement measured, until the spare takes the position (R237): both banks' witness and reference columns, with the
temperature and second of the sweep. -/
structure SwapSet where
  corr : List CalMeas
  refs : List CalMeas
  corr2 : List CalMeas
  refs2 : List CalMeas
  t : Int
  time : Nat
  deriving DecidableEq, Repr

/-- Calibration of a core (chapter 7). Columns are keyed (2 * array + bank) * 1064 + position, banks 2 * array + bank. -/
structure CalSt where
  /-- gain and offset in force for the active banks, stored for the inactive ones (R235) -/
  g : Tbl Nat := []
  o : Tbl Int := []
  /-- where the target of a ramp differs from the set in force -/
  tgt : Tbl (Nat × Int) := []
  /-- the columns of a set formed by a run and not yet adopted, where it differs from the values in force -/
  frm : Tbl (Nat × Int) := []
  bg : Tbl Nat := []
  bgF : Tbl Nat := []
  /-- converter trims, keyed array * 266 + converter: gain trim in bits [3:0], offset trim in bits [7:4] -/
  trims : Tbl Nat := []
  trimsF : Tbl Nat := []
  /-- temperature in 1/16 °C and power-on second of each bank's target, and of the set before it while a ramp runs (R107) -/
  tMeas : Tbl Int := []
  time : Tbl Nat := []
  prevT : Tbl Int := []
  prevTime : Tbl Nat := []
  /-- a run has ended and waits for its adoption: its temperature, second, number and cause -/
  formed : Bool := false
  formedT : Int := 0
  formedTime : Nat := 0
  formedRun : Nat := 0
  formedCause : Nat := 0
  /-- temperature and second of the most recent run's target set (R243) -/
  lastT : Int := 0
  lastTime : Nat := 0
  dueFrames : Nat := 0
  /-- the run number of each bank's set, 0xFFFF_FFFF where no run formed it (R655) -/
  setRun : Tbl Nat := []
  /-- the tick and cycle at which the run in progress started (R246), and one more than the tick of the last slot that was tried (R245) -/
  startTick : Nat := 0
  startCyc : Nat := 0
  tried : Nat := 0
  /-- the number of the last run (R250), and the epoch at the last write-back (R262) -/
  runs : Nat := 0
  wrote : Nat := 0
  /-- octets whose correction table an upset has spoilt, until a run rewrites it (R633) -/
  badTable : Marks := []
  /-- columns declared faulty by runs, by bank (R261) -/
  faulty : Tbl Nat := []
  deriving DecidableEq, Repr

/-- A window credit entry held by a sending core (R475). -/
structure CreditEnt where
  mod_ : Nat
  core : Nat
  win : Nat
  gen : Nat
  credits : Nat
  deriving DecidableEq, Repr

/-- One window of a core beyond its registers (R473 to R480): its RELEASE, GRANT and rights, and whether a close is pending. -/
structure Window where
  outstanding : Nat := 0
  grant : Nat := 0
  release : Nat := 0
  tally : Nat := 0
  /-- source partitions allowed to write -/
  pmask : Nat := 0
  hkind : Nat := 0
  hmod : Nat := 0
  hst : Nat := 0
  closing : Bool := false
  /-- consumed units by the publication edge, counted from the next one, that returns them (R478) -/
  ret : List Nat := [0, 0, 0, 0]
  deriving DecidableEq, Repr

/-- An audit of a core (R636): its partition and FRAME_SEQ; its witness part (0 awaited, 1 run, 2 skipped) and its tile part (0 no product
sampled yet, 1 sampled, 2 captured, 3 run, 4 skipped); the product sampled, what the audit buffer captured of it (the final attempt and each
octet's result: octet, exponent, columns), and the DETAIL of the first part that failed. -/
structure AuditSt where
  part : Nat
  frame : Nat
  witness : Nat
  tile : Nat
  prod : Nat
  cap : Option (Product × List (Nat × Int × List Int))
  fail : Option (List Byte)
  deriving DecidableEq, Repr

/-- What a core holds beside its registers. -/
structure CoreSt where
  fqEnd : List Nat := []
  sqEnd : List Nat := []
  /-- commands in each fetch queue, each with the address it was read from -/
  fqs : Tbl (List (Cmd × Nat)) := []
  sqs : Tbl (List SqEnt) := []
  /-- the queue from which the transfer engine takes its next command, fetch queues 0 to 15 and store queues 16 to 23, and the commands of
  each queue that it has taken and not completed or read (R289) -/
  turn : Nat := 0
  taken : Tbl Nat := []
  /-- granules of the oldest fetch of each queue that a poison note replaces (R350) -/
  fetchNoted : Tbl (List Nat) := []
  /-- in debug mode, the granules of the current frame's lists (R297) -/
  lists : List Nat := []
  /-- engines whose head command has been read and waits -/
  headRead : Marks := []
  mframe : Bool := false
  products : List Product := []
  nextId : Nat := 0
  /-- attempts that have begun pulsing so far -/
  nextStart : Nat := 0
  sets : Tbl WSet := []
  tileStore : Tbl Nat := []
  pieceStore : Tbl Nat := []
  /-- levels of the positive and negative cells as last programmed (R87, R88), by key ((physical array * 2 + bank) * 1042 + row) * 1064 +
  physical column; rows 1,040 and 1,041 are the health rows (R124) -/
  cells : Tbl (Nat × Nat) := []
  /-- by key physical array * 2 + bank -/
  banks : Tbl BankSt := []
  /-- arrays whose active bank is B -/
  activeB : Marks := []
  /-- positions that a spare array has taken; octets retired -/
  replaced : Marks := []
  /-- replacements not yet in effect (R118 to R122), by position: 1 begun on the active bank, 2 verified and due at the next publication edge,
  4 + b found in a pass over bank b and due with that bank's flip -/
  swap : Tbl Nat := []
  /-- what the sweep of a replacement measured, by position -/
  swapSet : Tbl SwapSet := []
  retired : Marks := []
  /-- octets whose retirement takes effect at the next publication edge (R119) -/
  retireDue : Marks := []
  stale : Bool := false
  passes : List Pass := []
  flipReqs : List FlipReq := []
  flip : Option Flip := none
  hostCmd : Bool := false
  weNext : Nat := 0
  /-- tallies to raise at the next publication edge: tally and the partition at acceptance (R209, R211) -/
  tallyDue : List (Nat × Option Nat) := []
  cal : CalSt := {}
  /-- frames' audits: the last 64 outcomes, true for a failure (R642) -/
  audits : List Bool := []
  /-- audits in progress, the latest last; a slot kernel has run in the frame in progress (R645) -/
  auditing : List AuditSt := []
  slotRan : Bool := false
  windows : Tbl Window := []
  credits : List CreditEnt := []
  writeNum : Nat := 0
  /-- per (request, class) fallbacks of the frame (R156) -/
  fallbacks : List (Nat × Nat × Nat) := []
  scrubRow : Nat := 0
  deriving DecidableEq, Repr

end Sys2Proof.Machine
end

