-- ==== Sys2Proof/Machine/Parts/Net.lean ====
section
/-! DEFINITION. The data of the on-die network and of the link ports (chapters 10, 14, 15). A field's default is its value at
reset. -/

namespace Sys2Proof.Machine

/-- A slab on its way through a reduction circuit (R342): its sequence number, GRP and groups. -/
structure Slab where
  seq : Nat
  grp : Nat
  /-- the header granule is poisoned -/
  hdr : Bool
  groups : List PsGroup
  deriving DecidableEq, Repr

/-- A data flit in the replay buffer (R457): its sequence number, payload and TXSTAMP, and how often it was sent. -/
structure Held where
  seq : Nat
  payload : List Byte
  stamp : Nat
  sends : Nat
  deriving DecidableEq, Repr

/-- The coder of a port's transmitter (R443 to R445): the scrambler's register, scrambled bits that fill no message yet, flits since the
last alignment codeword, and what the last flit completed: codewords, and the levels of each logical lane. -/
structure TxCoder where
  reg : Nat := 0x7FFFFFFF
  bits : List Bool := []
  flits : Nat := 0
  out : List (List Nat) := []
  lanes : List (List Int) := []
  deriving DecidableEq, Repr

/-- The decoder of a port's receiver (R443 to R446): the scrambler's register, and unscrambled bits that fill no flit yet, each with
whether its codeword was good. -/
structure RxCoder where
  reg : Nat := 0x7FFFFFFF
  bits : List (Bool × Bool) := []
  deriving DecidableEq, Repr

/-- What a link port holds beside its registers. -/
structure PortSt where
  /-- messages waiting for transmission, in arrival order -/
  queue : List LinkMsg := []
  /-- bytes of begun messages that no flit carries yet -/
  txBytes : List Byte := []
  txSeq : Nat := 0
  replay : List Held := []
  /-- the messages whose bytes lie in unacknowledged flits, each with the number of its last flit -/
  sent : List (LinkMsg × Nat) := []
  /-- sequence numbers still to be sent again -/
  again : List Nat := []
  /-- link credits held (R455) -/
  txCred : Nat := 1024
  rxExp : Nat := 0
  /-- a flit has been accepted since the link layer last started: ACK is valid -/
  rxAny : Bool := false
  gap : Bool := false
  gapNaked : Bool := false
  nak : Bool := false
  credOwed : Nat := 0
  /-- received bytes that do not complete a message yet, each with the lateness of its flit -/
  rxBytes : List (Byte × Bool) := []
  /-- the flit sent last -/
  wire : Option Flit := none
  /-- the coder of the transmitter and the decoder of the receiver -/
  tx : TxCoder := {}
  rx : RxCoder := {}
  /-- a full train has succeeded with this partner (R447); the train in progress is a quick one; a train has been started before -/
  fullDone : Bool := false
  quick : Bool := false
  trained : Bool := false
  /-- the width in force before the train in progress (R452) -/
  lastWidth : Nat := 0
  /-- codewords received that FEC_CW does not count yet -/
  cwLeft : Nat := 0
  /-- the partner's module and port, coded as port register 0x400 -/
  partner : Nat := 0
  /-- slots begun in the tick in progress (R465) -/
  begun : List Nat := []
  /-- the outer-port key, its salts and the counts of protected messages (R495, R496) -/
  key : List Byte := []
  saltTx : Nat := 0
  saltRx : Nat := 0
  cntTx : Nat := 0
  cntRx : Nat := 0
  deriving DecidableEq, Repr

/-- The network. -/
structure NetSt where
  /-- node entries, keyed router * 256 + circuit (R341) -/
  nodes : Tbl Nat := []
  /-- circuits whose stored check has been found to fail: the entry is poisoned until it is written (R355) -/
  circBad : Marks := []
  /-- node input buffers, keyed (router * 256 + circuit) * 8 + input (R342) -/
  bufs : Tbl (List Slab) := []
  /-- sums formed at a root, not yet delivered, by circuit -/
  sums : Tbl (List Slab) := []
  /-- window credits of root routers, by circuit (R344, R475) -/
  circCred : Tbl Nat := []
  /-- the GEN of those credits -/
  circGen : Tbl Nat := []
  /-- slab credits of roots that are link ports, by circuit (R481) -/
  slabCred : Tbl Nat := []
  /-- messages for this module that wait for delivery -/
  inbox : List LinkMsg := []
  /-- messages held until a port of their route comes up (R486, R487) -/
  notes : List LinkMsg := []
  /-- snapshots already forwarded: source module and snapshot number (R485) -/
  snaps : List (Nat × Nat) := []
  /-- management messages delivered to station 561 -/
  mgmt : List LinkMsg := []
  ports : Tbl PortSt := []
  deriving DecidableEq, Repr

end Sys2Proof.Machine
end

