-- ==== Sys2Proof/Machine/Parts/Tier.lean ====
section
/-! DEFINITION. The data of the tier manager and of the Winnow: request-table entries, moves between Granary and Silo, draws
(chapters 11 and 12). A field's default is its value at reset. -/

namespace Sys2Proof.Machine

/-- A request-table entry (R358, R396, SPEC field of chapter 12). The default is the FREE entry of R356. Tier states: 0 FREE,
1 OPENING, 2 RESIDENT, 3 PARKING, 4 PARKED, 5 RETURNING, 6 EXPIRED, 7 FAILED. -/
structure ReqEntry where
  tstate : Nat := 0
  owner : Nat := 0
  flags : Nat := 0
  len : Nat := 0
  lenMax : Nat := 0
  passes : Nat := 0
  seed : Nat := 0
  lastTick : Nat := 0
  stateTick : Nat := 0
  ttl : Nat := 0
  pagesG : Nat := 0
  pagesS : Nat := 0
  pmap : Nat := 0
  counts : Nat := 0
  promo : Nat := 0
  kcur : Nat := 0
  kround : Nat := 0
  winN : Nat := 0
  sflags : Nat := 0
  winK : Nat := 0
  winA : Nat := 0
  offTok : Nat := 0
  smod : Nat := 0
  pend : Nat := 0
  draft : List Nat := []
  /-- bytes 128 to 191 and 192 to 223 -/
  sampler : List Byte := List.replicate 64 0
  hostTag : List Byte := List.replicate 32 0
  deriving DecidableEq, Repr

/-- A page copied by a move: its logical page, its Silo list index, its check word and PSN, its Granary page. -/
structure MovedPage where
  page : Nat
  silo : Nat
  crc : Nat
  psn : Bool
  gran : Nat
  deriving DecidableEq, Repr

/-- A move of a request between tiers (R370, R373, R377): to the Silo (`park`) or back; the pages that are still to be copied
with their Silo index and Granary page, the pages copied; whether copying has begun; whether a page failed its check; whether
the park is to be cancelled at the next edge; the tick at which it started. -/
structure Move where
  req : Nat
  park : Bool
  left : List MovedPage
  done : List MovedPage
  begun : Bool
  bad : Bool
  cancel : Bool
  start : Nat
  deriving DecidableEq, Repr

/-- The tier manager. -/
structure TierSt where
  /-- request-table entries that differ from the FREE entry of R356 -/
  reqs : Tbl ReqEntry := []
  /-- Granary pages allocated or reserved, by device page number -/
  used : Marks := []
  /-- Silo list entries reserved, keyed partition * 2^26 + index -/
  silo : Marks := []
  /-- moves, in the order in which they started -/
  moves : List Move := []
  /-- the request whose move copied the last page (R377) -/
  mover : Option Nat := none
  /-- the idle threshold of a request's deadline in ms, where it is not 2,000: IDLE_MS as the deadline was computed (R387) -/
  idleMs : Tbl Nat := []
  /-- requests whose CLOSE waits for the owner's publication edge -/
  closing : List Nat := []
  /-- requests whose store found the pool empty -/
  poolEmpty : List Nat := []
  /-- requests that already reported SILO_FULL in this idle period -/
  siloFull : List Nat := []
  /-- requests whose OPEN waits for its zeroing -/
  opening : List Nat := []
  /-- entries whose CHECK failed and that no enabled partition's range holds: rewritten FREE at the next edge (R359) -/
  rewrite : List Nat := []
  /-- the functions whose tier command waits for an edge, in the order of their TM_HGO (R382) -/
  cmds : List Nat := []
  /-- writes to SILO_COUNT that wait for the next edge (R381) -/
  siloCount : Tbl Nat := []
  deriving DecidableEq, Repr

/-- A draw of the Winnow (R391 to R395, R415). Stages: 0 slices are missing, 1 complete and waiting for an engine, 2 running,
3 finished. `code` is 0 or the code under which the draw is refused or poisoned. -/
structure Draw where
  slot : Nat
  part : Nat
  req : Nat
  mode : Nat
  out : Nat
  nslice : Nat
  arrived : Nat
  /-- the pairs held: token and logit bits -/
  pairs : List (Nat × Nat)
  code : Nat
  stage : Nat
  /-- the arrival number of the last slice -/
  order : Nat
  token : Nat
  chosen : Nat
  forced : Bool
  u : Nat
  xsel : Nat
  deriving DecidableEq, Repr

/-- The Winnow. -/
structure WinSt where
  draws : List Draw := []
  arrivals : Nat := 0
  deriving DecidableEq, Repr

end Sys2Proof.Machine
end

