-- ==== Sys2Proof/Machine/State.lean ====
section
/-! DEFINITION. The state of the KX5: every register field of the register map, the memories, and what the units hold beside
their registers; the queue of waiting commands; and the reset state. -/

namespace Sys2Proof.Machine

/-- The register bank: by field number, the instances that differ from the field's reset value. -/
abbrev Bank := Tbl (Tbl Word)

/-- The state of the machine. -/
structure State where
  /-- every register field (register map), by field number and instance -/
  regs : Bank := []
  mem : MemSt := {}
  log : LogSt := {}
  host : HostSt := {}
  tick : TickSt := {}
  power : PowerSt := {}
  /-- the 64 partitions -/
  parts : Tbl PartSt := []
  /-- the 512 cores -/
  cores : Tbl CoreSt := []
  tier : TierSt := {}
  winnow : WinSt := {}
  net : NetSt := {}
  mgmt : MgmtSt := {}
  gleans : List Glean := []
  snaps : List Snap := []
  /-- the shadow registers: the bank as it stood at the last latch (R669) -/
  shadow : Bank := []
  /-- the model's own: how many free values have been drawn (log entry 4) -/
  fresh : Nat := 0
  /-- the commands that wait, first in, first out -/
  pending : List Instr := []
  deriving DecidableEq, Repr

/-- The reasons a step can stop with a fault. -/
inductive Fault where
  /-- raised by no command: the spec gives every command an effect (safe) -/
  | none
  deriving DecidableEq, Repr

/-- The reasons a command can be refused. -/
inductive Refusal where
  /-- raised by a dispatcher's arm of a command without a meaning, of which there is none: safe, the step stops -/
  | notModelled (mnemonic : String)
  deriving DecidableEq, Repr

/-- The outcome of a step. -/
abbrev Out := Host.Outcome State Fault Refusal

/-- The machine right after reset: every register field at its reset value, nothing in flight, nothing waiting. -/
def State.reset : State := {}

end Sys2Proof.Machine
end

