-- ==== Sys2Proof/Machine/Ops.lean ====
section
/-! DEFINITION. The named operations over the state that the meanings share: registers, memories and poison, check words,
the error log, the host's side, partitions and cores, resets and stops. -/

namespace Sys2Proof.Machine

/-! ### Registers -/

/-- An instance of a field in a bank. -/
def Bank.rd (b : Bank) (f : Fld) (i j : Nat) : Word :=
  Tbl.get (BitVec.ofNat 32 f.rst) (Tbl.get [] b f.id) (f.key i j)

/-- Sets an instance of a field, cut to the field's width. -/
def Bank.wr (b : Bank) (f : Fld) (i j v : Nat) : Bank :=
  Tbl.upd [] b f.id (fun t => Tbl.set (BitVec.ofNat 32 f.rst) t (f.key i j) (BitVec.ofNat 32 (v % 2 ^ f.width)))

/-- The value of a register field, instance (i, j). -/
def State.rd (s : State) (f : Fld) (i : Nat := 0) (j : Nat := 0) : Nat := (s.regs.rd f i j).toNat

/-- A one-bit register field. -/
def State.flag (s : State) (f : Fld) (i : Nat := 0) (j : Nat := 0) : Bool := s.rd f i j != 0

/-- Sets a register field. -/
def State.wr (s : State) (f : Fld) (v : Nat) (i : Nat := 0) (j : Nat := 0) : State :=
  { s with regs := s.regs.wr f i j v }

/-- Adds to a 32-bit counter that saturates at 0xFFFF_FFFF (R126). -/
def State.bump (s : State) (f : Fld) (n : Nat := 1) (i : Nat := 0) (j : Nat := 0) : State :=
  s.wr f (satAdd32 (s.rd f i j) n) i j

/-- Clears a field to its reset value in every instance of partition, core or other index `i`, over `n` second indices. -/
def State.clr (s : State) (f : Fld) (i : Nat) : State :=
  (List.range f.n2).foldl (fun s j => s.wr f f.rst i j) s

/-- A wide value held in a low word and a live high part. -/
def State.wide (s : State) (lo hi : Fld) (i : Nat := 0) : Nat := s.rd lo i + 2 ^ 32 * s.rd hi i

/-- Sets a wide value. -/
def State.setWide (s : State) (lo hi : Fld) (v : Nat) (i : Nat := 0) : State :=
  (s.wr lo (v % 2 ^ 32) i).wr hi (v / 2 ^ 32) i

/-- A fresh free value of a kind (log entry 4). -/
def State.free (s : State) (kind : Nat) : Nat := Config.freeValue kind s.fresh

/-- Moves on to the next free value. -/
def State.drawn (s : State) (n : Nat := 1) : State := { s with fresh := s.fresh + n }

/-! ### Time -/

/-- The number of the most recent tick edge (R25, R57). -/
def State.tickNum (s : State) : Nat := s.wide R.tick_NUM_LO R.live_NUM_HI

/-- The tick period in force, in cycles (R55). -/
def State.period (s : State) : Nat := 2 ^ s.rd R.tick_PERIOD_LOG2

/-- The cycle offset (R24, R26). -/
def State.cyc (s : State) : Nat := s.rd R.tick_CYCLE

/-- The machine runs: powered, not latched and not stopped by a device-fatal error (R620, R635). -/
def State.alive (s : State) : Bool := s.power.stages && !s.power.latched && !s.power.fatal

/-- Firmware runs and is not handing over; it runs on while a new image is verified (R564, R569, R570). -/
def State.fwRuns (s : State) : Bool :=
  [3, 4, 5].contains (s.rd R.mgmt_FW_STATE) || (s.rd R.mgmt_FW_STATE == 2 && s.rd R.mgmt_STAGE == 8)

/-- Start-up has reached STAGE 5 (R559). -/
def State.booted (s : State) : Bool := decide (5 ≤ s.rd R.mgmt_STAGE) && decide (s.rd R.mgmt_STAGE ≤ 8)

/-! ### Check words -/

/-- One bit step of the CRC of R263. -/
def crcBit (c : Nat) : Nat := if c % 2 = 1 then Nat.xor (c / 2) 0x82F63B78 else c / 2

/-- One byte of the CRC of R263. -/
def crcByte (c : Nat) (b : Byte) : Nat :=
  crcBit (crcBit (crcBit (crcBit (crcBit (crcBit (crcBit (crcBit (Nat.xor c b.toNat))))))))

/-- The CRC-32C check word of a byte string (R263). -/
def crc32c (bs : List Byte) : Nat := Nat.xor (bs.foldl crcByte 0xFFFFFFFF) 0xFFFFFFFF

/-- A record body with its check word appended. -/
def withCheck (bs : List Byte) : List Byte := bs ++ toLe 4 (crc32c bs)

/-! ### Partitions and cores -/

/-- Partition p. -/
def State.part (s : State) (p : Nat) : PartSt := Tbl.get {} s.parts p

/-- Changes partition p. -/
def State.updPart (s : State) (p : Nat) (f : PartSt → PartSt) : State := { s with parts := Tbl.upd {} s.parts p f }

/-- Core c. -/
def State.core (s : State) (c : Nat) : CoreSt := Tbl.get {} s.cores c

/-- Changes core c. -/
def State.updCore (s : State) (c : Nat) (f : CoreSt → CoreSt) : State := { s with cores := Tbl.upd {} s.cores c f }

/-- Changes the memories. -/
def State.updMem (s : State) (f : MemSt → MemSt) : State := { s with mem := f s.mem }

/-- Changes the power entry. -/
def State.updPower (s : State) (f : PowerSt → PowerSt) : State := { s with power := f s.power }

/-- Changes the management complex. -/
def State.updMgmt (s : State) (f : MgmtSt → MgmtSt) : State := { s with mgmt := f s.mgmt }

/-- PSTATE of a partition (R528). -/
def State.pstate (s : State) (p : Nat) : Nat := s.rd R.part_PSTATE p

/-- The partition runs frames: ENABLED, or FROZEN after a hazard (R528). -/
def State.enabled (s : State) (p : Nat) : Bool := s.pstate p == 3 || s.pstate p == 5

/-- The partition that owns a core (R533). -/
def State.owner (s : State) (c : Nat) : Option Nat :=
  if s.flag R.ctab_OWNED c then some (s.rd R.ctab_OWNER c) else none

/-- The enabled partition that a core belongs to, if any (R202, R303). -/
def State.enabledOwner (s : State) (c : Nat) : Option Nat :=
  match s.owner c with
  | some p => if s.enabled p then some p else none
  | none => none

/-- The cores a partition owns, in ascending order (R533). -/
def State.coresOf (s : State) (p : Nat) : List Nat := (List.range 512).filter (fun c => s.owner c == some p)

/-- A field of `n` bytes at byte `off` of a partition's main record (R532). -/
def State.main (s : State) (p off n : Nat) : Nat :=
  ((s.rd R.tab_MAIN p (off / 4) + 2 ^ 32 * s.rd R.tab_MAIN p (off / 4 + 1) + 2 ^ 64 * s.rd R.tab_MAIN p (off / 4 + 2))
    >>> (8 * (off % 4))) % 2 ^ (8 * n)

/-- TENANT (R532). -/
def State.tenant (s : State) (p : Nat) : Nat := s.main p 0 4
/-- PFLAGS: MODE, reference mode (R159). -/
def State.refMode (s : State) (p : Nat) : Bool := bitOf (s.main p 8 1) 0
/-- PFLAGS: DEBUG (R296). -/
def State.debug (s : State) (p : Nat) : Bool := bitOf (s.main p 8 1) 1
/-- PFLAGS: STAGE_PERMIT (R542). -/
def State.stagePermit (s : State) (p : Nat) : Bool := bitOf (s.main p 8 1) 4
/-- PFLAGS: SPAN. -/
def State.span (s : State) (p : Nat) : Bool := bitOf (s.main p 8 1) 5
/-- CHECK_BUDGET (R636). -/
def State.budget (s : State) (p : Nat) : Nat := s.main p 11 1 % 8
/-- REQ_BASE. -/
def State.reqBase (s : State) (p : Nat) : Nat := s.main p 20 2
/-- REQ_COUNT. -/
def State.reqCount (s : State) (p : Nat) : Nat := s.main p 22 3 % 2 ^ 17
/-- ADM_MAX (R512). -/
def State.admMax (s : State) (p : Nat) : Nat := s.main p 34 1
/-- ADM_ADDR (R512). -/
def State.admAddr (s : State) (p : Nat) : Nat := s.main p 36 4 % 2 ^ 17
/-- MAINT_EVERY (R647). -/
def State.maintEvery (s : State) (p : Nat) : Nat := s.main p 46 2
/-- LEAD, coded as SRC_MOD (R532). -/
def State.leadMod (s : State) (p : Nat) : Nat := s.main p 64 2
/-- NMOD: member modules minus 1. -/
def State.nmod (s : State) (p : Nat) : Nat := s.main p 66 2 % 4096

/-- This module, coded as SRC_MOD: block number in bits [11:6], position in bits [5:0] (chapter 15). -/
def State.selfMod (s : State) : Nat := s.rd R.msg_BLK * 64 + s.rd R.msg_POS

/-- This module leads the partition (R74). -/
def State.isLead (s : State) (p : Nat) : Bool := !s.span p || s.leadMod p == s.selfMod

/-- A request lies in the partition's range (R357). -/
def State.inRange (s : State) (p req : Nat) : Bool :=
  decide (s.reqBase p ≤ req) && decide (req < s.reqBase p + s.reqCount p)

/-- The partition whose request range holds a request, among the enabled ones (R359). -/
def State.reqOwner (s : State) (req : Nat) : Option Nat :=
  (List.range 64).find? (fun p => s.enabled p && s.inRange p req)

/-! ### The linear space (R534) -/

/-- FIRST of an extent. -/
def State.extFirst (s : State) (p e : Nat) : Nat := s.rd R.tab_EXT p (2 * e) % 2 ^ 21
/-- COUNT of an extent. -/
def State.extCount (s : State) (p e : Nat) : Nat := s.rd R.tab_EXT p (2 * e + 1) % 2 ^ 21
/-- VALID of an extent. -/
def State.extValid (s : State) (p e : Nat) : Bool := bitOf (s.rd R.tab_EXT p (2 * e + 1)) 31
/-- POOL of an extent. -/
def State.extPool (s : State) (p e : Nat) : Bool := bitOf (s.rd R.tab_EXT p (2 * e + 1)) 30
/-- ZERO of an extent. -/
def State.extZero (s : State) (p e : Nat) : Bool := bitOf (s.rd R.tab_EXT p (2 * e + 1)) 29

/-- The VALID extents of a partition as (first bushel, count, pool), in order. -/
def State.extents (s : State) (p : Nat) : List (Nat × Nat × Bool) :=
  ((List.range 64).filter (fun e => s.extValid p e)).map (fun e => (s.extFirst p e, s.extCount p e, s.extPool p e))

/-- The device bushel of a linear bushel among extents. -/
def bushelOf : List (Nat × Nat × Bool) → Nat → Option Nat
  | [], _ => none
  | (f, n, _) :: r, b => if b < n then some (f + b) else bushelOf r (b - n)

/-- The device granule of a linear granule of a partition, none outside its space (R290, R534). -/
def State.linGran (s : State) (p g : Nat) : Option Nat :=
  (bushelOf (s.extents p) (g / 32768)).map (fun b => b * 32768 + g % 32768)

/-- How many bushels a partition's linear space holds. -/
def State.linBushels (s : State) (p : Nat) : Nat := ((s.extents p).map (fun e => e.2.1)).foldl (· + ·) 0

/-- A device bushel lies in a partition's VALID extents. -/
def State.holdsBushel (s : State) (p b : Nat) : Bool :=
  (s.extents p).any (fun e => decide (e.1 ≤ b) && decide (b < e.1 + e.2.1))

/-! ### The error log (R627 to R630) -/

/-- The counter of an error class. -/
def clsCount (cls : Nat) : Fld :=
  if cls = 1 then R.err_CNT_CORR else if cls = 2 then R.err_CNT_DEFER
  else if cls = 3 then R.err_CNT_PFATAL else R.err_CNT_DFATAL

/-- Two records merge under R629. -/
def ErrRec.like (a b : ErrRec) : Bool :=
  a.cls == b.cls && a.src == b.src && a.code == b.code && a.part == b.part && a.station == b.station

/-- Adds a record to those of its tick; a like record takes it into its COUNT (R629). -/
def gather (r : ErrRec) : List ErrRec → List ErrRec
  | [] => [r]
  | h :: t => if r.like h then { h with count := h.count + r.count } :: t else h :: gather r t

/-- FRAME_SEQ of a partition's frame in flight, or 0. -/
def State.frameSeq (s : State) (p : Nat) : Nat := match (s.part p).frame with
  | some f => f.seq.toNat
  | none => 0

/-- Logs an error: its class, source, code, partition (0xFF for none) and station, and what the source gives (R629). -/
def State.logErr (s : State) (cls src code part station : Nat) (req : Nat := 0xFFFF) (item : Nat := 0) (addr : Nat := 0)
    (detail : List Byte := []) : State :=
  let r : ErrRec := {
    cls := BitVec.ofNat 8 cls, src := BitVec.ofNat 8 src, code := BitVec.ofNat 8 code,
    part := BitVec.ofNat 8 part, station := BitVec.ofNat 16 station, tick := BitVec.ofNat 48 s.tickNum,
    frame := BitVec.ofNat 32 (if part < 64 then s.frameSeq part else 0), req := BitVec.ofNat 16 req,
    item := BitVec.ofNat 16 item, addr := BitVec.ofNat 64 addr, count := 1, detail := detail }
  ({ s with log := { s.log with cur := gather r s.log.cur } }).bump (clsCount cls)

/-- The partition byte of a core's error records. -/
def State.partByte (s : State) (c : Nat) : Nat := (s.owner c).getD 0xFF

/-- Logs an error of a core. -/
def State.logCore (s : State) (cls src code c : Nat) (req : Nat := 0xFFFF) (item : Nat := 0) (addr : Nat := 0)
    (detail : List Byte := []) : State := s.logErr cls src code (s.partByte c) c req item addr detail

/-- A host access error: its kind, function, BAR, whether it is a write, the bytes accessed, the offset and the data (R526). -/
def State.hae (s : State) (kind fn bar : Nat) (wr : Bool) (width offset data : Nat) : State :=
  let r : HaeRec := {
    kind := BitVec.ofNat 8 kind, func := BitVec.ofNat 8 fn, bar := BitVec.ofNat 8 bar,
    access := BitVec.ofNat 8 (b2n wr + 16 * width), offset := BitVec.ofNat 64 offset, data := BitVec.ofNat 32 data,
    tick := BitVec.ofNat 48 s.tickNum }
  ({ s with log := { s.log with haeCur := s.log.haeCur ++ [r] } }).bump R.host_HAE_COUNT

/-! ### Writes to the host (R516, R521, R524) -/

/-- A function's writes are held: the link is down, or no stream that covers it is secure while IDE is required, or since a stream that
covered it failed (R522 to R524). -/
def State.fnBlocked (s : State) (fn : Nat) : Bool :=
  !s.host.linkUp ||
    ((s.host.ideReq || Marks.has s.host.fnInsecure fn) && !(s.host.linkSecure || Marks.has s.host.fnSecure fn))

/-- A memory request of a function reaches the register map: the machine runs, start-up is past STAGE 4 (R559), the host link is up and
IDE lets the function through (R522, R523). -/
def State.hostOk (s : State) (fn : Nat := 0) : Bool := s.alive && s.booted && !s.fnBlocked fn

/-- Carries out a write to the host. -/
def State.deliver (s : State) (w : HostWrite) : State :=
  match w with
  | .bytes _ a d => { s with mem := { s.mem with host := s.mem.host.write a d } }
  | .msi fn v => { s with host := { s.host with sent := s.host.sent ++ [(fn, v)] } }

/-- The function of a write. -/
def HostWrite.fn : HostWrite → Nat
  | .bytes f _ _ => f
  | .msi f _ => f

/-- Sends a write to the host, or holds it in order (R524). -/
def State.sendHost (s : State) (w : HostWrite) : State :=
  if s.fnBlocked w.fn || s.host.held.any (fun h => h.fn == w.fn) then
    ({ s with host := { s.host with held := s.host.held ++ [w] } }).wr R.host_HELD (min (s.host.held.length + 1) 0x1FFFF)
  else s.deliver w

/-- Sends vector `v` of function `fn`, or sets its pending bit while it is masked (R521). Vectors are masked until the host
unmasks them: a mark here means unmasked (log entry 7). -/
def State.msix (s : State) (fn v : Nat) : State :=
  if Marks.has s.host.masked (fn * 32 + v) then s.sendHost (.msi fn v)
  else { s with host := { s.host with msixPending := Marks.put s.host.msixPending (fn * 32 + v) true } }

/-! ### Resets and stops -/

/-- A partition reset falls due at the next edge, with its RESET_CAUSE: 1 disable, 2 FLR, 3 partition-fatal (R530). A reset
that is already due keeps its cause, and a partition that is neither ENABLED nor FROZEN is not affected (R544). -/
def State.requestReset (s : State) (p cause : Nat) : State :=
  if s.enabled p && (s.part p).resetDue.isNone then s.updPart p (fun q => { q with resetDue := some cause }) else s

/-- A partition-fatal error: its record, and the reset of R530. -/
def State.partFatal (s : State) (src code p station : Nat) (req : Nat := 0xFFFF) (item : Nat := 0) (addr : Nat := 0)
    (detail : List Byte := []) : State := (s.logErr 3 src code p station req item addr detail).requestReset p 3

/-- A partition-fatal error of a core's owner, if it has one. -/
def State.coreFatal (s : State) (src code c : Nat) (detail : List Byte := []) : State :=
  match s.owner c with
  | some p => s.partFatal src code p c 0xFFFF 0 0 detail
  | none => s.logErr 3 src code 0xFF c 0xFFFF 0 0 detail

/-- The state register of an engine. -/
def engState : Engine → Fld
  | .matrix => R.core_M_STATE
  | .vector => R.core_V_STATE
  | .transfer => R.core_T_STATE
  | .weight => R.core_W_STATE

/-- The program counter register of an engine. -/
def engPc : Engine → Fld
  | .matrix => R.core_PC_M
  | .vector => R.core_PC_V
  | .transfer => R.core_PC_T
  | .weight => R.core_PC_W

/-- Brings BUSY and INFLIGHT up to date (R197). -/
def State.syncMx (s : State) (c : Nat) : State :=
  let st := s.rd R.core_M_STATE c
  let ps := (s.core c).products
  (s.wr R.mx_BUSY (b2n (!ps.isEmpty || st == 1 || st == 2 || st == 3)) c).wr R.mx_INFLIGHT
    (min (ps.filter (fun p => decide (p.stage ≤ 1) && !p.failed)).length 16) c

/-- Sets the state of an engine: 0 idle, 1 running, 2 waiting for a tally, 3 for a fetch queue, 4 at EOFR, 5 stopped (R303). The matrix engine's
registers follow: an engine that takes no further command waits for nothing (R197). -/
def State.setEng (s : State) (c : Nat) (e : Engine) (v : Nat) : State :=
  match e with
  | .matrix =>
    let s := s.wr R.core_M_STATE v c
    (if v = 0 ∨ v = 4 ∨ v = 5 then s.wr R.mx_HEAD_WAIT 0 c else s).syncMx c
  | .vector => s.wr R.core_V_STATE v c
  | .transfer => s.wr R.core_T_STATE v c
  | .weight => s.wr R.core_W_STATE v c

/-- Stops all four engines of a core. -/
def State.stopCore (s : State) (c : Nat) : State :=
  (((s.setEng c .matrix 5).wr R.core_V_STATE 5 c).wr R.core_T_STATE 5 c).wr R.core_W_STATE 5 c

/-- The device stops: every engine and port stops and no frame is published (R635). -/
def State.stopDevice (s : State) : State :=
  let s := (List.range 512).foldl (fun s c => s.stopCore c) s
  let s := (List.range 24).foldl (fun s n => s.wr R.port_STATE 0 n) s
  { s with power := { s.power with fatal := true } }

/-- A device-fatal error: its record and the stop of R635. -/
def State.devFatal (s : State) (src code station : Nat) (item : Nat := 0) : State :=
  (s.logErr 4 src code 0xFF station 0xFFFF item).stopDevice

/-! ### Tallies and counts -/

/-- A count c has reached a value v (R276). -/
def reached (c v : Nat) : Bool := (c + 65536 - v % 65536) % 65536 < 32768

/-- Raises a tally (R274, R277). -/
def State.raise (s : State) (c t n : Nat) : State := s.wr R.core_TALLY (s.rd R.core_TALLY c t + n) c t

/-! ### Lofts (R278 to R284) -/

/-- The number of a Loft granule among all Lofts. -/
def loftKey (c g : Nat) : Nat := c * 131072 + g

/-- A Loft granule is poisoned. -/
def State.loftBad (s : State) (c g : Nat) : Bool := Marks.has s.mem.loftPoison (loftKey c g)

/-- The bytes of a Loft from an address. -/
def State.loftBytes (s : State) (c a n : Nat) : List Byte := s.mem.loft.bytes (c * 8388608 + a) n

/-- A little-endian number in a Loft. -/
def State.loftLe (s : State) (c a n : Nat) : Nat := leNat (s.loftBytes c a n)

/-- Marks or clears the poison of a Loft granule. -/
def State.poisonLoft (s : State) (c g : Nat) (b : Bool) : State :=
  s.updMem (fun m => { m with loftPoison := Marks.put m.loftPoison (loftKey c g) b })

/-- One quarter of a granule as a read meets it: a single-bit error is corrected and counted, a double-bit error poisons the
granule, which counts once (R281, R302). -/
def State.eccQuarter (s : State) (c g q : Nat) : State :=
  let k := loftKey c g * 4 + q
  match Tbl.get 0 s.mem.loftErr k with
  | 0 => s
  | 1 => ((s.updMem (fun m => { m with loftErr := Tbl.set 0 m.loftErr k 0 })).bump R.core_ECC_CORR 1 c).logCore 1 5 0 c
          0xFFFF 0 (64 * g)
  | _ =>
    let s' := (s.updMem (fun m => { m with loftErr := Tbl.set 0 m.loftErr k 0 })).poisonLoft c g true
    if s.loftBad c g then s' else (s'.bump R.core_ECC_POISON 1 c).logCore 2 5 0 c 0xFFFF 0 (64 * g)

/-- What a read of a Loft granule does to its pending errors (R281). -/
def State.eccLoft (s : State) (c g : Nat) : State :=
  (((s.eccQuarter c g 0).eccQuarter c g 1).eccQuarter c g 2).eccQuarter c g 3

/-- The same over `n` granules from `g`. -/
def State.eccLoftN (s : State) (c g n : Nat) : State :=
  if s.mem.loftErr = [] then s else (List.range n).foldl (fun s i => s.eccLoft c (g + i)) s

/-- Any of `n` granules from `g` is poisoned. -/
def State.anyBad (s : State) (c g n : Nat) : Bool := (List.range n).any (fun i => s.loftBad c (g + i))

/-- A whole-granule write: the bytes, the poison mark, and no pending error left (R279, R281). -/
def State.putGran (s : State) (c g : Nat) (bs : List Byte) (bad : Bool) : State :=
  s.updMem (fun m => { m with
    loft := m.loft.write (c * 8388608 + 64 * g) bs
    loftPoison := Marks.put m.loftPoison (loftKey c g) bad
    loftClamp := Marks.clear m.loftClamp (64 * loftKey c g) 64
    loftErr := Tbl.clearRange m.loftErr (loftKey c g * 4) 4 })

/-- The granule count that covers bytes [a, a + n). -/
def granSpan (a n : Nat) : Nat := if n = 0 then 0 else (a + n - 1) / 64 - a / 64 + 1

/-- A write of bytes at a Loft address: a granule wholly covered is written clean, another is read, merged and keeps its
poison (R281); bytes past the end of the Loft are not written. -/
def State.putBytes (s : State) (c a : Nat) (bs : List Byte) : State :=
  let bs := bs.take (8388608 - a)
  let n := bs.length
  let g0 := a / 64
  let s := (List.range (granSpan a n)).foldl (fun s i =>
    let g := g0 + i
    if a ≤ 64 * g ∧ 64 * g + 64 ≤ a + n then
      (s.poisonLoft c g false).updMem (fun m => { m with loftErr := Tbl.clearRange m.loftErr (loftKey c g * 4) 4 })
    else s.eccLoft c g) s
  s.updMem (fun m => { m with loft := m.loft.write (c * 8388608 + a) bs, loftClamp := Marks.clear m.loftClamp (c * 8388608 + a) n })

/-- Poisons every granule of `n` bytes from a Loft address that lies in the Loft. -/
def State.poisonBytes (s : State) (c a n : Nat) : State :=
  (List.range (granSpan a n)).foldl (fun s i => if a / 64 + i < 131072 then s.poisonLoft c (a / 64 + i) true else s) s

/-- The scrub of R283: every byte of the Loft is zero and every poison bit clear. -/
def State.scrubLoft (s : State) (c : Nat) : State :=
  s.updMem (fun m => { m with
    loft := m.loft.zero (c * 8388608) 8388608
    loftPoison := Marks.clear m.loftPoison (c * 131072) 131072
    loftClamp := Marks.clear m.loftClamp (c * 8388608) 8388608
    loftErr := Tbl.clearRange m.loftErr (c * 524288) 524288 })

/-! ### The Granary (R419 to R427) -/

/-- The granules of the device: 24 stacks of 96 GiB (R419). -/
def granCount : Nat := 38654705664

/-- The HBM controller of a device granule (R420). -/
def stackOf (d : Nat) : Nat := (d / 16) % 24

/-- A Granary granule carries the poison code. -/
def State.granBad (s : State) (d : Nat) : Bool := Marks.has s.mem.granPoison d

/-- The row that holds a granule, as bits [33:0] of an entry of the repair list (R420, R551). -/
def hbmRow (d : Nat) : Nat :=
  let c := d / 384
  stackOf d + 32 * Nat.xor (c % 64) (c / 64 % 64) + 2048 * (Config.hbmPlace d % 2 ^ 23)

/-- Firmware counts an uncorrectable error in its row, and from the third on has the row to append to the repair list (R551). -/
def State.rowError (s : State) (d : Nat) : State :=
  let n := Tbl.get 0 s.mgmt.rowErrs (hbmRow d) + 1
  s.updMgmt (fun m => { m with rowErrs := Tbl.put m.rowErrs (hbmRow d) n, repairDue := if n = 3 then m.repairDue ++ [hbmRow d] else m.repairDue })

/-- What a read of a granule does to a pending error: a correctable one is corrected, written back and counted; an
uncorrectable one poisons the granule (R426) and counts in its row (R551). -/
def State.eccGran (s : State) (d : Nat) : State :=
  match Tbl.get 0 s.mem.granErr d with
  | 0 => s
  | 1 => ((s.updMem (fun m => { m with granErr := Tbl.set 0 m.granErr d 0 })).bump R.hbm_CE_COUNT 1 (stackOf d)).logErr
          1 0x0A 0 0xFF (512 + stackOf d) 0xFFFF (stackOf d) d
  | _ => ((((s.rowError d).updMem (fun m => { m with
            granErr := Tbl.set 0 m.granErr d 0
            granPoison := Marks.put m.granPoison d true
            granary := m.granary.zero (64 * d) 64 })).bump R.hbm_UE_COUNT 1 (stackOf d)).setWide
            R.hbm_UE_ADDR_LO R.live_UE_ADDR_HI d (stackOf d)).logErr 2 0x0A 0 0xFF (512 + stackOf d) 0xFFFF (stackOf d) d

/-- Counts a granule read (`dir` 0) or written (1) at its controller, in units of 1,024 (R439). -/
def State.countGran (s : State) (d dir : Nat) : State :=
  let k := 2 * stackOf d + dir
  let n := Tbl.get 0 s.mem.granLeft k + 1
  let s := s.updMem (fun m => { m with granLeft := Tbl.set 0 m.granLeft k (n % 1024) })
  if n = 1024 then s.bump (if dir = 0 then R.hbm_RD_GRAN else R.hbm_WR_GRAN) 1 (stackOf d) else s

/-- A granule read: the state after it, its bytes and its poison; a poisoned granule delivers zeros, and counts in POISON_RD where the read
finds the poison code stored (R426). -/
def State.readGran (s : State) (d : Nat) : State × List Byte × Bool :=
  let stored := s.granBad d
  let s := (s.eccGran d).countGran d 0
  if s.granBad d then (if stored then s.bump R.hbm_POISON_RD 1 (stackOf d) else s, List.replicate 64 0, true)
  else (s, s.mem.granary.bytes (64 * d) 64, false)

/-- Reads granules one after the other (R426): the state after the reads, and whether every granule exists and reads clean. -/
def State.readAll (s : State) (ds : List (Option Nat)) : State × Bool :=
  ds.foldl (fun acc d => match d with
    | some d => let r := acc.1.readGran d
                (r.1, acc.2 && !r.2.2)
    | none => (acc.1, false)) (s, true)

/-- A whole-granule write; a poisoned granule carries zero bytes (R425). -/
def State.writeGran (s : State) (d : Nat) (bs : List Byte) (bad : Bool) : State :=
  (s.updMem (fun m => { m with
    granary := if bad then m.granary.zero (64 * d) 64 else m.granary.write (64 * d) (bs.take 64)
    granPoison := Marks.put m.granPoison d bad
    granErr := Tbl.set 0 m.granErr d 0 })).countGran d 1

/-- Bytes of the Granary by device byte address, without the accounting of a granule read. -/
def State.granBytes (s : State) (a n : Nat) : List Byte := s.mem.granary.bytes a n

/-- A little-endian number in the Granary. -/
def State.granLe (s : State) (a n : Nat) : Nat := leNat (s.granBytes a n)

/-- Writes bytes of the Granary by device byte address, the granules' poison unchanged. -/
def State.putGranBytes (s : State) (a : Nat) (bs : List Byte) : State :=
  s.updMem (fun m => { m with granary := m.granary.write a bs })

/-- Zeroes `n` granules from `d` and clears their poison. -/
def State.zeroGrans (s : State) (d n : Nat) : State :=
  s.updMem (fun m => { m with
    granary := m.granary.zero (64 * d) (64 * n)
    granPoison := Marks.clear m.granPoison d n
    granErr := Tbl.clearRange m.granErr d n })

/-! ### The trail (R653 to R659) -/

/-- Adds an event record to a partition's trail, to be written at its next publication (R659). -/
def State.trailEv (s : State) (p : Nat) (type units : Nat) (body : List (Nat × Nat × Nat)) : State :=
  if (s.part p).trailOn then
    s.updPart p (fun q => { q with events := q.events ++
      [{ type := BitVec.ofNat 8 type, units := units, frame := BitVec.ofNat 32 (s.frameSeq p), body := body }] })
  else s

/-- An event record for the enabled partition of a core, if it has one. -/
def State.trailCore (s : State) (c : Nat) (type units : Nat) (body : List (Nat × Nat × Nat)) : State :=
  match s.enabledOwner c with
  | some p => s.trailEv p type units body
  | none => s

/-- A WSET record of a set of the partition's manifest (R658): the event's number, the bank and PROG_GEN. The version in the active bank is
the one that an accepted flip brings. -/
def State.trailWset (s : State) (c set version event bank gen : Nat) : State :=
  match s.enabledOwner c with
  | some p =>
    if !(s.part p).manifest.contains (c, set) then s
    else
    let s := s.updPart p (fun q => { q with wsGen := q.wsGen + 1 })
    let w := Tbl.get {} (s.core c).sets set
    let inForce := if event = 1 then version else if w.active = 0 then w.verA else w.verB
    s.trailEv p 0x09 1 [(20, 2, c), (22, 2, set), (24, 2, inForce), (26, 1, event), (27, 1, bank), (28, 4, gen),
      (32, 4, (s.part p).wsGen)]
  | none => s

/-- Records a core error (R302): the code and the engine. -/
def State.coreErr (s : State) (c : Nat) (e : Engine) (code : Nat) : State :=
  ((s.wr R.core_CORE_ERR code c).wr R.core_CORE_ERR_ENG e.num c).wr R.core_CORE_ERR_VALID 1 c

end Sys2Proof.Machine
end

