-- ==== Sys2Proof/Machine/Engine.lean ====
section
/-! DEFINITION. What every engine does with every command: the common header (R166), its waits (R273, R276), reserved bits
(R267), retirement (R191, R275) and the hazard detector of debug mode (R296 to R299). -/

namespace Sys2Proof

/-! ### The common header (R166) -/

/-- OPCODE. -/
def Cmd.opcode (c : Cmd) : Nat := c.fld 0 8
/-- WAIT_TALLY. -/
def Cmd.waitTally (c : Cmd) : Nat := c.fld 8 6
/-- WAIT_EN. -/
def Cmd.waitEn (c : Cmd) : Bool := c.fld 14 1 == 1
/-- SIG_EN. -/
def Cmd.sigEn (c : Cmd) : Bool := c.fld 15 1 == 1
/-- WAIT_VALUE. -/
def Cmd.waitValue (c : Cmd) : Nat := c.fld 16 16
/-- SIG_TALLY. -/
def Cmd.sigTally (c : Cmd) : Nat := c.fld 32 6
/-- SIG_ADD. -/
def Cmd.sigAdd (c : Cmd) : Nat := c.fld 40 8
/-- FQ. -/
def Cmd.fq (c : Cmd) : Nat := c.fld 48 4
/-- FQ_EN. -/
def Cmd.fqEn (c : Cmd) : Bool := c.fld 52 1 == 1
/-- FQ_COUNT. -/
def Cmd.fqCount (c : Cmd) : Nat := c.fld 64 16

/-- The reserved bits of a command as (lowest bit, width), by opcode: those of the header and those of the body tables. -/
def reservedOf (op : Nat) : List (Nat × Nat) :=
  [(38, 2), (53, 11)] ++
  match op with
  | 0x00 => [(80, 176)]
  | 0x01 => [(80, 176)]
  | 0x02 => [(98, 158)]
  | 0x03 => [(82, 2), (88, 8), (112, 144)]
  | 0x20 => [(92, 4), (167, 1), (201, 55)]
  | 0x21 => [(96, 160)]
  | 0x40 => [(92, 4), (120, 8), (160, 96)]
  | 0x41 => [(92, 4), (120, 8), (160, 96)]
  | 0x42 => [(92, 4), (120, 8), (160, 96)]
  | 0x43 => [(92, 4), (120, 8), (160, 96)]
  | 0x44 => [(92, 4), (120, 8), (160, 96)]
  | 0x45 => [(92, 4), (120, 8), (160, 96)]
  | 0x60 => [(183, 1), (232, 24)]
  | 0x61 => [(183, 1), (232, 24)]
  | 0x62 => [(183, 1), (232, 24)]
  | 0x63 => [(183, 1), (232, 24)]
  | 0x64 => [(183, 1), (232, 24)]
  | 0x65 => [(187, 1), (240, 16)]
  | 0xA0 => [(137, 7), (172, 4), (225, 31)]
  | 0xA1 => [(119, 1), (137, 7), (172, 4), (225, 31)]
  | 0xA2 => [(130, 126)]
  | 0xA3 => [(159, 97)]
  | 0xA4 => [(150, 42)]
  | 0xA5 => [(84, 172)]
  | 0xA6 => [(158, 98)]
  | 0xA7 => [(129, 127)]
  | 0xA8 => [(206, 50)]
  | _ => []

/-- A reserved bit of the command is set. -/
def Cmd.rsvdSet (c : Cmd) : Bool := (reservedOf c.opcode).any (fun r => c.fld r.1 r.2 != 0)

end Sys2Proof

namespace Sys2Proof.Machine

/-! ### Waits -/

/-- The tally wait of the header is met (R276). -/
def State.tallyMet (s : State) (c : Nat) (cmd : Cmd) : Bool :=
  !cmd.waitEn || reached (s.rd R.core_TALLY c cmd.waitTally) cmd.waitValue

/-- The fetch-queue wait of the header is met (R276). -/
def State.fqMet (s : State) (c : Nat) (cmd : Cmd) : Bool :=
  !cmd.fqEn || reached (s.rd R.core_FQ_CPL c cmd.fq) cmd.fqCount

/-- The engine executes commands: it is running or waiting, the machine is alive and its partition is not frozen. -/
def State.runnable (s : State) (c : Nat) (e : Engine) : Bool :=
  let st := s.rd (engState e) c
  s.alive && (st == 1 || st == 2 || st == 3) &&
    match s.owner c with
    | some p => s.pstate p == 3
    | none => false

/-- The core's engines and queues go on: the machine runs, no hazard or watchdog has stopped all four engines of the core, and its partition is
not frozen (R79, R298, R299). -/
def State.goesOn (s : State) (c : Nat) : Bool :=
  s.alive && !([R.core_M_STATE, R.core_V_STATE, R.core_T_STATE, R.core_W_STATE].all (fun f => s.rd f c == 5)) &&
    match s.owner c with
    | some p => s.pstate p != 5
    | none => true

/-- Accounts for the reading of a command, once (R267). -/
def State.readHead (s : State) (c : Nat) (e : Engine) (cmd : Cmd) : State :=
  if Marks.has (s.core c).headRead e.num then s
  else
    let s := s.updCore c (fun k => { k with headRead := Marks.put k.headRead e.num true })
    if cmd.rsvdSet then s.bump R.core_CMD_RSVD 1 c else s

/-- HEAD_WAIT of the matrix engine (R197). -/
def State.headWait (s : State) (c : Nat) (e : Engine) (v : Nat) : State :=
  match e with
  | .matrix => s.wr R.mx_HEAD_WAIT v c
  | _ => s

/-! ### Retirement -/

/-- The counter of the commands that an engine has retired, where it has one. -/
def State.countRetired (s : State) (c : Nat) : Engine → State
  | .matrix => s.bump R.mx_MX_RETIRED 1 c
  | .vector => s.bump R.vec_V_RETIRED 1 c
  | _ => s

/-- The signal of a retiring command (R166, R275). -/
def State.signal (s : State) (c : Nat) (cmd : Cmd) : State :=
  if cmd.sigEn then s.raise c cmd.sigTally cmd.sigAdd else s

/-- The engine goes on at a list address; one whose 32 bytes lie beyond the Loft stops it with code 0x11 (R273). -/
def State.goTo (s : State) (c : Nat) (e : Engine) (pc : Nat) : State :=
  let s := s.updCore c (fun k => { k with headRead := Marks.put k.headRead e.num false })
  if pc < 262144 then s.wr (engPc e) pc c
  else ((s.setEng c e 5).coreErr c e 0x11).coreFatal 0x05 0x11 c

/-- The engine goes on at the next command of its list. -/
def State.goNext (s : State) (c : Nat) (e : Engine) : State := s.goTo c e (s.rd (engPc e) c + 1)

/-- A command retires: it is counted, raises its tally, and the engine goes on at the next command. -/
def State.retire (s : State) (c : Nat) (e : Engine) (cmd : Cmd) : State :=
  ((s.countRetired c e).signal c cmd).goNext c e

/-- Every earlier command of the engine has retired: for the matrix engine, no product is in flight (R191, R271). -/
def State.drained (s : State) (c : Nat) : Engine → Bool
  | .matrix => (s.core c).products.isEmpty
  | _ => true

/-- An unknown opcode or an invalid QWAIT: the engine stops, and the partition is reset with code 0x10 (R266, R273). -/
def State.unknown (s : State) (c : Nat) (e : Engine) : State :=
  ((s.setEng c e 5).coreErr c e 0x10).coreFatal 0x05 0x10 c

/-! ### The hazard detector (R296 to R299) -/

/-- A run of Loft granules: the first and how many. -/
abbrev Run := Nat × Nat

/-- Two runs meet. -/
def Run.meets (a b : Run) : Bool := decide (a.1 < b.1 + b.2) && decide (b.1 < a.1 + a.2)

/-- The granules that two runs share: the first and how many. -/
def Run.shared (a b : Run) : Run :=
  (max a.1 b.1, min (a.1 + a.2) (b.1 + b.2) - max a.1 b.1)

/-- The Loft rows of a FETCH or STORE (R290, R291). -/
def xferRuns (cmd : Cmd) : List Run :=
  (List.range (cmd.fld 160 12 + 1)).map (fun r => (cmd.fld 120 17 + r * cmd.fld 208 17, cmd.fld 144 16 + 1))

/-- What the detector found: the kind, the other engine, the granules in conflict, whether the access is a write, the queue,
the count at detection, the value that would have ended the conflict, and the other command's address (R298). -/
structure Hazard where
  kind : Nat
  other : Nat
  run : Run
  write : Bool
  queue : Nat := 0xFF
  have_ : Nat := 0
  need : Nat := 0
  otherPc : Nat := 0x3FFFF
  /-- the offending command's address, where it is no longer the engine's present one -/
  pc : Option Nat := none
  deriving DecidableEq, Repr

/-- The first of `xs` that a run meets, with what they share. -/
def firstMeet (a : Run) (xs : List Run) : Option Run := (xs.find? (fun b => a.meets b)).map (fun b => a.shared b)

/-- FETCH_PENDING: the access meets the write set of a fetch whose count has not risen. -/
def State.hazFetch (s : State) (c : Nat) (a : Run) (w : Bool) : Option Hazard :=
  (List.range 16).findSome? (fun q =>
    ((Tbl.get [] (s.core c).fqs q).zipIdx).findSome? (fun x =>
      (firstMeet a (xferRuns x.1.1)).map (fun r =>
        { kind := 1, other := 2, run := r, write := w, queue := q, have_ := s.rd R.core_FQ_CPL c q,
          need := (s.rd R.core_FQ_CPL c q + x.2 + 1) % 65536, otherPc := x.1.2 })))

/-- The Loft granules that a command in a store queue reads (R291). -/
def sqRuns (x : SqEnt) : List Run :=
  if x.op = 0xA1 then xferRuns x.cmd
  else if x.op = 0xA3 then [(x.cmd.fld 80 17, x.cmd.fld 97 16 + 1)]
  else if x.op = 0xA6 then [(x.cmd.fld 80 17, x.cmd.fld 105 16 + 1)]
  else if x.op = 0xA7 then [(x.cmd.fld 80 17, 1 + 2 * (x.cmd.fld 121 5 + 1))]
  else if x.op = 0xA8 then [(x.cmd.fld 80 17, granSpan 0 ((x.cmd.fld 101 12 + 1) * (if x.cmd.fld 97 4 = 1 then 2 else 4)))]
  else []

/-- STORE_PENDING: a write meets the read set of a store or send whose READ has not risen. -/
def State.hazStore (s : State) (c : Nat) (a : Run) : Option Hazard :=
  (List.range 8).findSome? (fun q =>
    (((Tbl.get [] (s.core c).sqs q).filter (fun x => !x.read)).zipIdx).findSome? (fun x =>
      (firstMeet a (sqRuns x.1)).map (fun r =>
        { kind := 2, other := 2, run := r, write := true, queue := 16 + q, have_ := s.rd R.core_SQ_READ c q,
          need := (s.rd R.core_SQ_READ c q + x.2 + 1) % 65536, otherPc := x.1.pc })))

/-- The slab of a product: its first granule and how many (R168). -/
def State.slabRun (s : State) (c : Nat) (p : Product) : Run :=
  (p.cmd.fld 168 17, 1 + 2 * (bitsOf (Tbl.get 0 (s.core c).tileStore
    ((Tbl.get {} (s.core c).sets (p.cmd.fld 80 12)).tileBase + p.cmd.fld 112 10)) 0 5 + 1))

/-- ENGINE_WRITE and ENGINE_READ: the access of another engine meets the slab of a product in flight, or its write meets the product's input.
Products are the commands that stay in flight beyond their step; FETCH, STORE and the sends have their own rows. -/
def State.hazEngine (s : State) (c : Nat) (e : Engine) (a : Run) (w : Bool) : Option Hazard :=
  if e = .matrix then none
  else
    let ps := (s.core c).products.filter (fun p => !p.failed)
    match ps.find? (fun p => a.meets (s.slabRun c p)) with
    | some p => some { kind := 3, other := 0, run := a.shared (s.slabRun c p), write := w, otherPc := p.pc }
    | none => if w then ps.findSome? (fun p => (firstMeet a p.reads).map (fun r =>
        { kind := 4, other := 0, run := r, write := true, otherPc := p.pc })) else none

/-- WINDOW: a write meets a window the core has open (4,096-byte units of R473). -/
def State.hazWindow (s : State) (c : Nat) (a : Run) : Option Hazard :=
  (List.range 16).findSome? (fun v =>
    let r : Run := (64 * s.rd R.wdw_BASE c v, 64 * (s.rd R.wdw_LEN c v + 1))
    if s.flag R.wdw_OPEN c v && a.meets r then
      some { kind := 5, other := 2, run := a.shared r, write := true } else none)

/-- LIST_WRITE: a write meets a list of the current frame, or, from the tick's cut on, the frame header (log entry 9). -/
def State.hazList (s : State) (c : Nat) (a : Run) : Option Hazard :=
  let hdr : List Run := if s.period ≤ s.cyc + 32 then [(s.rd R.core_FRAME_HDR c, 1)] else []
  (firstMeet a (hdr ++ (s.core c).lists.map (fun g => (g, 1)))).map (fun r => { kind := 7, other := 0, run := r, write := true })

/-- The granules of a list from an address, in 32-byte units, to its EOFR (R271). -/
def State.listGrans (s : State) (c : Nat) : Nat → Nat → List Nat
  | 0, _ => []
  | n + 1, pc =>
    if 262144 ≤ pc then []
    else match s.loftLe c (32 * pc) 1 with
      | 1 => [pc / 2]
      | 2 => (pc / 2) :: s.listGrans c n (s.loftLe c (32 * pc + 10) 3 % 2 ^ 18)
      | _ => if pc % 2 = 1 then (pc / 2) :: s.listGrans c n (pc + 1) else s.listGrans c n (pc + 1)

/-- One access of an engine against the tables of R297, the first row that matches. -/
def State.hazard (s : State) (c : Nat) (e : Engine) (a : Run) (w : Bool) : Option Hazard :=
  if a.2 = 0 then none
  else if 131072 < a.1 + a.2 then some { kind := 9, other := e.num, run := a, write := w }
  else match s.hazFetch c a w with
    | some h => some h
    | none =>
      match if w then s.hazStore c a else none with
      | some h => some h
      | none =>
        match s.hazEngine c e a w with
        | some h => some h
        | none => if w then (match s.hazWindow c a with
            | some h => some h
            | none => s.hazList c a) else none

/-- A write that a command placed earlier makes now, against what may have come under it since: a window, or a list. -/
def State.hazLate (s : State) (c : Nat) (runs : List Run) : Option Hazard :=
  if s.flag R.core_DEBUG c then
    runs.findSome? (fun a => match s.hazWindow c a with
      | some h => some h
      | none => s.hazList c a)
  else none

/-- The report of R298, 64 bytes. -/
def State.hazReport (s : State) (c : Nat) (e : Engine) (cmd : Cmd) (h : Hazard) : List Byte :=
  layout 64 [(0, 1, h.kind), (1, 1, e.num + 4 * h.other), (2, 3, h.pc.getD (s.rd (engPc e) c)), (5, 3, s.cyc), (8, 32, cmd.toNat),
    (40, 3, (64 * h.run.1) % 2 ^ 23), (43, 1, b2n h.write), (44, 3, 64 * h.run.2), (47, 1, h.queue), (48, 2, h.have_),
    (50, 2, h.need), (52, 3, h.otherPc), (56, 6, s.tickNum)]

/-- A hazard stops the core: the report is written, the partition-fatal error is logged, and with HZ_HOLD the partition is
frozen instead of reset (R298, R299). -/
def State.hazStop (s : State) (c : Nat) (e : Engine) (cmd : Cmd) (h : Hazard) : State :=
  let rep := s.hazReport c e cmd h
  let s := (List.range 16).foldl (fun s i => s.wr R.core_HZ_REPORT (leNat ((rep.drop (4 * i)).take 4)) c i) s
  let s := (s.stopCore c).wr R.core_HZ_VALID 1 c
  match s.owner c with
  | some p =>
    let s := s.logErr 3 0x05 h.kind p c 0xFFFF 0 (64 * h.run.1) (rep.take 24)
    if s.flag R.core_HZ_HOLD c then s.wr R.part_PSTATE 5 p else s.requestReset p 3
  | none => s

/-- In debug mode, the hazard of a command's accesses, if any: its reads and then its writes (R296, R297). -/
def State.findHazard (s : State) (c : Nat) (e : Engine) (reads writes : List Run) : Option Hazard :=
  if s.flag R.core_DEBUG c then
    match reads.findSome? (fun a => s.hazard c e a false) with
    | some h => some h
    | none => writes.findSome? (fun a => s.hazard c e a true)
  else none

/-- Goes on with a command's accesses, or stops the core on a hazard. -/
def State.guarded (s : State) (c : Nat) (e : Engine) (cmd : Cmd) (reads writes : List Run) (go : State → State) : State :=
  match s.findHazard c e reads writes with
  | some h => s.hazStop c e cmd h
  | none => go s

/-- The count that a QWAIT names, none where QTYPE and QNUM name no queue (R273). -/
def State.qcount (s : State) (c : Nat) (cmd : Cmd) : Option Nat :=
  let q := cmd.fld 84 4
  match cmd.fld 80 2 with
  | 0 => some (s.rd R.core_FQ_CPL c q)
  | 1 => if q < 8 then some (s.rd R.core_SQ_READ c q) else none
  | 2 => if q < 8 then some (s.rd R.core_SQ_DONE c q) else none
  | _ => none

/-- A wait begins whose value is 32,768 ahead of its count, the one distance that is neither reached nor within reach (kind 0x08 of
R297; log entry 15): a wait of the header, or a QWAIT's own. -/
def State.waitHazard (s : State) (c : Nat) (e : Engine) (cmd : Cmd) : Option Hazard :=
  let far := fun (h v : Nat) => (v + 65536 - h) % 65536 == 32768
  let t := s.rd R.core_TALLY c cmd.waitTally
  let q := s.rd R.core_FQ_CPL c cmd.fq
  if !s.flag R.core_DEBUG c || Marks.has (s.core c).headRead e.num then none
  else if cmd.waitEn && far t cmd.waitValue then
    some { kind := 8, other := e.num, run := (0, 0), write := false, have_ := t, need := cmd.waitValue }
  else if cmd.fqEn && far q cmd.fqCount then
    some { kind := 8, other := e.num, run := (0, 0), write := false, have_ := q, need := cmd.fqCount }
  else if cmd.opcode = 3 then
    match s.qcount c cmd with
    | some n => if far n (cmd.fld 96 16) then
        some { kind := 8, other := e.num, run := (0, 0), write := false, have_ := n, need := cmd.fld 96 16 } else none
    | none => none
  else none

/-- An engine has taken up a command: its reading is counted, and it runs. -/
def State.takeUp (s : State) (c : Nat) (e : Engine) (cmd : Cmd) : State := ((s.readHead c e cmd).setEng c e 1).headWait c e 0

/-- An engine takes up a command: it counts its reading, waits as the header states (the state then shows what it waits
for), and once the waits are met goes on to the body. -/
def State.engRun (s : State) (c : Nat) (e : Engine) (cmd : Cmd) (body : State → State) : State :=
  if s.runnable c e then
    match s.waitHazard c e cmd with
    | some h => s.hazStop c e cmd h
    | none =>
      if !s.tallyMet c cmd then ((s.readHead c e cmd).setEng c e 2).headWait c e 1
      else if !s.fqMet c cmd then ((s.readHead c e cmd).setEng c e 3).headWait c e 2
      else body (s.takeUp c e cmd)
  else s

end Sys2Proof.Machine
end

