-- ==== Sys2Proof/Machine/Governor.lean ====
section
/-! DEFINITION. The energy governor (R602 to R611, R186, R216): the levels of each tick, and the admission and release of
grants. Grants and levels are whole milliwatts, so the floors taken here decide every comparison as the exact values do. -/

namespace Sys2Proof.Machine

/-- The key of a holder in the governor's tables: its partition, or 64 for the program cap. -/
def Holder.key : Holder → Nat
  | .part p => p
  | .cap => 64

/-- What a holder holds, in mW. -/
def State.heldBy (s : State) (h : Holder) : Nat :=
  ((s.power.held.filter (fun g => g.holder == h)).map (·.mw)).foldl (· + ·) 0

/-- What the cores of a cluster hold, in mW. -/
def State.heldCluster (s : State) (cl : Nat) : Nat :=
  ((s.power.held.filter (fun g => g.core / 16 == cl)).map (·.mw)).foldl (· + ·) 0

/-- All grants held, in mW. -/
def State.heldAll (s : State) : Nat := (s.power.held.map (·.mw)).foldl (· + ·) 0

/-- What a core's products hold, in mW. -/
def State.heldCore (s : State) (c : Nat) : Nat :=
  ((s.power.held.filter (fun g => g.core == c && g.holder != .cap)).map (·.mw)).foldl (· + ·) 0

/-- The largest value a 16-bit register of 0.1 W shows. -/
def tenths (mw : Nat) : Nat := min (mw / 100) 0xFFFF

/-- Brings the registers that show held grants, and the peak of the tick, up to date for a holder and a core. -/
def State.syncHeld (s : State) (h : Holder) (c : Nat) : State :=
  let k := h.key
  let held := s.heldBy h
  let s := { s with power := { s.power with peak := Tbl.set 0 s.power.peak k (max (Tbl.get 0 s.power.peak k) held) } }
  let s := s.wr R.gov_HELD_W (tenths s.heldAll)
  match h with
  | .part p => (s.wr R.pgov_HELD (tenths held) p).wr R.mx_MX_GRANT (min (s.heldCore c) 0xFFFF) c
  | .cap => s.wr R.cap_USED_W (min (held / 1000) 0x7FF)

/-- A request fits: its level, its cluster's cap while throttled, the program cap, and FREEZE (R606, R616, R233). -/
def State.fits (s : State) (g : Grant) : Bool :=
  decide (s.heldBy g.holder + g.mw ≤ Tbl.get 0 s.power.level g.holder.key) &&
  (!bitOf (s.rd R.therm_THROT_CL) (g.core / 16) ||
    decide (100 * (s.heldCluster (g.core / 16) + g.mw) ≤ s.rd R.gov_THROT_FRAC * 59392)) &&
  (g.holder != .cap || decide (s.heldBy .cap + g.mw ≤ s.rd R.cap_CAP_W * 1000)) &&
  !s.flag R.gov_FREEZE

/-- The first waiting request of a holder (R606). -/
def State.headOf (s : State) (h : Holder) : Option Grant := s.power.waiting.find? (fun g => g.holder == h)

/-- Admits a holder's waiting requests in arrival order until one does not fit; `n` bounds their number. -/
def State.admitHolder (s : State) (h : Holder) : Nat → State
  | 0 => s
  | n + 1 =>
    match s.headOf h with
    | none => s
    | some g =>
      if s.fits g then
        (({ s with power := { s.power with waiting := s.power.waiting.erase g, held := s.power.held ++ [g] } }).syncHeld
          h g.core).admitHolder h n
      else s

/-- The holders in the order in which requests that fit in one cycle are admitted (R606). -/
def holderOrder : List Holder := (List.range 64).map Holder.part ++ [.cap]

/-- Admits every waiting request that fits (R606). -/
def State.admitAll (s : State) : State :=
  holderOrder.foldl (fun s h => s.admitHolder h s.power.waiting.length) s

/-- Places a request; one that is not admitted at once waits, and counts in GOV_DEFER of its partition. -/
def State.requestGrant (s : State) (g : Grant) : State :=
  let s := { s with power := { s.power with waiting := s.power.waiting ++ [g] } }
  let s := s.admitHolder g.holder s.power.waiting.length
  if s.power.waiting.contains g then
    match g.holder with
    | .part p => s.bump R.pgov_GOV_DEFER 1 p
    | .cap => s
  else s

/-- A grant with this owner is held. -/
def State.holds (s : State) (c id : Nat) (cap : Bool) : Bool :=
  s.power.held.any (fun g => g.core == c && g.id == id && ((g.holder == .cap) == cap))

/-- Releases the grants of a product or pass (R187, R216). -/
def State.release (s : State) (c id : Nat) (cap : Bool) : State :=
  let mine := fun (g : Grant) => g.core == c && g.id == id && ((g.holder == .cap) == cap)
  match s.power.held.find? mine with
  | none => s
  | some g =>
    ({ s with power := { s.power with held := s.power.held.filter (fun g => !mine g) } }).syncHeld g.holder c

/-- Releases a partition's matrix grants and withdraws its waiting requests (R604). -/
def State.dropGrants (s : State) (p : Nat) : State :=
  let s := { s with power := { s.power with
    held := s.power.held.filter (fun g => g.holder != Holder.part p)
    waiting := s.power.waiting.filter (fun g => g.holder != Holder.part p) } }
  (s.coresOf p).foldl (fun s c => s.syncHeld (Holder.part p) c) (s.syncHeld (Holder.part p) 0)

/-- The share of a holder in mW (R604). -/
def State.shareOf (s : State) : Holder → Nat
  | .part p => if s.pstate p = 1 ∨ s.pstate p = 2 ∨ s.pstate p = 3 ∨ s.pstate p = 5 then s.main p 44 2 * 1000 else 0
  | .cap => s.rd R.cap_CAP_W * 1000

/-- The effective ceiling in 10 mW units and what sets it: CEIL_W, 75 A × VIN, COOL_FAULT_W (R603). -/
def State.ceilEffective (s : State) : Nat × Bool × Bool :=
  let a := s.rd R.gov_CEIL_W * 100
  let v := 75 * s.power.vin
  let k := s.rd R.gov_COOL_FAULT_W * 100
  let cool := s.flag R.therm_COOL_FAULT
  let m := min a (if cool then min v k else v)
  (m, decide (m = v ∧ v < a), decide (cool ∧ m = k ∧ k < a))

/-- The share, the step and the level of one holder, with the values its registers show (R604): the ceiling `g`, the sum of the shares
`total`, whether the shares are scaled, and the step before it is shared out. -/
def State.holderLevel (s : State) (g total : Nat) (scaled : Bool) (stepNum : Nat) (h : Holder) : State :=
  let k := h.key
  let share := s.shareOf h
  let eff := if scaled then share * g / (1075 * total) else share
  let step := if g = 0 then 0
    else if scaled then (if total = 0 then 0 else stepNum * share / (43 * total))
    else stepNum * share * 1075 / (43 * g)
  let level := min eff (Tbl.get 0 s.power.peak k + step)
  let s := s.updPower (fun w => { w with
    level := Tbl.set 0 w.level k level
    share := Tbl.set 0 w.share k eff
    step := Tbl.set 0 w.step k step
    peak := Tbl.set 0 w.peak k (s.heldBy h) })
  match h with
  | .part p => (((s.wr R.pgov_SHARE_EFF (tenths eff) p).wr R.pgov_LEVEL (tenths level) p).wr R.pgov_PEAK
      (tenths (Tbl.get 0 s.power.lastPeak k)) p).wr R.pgov_STEP (tenths step) p
  | .cap => s

/-- The levels of a tick (R603, R605), computed at c 0 of its edge. -/
def State.governorLevels (s : State) : State :=
  let x := s.ceilEffective
  let g := x.1 * 10000 - s.rd R.gov_OTHER_RES * 1075000
  let total := (holderOrder.map s.shareOf).foldl (· + ·) 0
  let scaled := decide (g < total * 1075)
  let stepNum := s.rd R.gov_SLEW * s.period * 120
  let s := ((((s.wr R.gov_CEIL_EFF (x.1 / 100)).wr R.gov_RED_VIN (b2n x.2.1)).wr R.gov_RED_COOL (b2n x.2.2)).wr R.gov_GCEIL
    (min (g / 107500) 0xFFFF)).wr R.gov_STEP_G (min (stepNum / 4300) 0xFFFF)
  let s := s.wr R.gov_SCALE (if scaled then g * 32768 / (total * 1075) else 0x8000)
  let s := s.updPower (fun w => { w with ceilEff := x.1, gceil := g, lastPeak := w.peak })
  holderOrder.foldl (fun s h => s.holderLevel g total scaled stepNum h) s

end Sys2Proof.Machine
end

