-- ==== Sys2Proof/Machine/Weights.lean ====
section
/-! DEFINITION. Weight sets, weight images, bank states and flip groups, and the health of the arrays: the operations that the
weight engine's meanings share (chapters 3, 5 and 6). -/

namespace Sys2Proof.Machine

/-! ### Weight sets (R176) -/

/-- The weight-set table entry of a core. -/
def State.wset (s : State) (c w : Nat) : WSet := Tbl.get {} (s.core c).sets w

/-- Changes a weight-set table entry. -/
def State.updSet (s : State) (c w : Nat) (f : WSet → WSet) : State :=
  s.updCore c (fun k => { k with sets := Tbl.upd {} k.sets w f })

/-- The state of a bank. -/
def WSet.st (w : WSet) (b : Nat) : Nat := if b = 0 then w.stA else w.stB
/-- The version field of a bank. -/
def WSet.ver (w : WSet) (b : Nat) : Nat := if b = 0 then w.verA else w.verB
/-- The image last used for a bank. -/
def WSet.img (w : WSet) (b : Nat) : Nat := if b = 0 then w.imgA else w.imgB
/-- Sets the state of a bank. -/
def WSet.setSt (w : WSet) (b v : Nat) : WSet := if b = 0 then { w with stA := v } else { w with stB := v }
/-- Sets the version field of a bank. -/
def WSet.setVer (w : WSet) (b v : Nat) : WSet := if b = 0 then { w with verA := v } else { w with verB := v }
/-- Records the image of a bank. -/
def WSet.setImg (w : WSet) (b v : Nat) : WSet := if b = 0 then { w with imgA := v } else { w with imgB := v }

/-- The four words of an entry (R176). -/
def WSet.words (w : WSet) : List Nat :=
  [b2n w.valid + 2 * w.fmt + 8 * w.active + 16 * w.stA + 128 * w.stB + 65536 * w.verA,
   w.verB + 65536 * w.tiles, w.tileBase, w.progGen % 2 ^ 32]

/-- The VALID sets of a core, with their numbers. -/
def State.validSets (s : State) (c : Nat) : List (Nat × WSet) := (s.core c).sets.filter (fun e => e.2.valid)

/-- A piece word's fields (R176): ARRAY, SEG, VBLK0, NBLK, ROW0, COL0. -/
structure Piece where
  array : Nat
  seg : Nat
  vblk0 : Nat
  nblk : Nat
  row0 : Nat
  col0 : Nat
  deriving DecidableEq, Repr

/-- Reads a piece word. -/
def Piece.of (w : Nat) : Piece :=
  ⟨bitsOf w 0 6, bitsOf w 6 6, bitsOf w 12 5, bitsOf w 17 5, bitsOf w 22 5, bitsOf w 27 5⟩

/-- A tile descriptor's COLGRP. -/
def tileCols (w : Nat) : Nat := bitsOf w 0 5
/-- A tile descriptor's NPIECE. -/
def tilePieces (w : Nat) : Nat := bitsOf w 6 6
/-- A tile descriptor's PIECE_BASE. -/
def tileBaseOf (w : Nat) : Nat := bitsOf w 16 16

/-- The tile descriptor of a set's tile. -/
def State.tileWord (s : State) (c : Nat) (w : WSet) (t : Nat) : Nat := Tbl.get 0 (s.core c).tileStore (w.tileBase + t)

/-- The pieces of a tile. -/
def State.tilePieceList (s : State) (c : Nat) (tw : Nat) : List Piece :=
  (List.range (tilePieces tw + 1)).map (fun i => Piece.of (Tbl.get 0 (s.core c).pieceStore (tileBaseOf tw + i)))

/-- All pieces of a set, each with the COLGRP of its tile. -/
def State.setPieces (s : State) (c : Nat) (w : WSet) : List (Piece × Nat) :=
  (List.range (w.tiles + 1)).flatMap (fun t =>
    let tw := s.tileWord c w t
    (s.tilePieceList c tw).map (fun p => (p, tileCols tw)))

/-- The arrays of a set, ascending. -/
def State.setArrays (s : State) (c : Nat) (w : WSet) : List Nat :=
  (List.range 64).filter (fun a => (s.setPieces c w).any (fun p => p.1.array == a))

/-- The flip group of a list of arrays: grown by every set that has a piece on it (R219); `n` bounds the rounds. -/
def State.growGroup (s : State) (c : Nat) (arrays : List Nat) : Nat → List Nat
  | 0 => arrays
  | n + 1 =>
    let touched := (s.validSets c).filter (fun e => (s.setArrays c e.2).any (fun a => arrays.contains a))
    let all := (List.range 64).filter (fun a => arrays.contains a || touched.any (fun e => (s.setArrays c e.2).contains a))
    if all = arrays then arrays else s.growGroup c all n

/-- The flip group of a set (R219): none for a number without a VALID set. -/
def State.flipGroup (s : State) (c w : Nat) : List Nat :=
  if (s.wset c w).valid then s.growGroup c (s.setArrays c (s.wset c w)) 64 else []

/-- The active bank of an array: 0 for A, 1 for B. -/
def State.activeBank (s : State) (c a : Nat) : Nat := b2n (Marks.has (s.core c).activeB a)

/-- The bank of an array that an accepted flip in progress makes active, else its active bank: no pass may join arrays that differ in it into
one flip group (R219, R220; DESIGN CHOICE, log entry 61). -/
def State.nextBank (s : State) (c a : Nat) : Nat :=
  match (s.core c).flip with
  | some f => if f.accepted && f.arrays.contains a then 1 - s.activeBank c a else s.activeBank c a
  | none => s.activeBank c a

/-- The VALID sets with a piece on any of the arrays. -/
def State.setsOn (s : State) (c : Nat) (arrays : List Nat) : List (Nat × WSet) :=
  (s.validSets c).filter (fun e => (s.setArrays c e.2).any (fun a => arrays.contains a))

/-! ### Weight images (R203, R204) -/

/-- Rounds up to a multiple of 64. -/
def up64 (n : Nat) : Nat := (n + 63) / 64 * 64

/-- What the engine reads from an image at acceptance (R692): the header's fields, the three tables, and where its parts lie
(byte addresses in the Granary). -/
structure Img where
  magic : Nat
  hdrFmt : Nat
  fmt : Nat
  wsid : Nat
  version : Nat
  tiles : Nat
  tileBase : Nat
  npiece : Nat
  pieceBase : Nat
  layout : Nat
  dataLen : Nat
  checkOk : Bool
  tileWords : List Nat
  pieceWords : List Nat
  checks : List Nat
  layoutCrc : Nat
  dataAt : Nat
  endAt : Nat
  deriving DecidableEq, Repr

/-- The bytes of a piece's data block: rows, columns, and bits per weight of the format, padded to 64 bytes (R204). -/
def blockBytes (fmt cols : Nat) (p : Piece) : Nat :=
  up64 ((32 * (p.nblk + 1) * (32 * (cols + 1)) * (if fmt = 2 then 2 else 4) + 7) / 8)

/-- The COLGRP that goes with each piece of a piece table, tile by tile. -/
def pieceCols (tileWords : List Nat) : List Nat :=
  tileWords.flatMap (fun tw => List.replicate (tilePieces tw + 1) (tileCols tw))

/-- Reads an image at device granule 64 × IMG (R207). -/
def State.image (s : State) (img : Nat) : Img :=
  let a := img * 4096
  let tiles := s.granLe (a + 10) 2
  let npiece := s.granLe (a + 14) 2
  let fmt := s.granLe (a + 5) 1
  let tileAt := a + 128
  let pieceAt := a + up64 (128 + 4 * (tiles + 1))
  let checkAt := pieceAt + up64 (4 * npiece)
  let scaleAt := checkAt + up64 (4 * npiece)
  let tileWords := (List.range (tiles + 1)).map (fun t => s.granLe (tileAt + 4 * t) 4)
  let pieceWords := (List.range npiece).map (fun t => s.granLe (pieceAt + 4 * t) 4)
  let dataAt := scaleAt + (tileWords.map (fun tw => 64 * (tileCols tw + 1))).foldl (· + ·) 0
  let dataLen := s.granLe (a + 24) 8
  { magic := s.granLe a 4, hdrFmt := s.granLe (a + 4) 1, fmt := fmt, wsid := s.granLe (a + 6) 2 % 4096,
    version := s.granLe (a + 8) 2, tiles := tiles, tileBase := s.granLe (a + 12) 2, npiece := npiece,
    pieceBase := s.granLe (a + 16) 2, layout := s.granLe (a + 20) 4, dataLen := dataLen,
    checkOk := crc32c (s.granBytes a 124) == s.granLe (a + 124) 4
    tileWords := tileWords, pieceWords := pieceWords
    checks := (List.range npiece).map (fun t => s.granLe (checkAt + 4 * t) 4)
    layoutCrc := crc32c (s.granBytes tileAt (4 * (tiles + 1)) ++ s.granBytes pieceAt (4 * npiece))
    dataAt := dataAt, endAt := dataAt + dataLen }

/-- The data block sizes of an image, in piece order. -/
def Img.blocks (m : Img) : List Nat :=
  (m.pieceWords.zip (pieceCols m.tileWords)).map (fun x => blockBytes m.fmt x.2 (Piece.of x.1))

/-- What reading an image's header and tables does to pending errors of its granules (R426). -/
def State.eccImage (s : State) (img : Nat) : State :=
  let s := (s.eccGran (64 * img)).eccGran (64 * img + 1)
  let m := s.image img
  if m.checkOk then
    (List.range (m.dataAt / 64 - 64 * img)).foldl (fun s i => s.eccGran (64 * img + i)) s
  else s

/-- Reads the data blocks of an image in a pass (R204, R426). -/
def State.readBlocks (s : State) (img : Nat) : State :=
  let m := s.image img
  (s.readAll ((List.range (m.blocks.foldl (· + ·) 0 / 64)).map (fun i => some (m.dataAt / 64 + i)))).1

/-- The checks of R692 pass for a set and version; a FORMAT that names no format fails them too (DESIGN CHOICE, log entry 62). -/
def Img.ok (m : Img) (wsid version : Nat) : Bool :=
  m.magic == 0x4B585749 && m.hdrFmt == 1 && m.fmt < 3 && m.checkOk && m.layout == m.layoutCrc && m.wsid == wsid &&
    m.version == version && m.dataLen == m.blocks.foldl (· + ·) 0

/-- Every bushel that the image touches lies in the partition's VALID extents (R693). -/
def State.imgAllowed (s : State) (p img : Nat) (m : Img) : Bool :=
  let b0 := img * 4096 / 2097152
  let b1 := (max m.endAt (img * 4096 + 128) - 1) / 2097152
  (List.range (b1 - b0 + 1)).all (fun i => s.holdsBushel p (b0 + i))

/-- Two pieces on one array overlap in both row band and column group (R178). -/
def piecesOverlap (p : Piece) (pc : Nat) (q : Piece) (qc : Nat) : Bool :=
  p.array == q.array && decide (p.row0 ≤ q.row0 + q.nblk) && decide (q.row0 ≤ p.row0 + p.nblk) &&
    decide (p.col0 ≤ q.col0 + qc) && decide (q.col0 ≤ p.col0 + pc)

/-- No two members of a list are related. -/
def noPair {α : Type} (r : α → α → Bool) : List α → Bool
  | [] => true
  | a :: t => t.all (fun b => !r a b) && noPair r t

/-- Splits the piece table tile by tile. -/
def tileGroups : List Nat → List Nat → List (Nat × List Piece)
  | [], _ => []
  | tw :: r, ps =>
    (tileCols tw, (ps.take (tilePieces tw + 1)).map Piece.of) :: tileGroups r (ps.drop (tilePieces tw + 1))

/-- An image's layout keeps R178 by itself: pieces in range, distinct ascending arrays in each tile, no overlap. -/
def Img.layoutOk (m : Img) : Bool :=
  let groups := tileGroups m.tileWords m.pieceWords
  let all := groups.flatMap (fun g => g.2.map (fun p => (p, g.1)))
  (m.pieceWords.length == (pieceCols m.tileWords).length) &&
  groups.all (fun g => decide (g.2.Pairwise (fun a b => a.array < b.array))) &&
  all.all (fun x => decide (x.1.row0 + x.1.nblk ≤ 31) && decide (x.1.vblk0 + x.1.nblk ≤ 31) && decide (x.1.col0 + x.2 ≤ 31)) &&
  noPair (fun x y => piecesOverlap x.1 x.2 y.1 y.2) all

/-- An image's tables and pieces keep clear of the other sets (R178, R206): its tables of every VALID set's, its pieces of those of any set that
is not EMPTY in the bank. -/
def State.layoutFree (s : State) (c set bank : Nat) (m : Img) : Bool :=
  let groups := tileGroups m.tileWords m.pieceWords
  let all := groups.flatMap (fun g => g.2.map (fun p => (p, g.1)))
  decide (m.tileBase + m.tiles < 16384) && decide (m.pieceBase + m.npiece ≤ 65536) &&
  ((s.validSets c).filter (fun e => e.1 != set)).all (fun e =>
    let w := e.2
    (decide (m.tileBase + m.tiles < w.tileBase) || decide (w.tileBase + w.tiles < m.tileBase)) &&
    (decide (m.pieceBase + m.npiece ≤ w.pieceBase) || decide (w.pieceBase + w.nPiece ≤ m.pieceBase)) &&
    (w.st bank == 0 || (s.setPieces c w).all (fun q => all.all (fun x => !piecesOverlap x.1 x.2 q.1 q.2))))

/-- The arrays of an image, ascending. -/
def Img.arrays (m : Img) : List Nat :=
  (List.range 64).filter (fun a => m.pieceWords.any (fun p => (Piece.of p).array == a))

/-- The weights of a data block in row and column order, none where the block is invalid (R204). -/
def blockWeights (fmt : Nat) (bs : List Byte) (count : Nat) : Option (List Int) :=
  let n := leNat bs
  let bits := if fmt = 2 then 2 else 4
  let vs := (List.range count).map (fun i => sgn bits (bitsOf n (bits * i) bits))
  let lim : Int := if fmt = 0 then 7 else if fmt = 1 then 3 else 1
  if vs.all (fun v => decide (-lim ≤ v) && decide (v ≤ lim)) then some vs else none

/-- The blocks of an image with their pieces: COLGRP, piece, bytes and check word. -/
def State.imgBlocks (s : State) (m : Img) : List (Nat × Piece × List Byte × Nat) :=
  let sizes := m.blocks
  let offs := sizes.foldl (fun (acc : List Nat × Nat) n => (acc.1 ++ [acc.2], acc.2 + n)) ([], m.dataAt)
  (((pieceCols m.tileWords).zip (m.pieceWords.map Piece.of)).zip ((offs.1.zip sizes).zip m.checks)).map
    (fun x => (x.1.1, x.1.2, s.granBytes x.2.1.1 x.2.1.2, x.2.2))

/-- The weights of a block that passes its checks (R204). -/
def goodBlock (fmt : Nat) (x : Nat × Piece × List Byte × Nat) : Option (List Int) :=
  if crc32c x.2.2.1 = x.2.2.2 then blockWeights fmt x.2.2.1 (32 * (x.2.1.nblk + 1) * (32 * (x.1 + 1))) else none

end Sys2Proof.Machine
end

