-- ==== Sys2Proof/Machine/CalOps.lean ====
section
/-! DEFINITION. Correction sets, ramps and epochs of a core (R235 to R258): what the calibration meanings, the tick edge and
the flips share. -/

namespace Sys2Proof.Machine

/-- The key of a column's corrections. -/
def calKey (a b pos : Nat) : Nat := (2 * a + b) * 1064 + pos

/-- Changes the calibration of a core. -/
def State.updCal (s : State) (c : Nat) (f : CalSt → CalSt) : State := s.updCore c (fun k => { k with cal := f k.cal })

/-- The gain in force or stored for a column. -/
def CalSt.gain (k : CalSt) (key : Nat) : Nat := Tbl.get 32768 k.g key

/-- The offset in force or stored for a column. -/
def CalSt.offs (k : CalSt) (key : Nat) : Int := Tbl.get 0 k.o key

/-- Sets gain and offset of a column. -/
def CalSt.setCol (k : CalSt) (key : Nat) (v : Nat × Int) : CalSt :=
  { k with g := Tbl.set 32768 k.g key v.1, o := Tbl.set 0 k.o key v.2 }

/-- The core temperature of R242, in 1/16 °C. -/
def State.coreTemp (s : State) (c : Nat) : Int := sgn 16 (s.rd R.cal_T_CORE c)

/-- The hour-counting second: the power-on time counter. -/
def State.now (s : State) : Nat := s.rd R.mgmt_POWER_S

/-- θ of R107 for an array of a core, in 1/16 °C: against the older of the sets being blended. -/
def State.theta (s : State) (c a : Nat) : Nat :=
  let k := (s.core c).cal
  let b := 2 * a + s.activeBank c a
  let t := match Tbl.find k.prevTime b with
    | some pt => if pt ≤ Tbl.get 0 k.time b then Tbl.get 0 k.prevT b else Tbl.get 0 k.tMeas b
    | none => Tbl.get 0 k.tMeas b
  (s.coreTemp c - t).natAbs

/-- h of R107 for an array of a core, in seconds. -/
def State.ageS (s : State) (c a : Nat) : Nat :=
  let k := (s.core c).cal
  let b := 2 * a + s.activeBank c a
  s.now - (match Tbl.find k.prevTime b with
    | some pt => min pt (Tbl.get 0 k.time b)
    | none => Tbl.get 0 k.time b)

/-- The steps that a ramp still needs (R251). -/
def State.rampLeft (s : State) (c : Nat) : Nat :=
  let k := (s.core c).cal
  (k.tgt.map (fun e => ceilDiv ((e.2.1 : Int) - k.gain e.1).natAbs 16 + (e.2.2 - k.offs e.1).natAbs)).foldl max 0

/-- Brings the calibration registers of a core up to date (R264): the temperature and age of array position 0's active
bank are the ones shown (log entry 11). -/
def State.syncCal (s : State) (c : Nat) : State :=
  let k := (s.core c).cal
  ((((s.wr R.cal_RAMPING (b2n (!k.tgt.isEmpty)) c).wr R.cal_RAMP_LEFT (min (s.rampLeft c) 0xFFFF) c).wr R.cal_T_MEAS
    (usg 16 (Tbl.get 0 k.tMeas (s.activeBank c 0))) c).wr R.cal_THETA (min (s.theta c 0) 0xFFFF) c).wr R.cal_AGE_H
    (min (s.ageS c 0 / 3600) 0xFFFF) c

/-- The core takes part in an analogue replay, which starts no run and ignores every cause of one (R665). -/
def State.inReplay (s : State) (c : Nat) : Bool :=
  match s.enabledOwner c with
  | some p => (s.part p).rpOn && !s.refMode p
  | none => false

/-- A run becomes due, keeping the first cause (R243). -/
def State.calDue (s : State) (c cause : Nat) : State :=
  if s.flag R.cal_DUE c || s.inReplay c then s else (s.wr R.cal_DUE 1 c).wr R.cal_DUE_CAUSE cause c

/-- The run number of the set of an array's active bank (R655). -/
def State.setRun (s : State) (c a : Nat) : Nat := Tbl.get 0xFFFFFFFF (s.core c).cal.setRun (2 * a + s.activeBank c a)

/-- The sets of every position's active bank are those of one run (R250, R665). -/
def State.nameSets (s : State) (c run : Nat) : Tbl Nat :=
  (List.range 64).foldl (fun m a => Tbl.set 0xFFFFFFFF m (2 * a + s.activeBank c a) run) (s.core c).cal.setRun

/-- A CAL record of a core's partition (R257, chapter 22): 1 adoption, 2 epoch advance, 3 abandoned run, 4 load at a flip,
5 completion of a ramp under R656. It names the set of the active bank of array position `a` (log entry 11). -/
def State.trailCal (s : State) (c kind cause : Nat) (a : Nat := 0) : State :=
  let k := (s.core c).cal
  let t := Tbl.get 0 k.tMeas (2 * a + s.activeBank c a)
  s.trailCore c 0x08 1 [(20, 2, c), (22, 1, kind), (23, 1, cause), (24, 4, s.rd R.cal_CAL_EPOCH c), (28, 4, s.setRun c a),
    (32, 1, s.setRun c a % 7), (34, 2, usg 16 t), (36, 4, if kind = 1 then s.rampLeft c else 0)]

/-- The epoch of a core advances (R256). The first advance after CAL_WB_MIN minutes have passed since the last write-back makes one due (R262). -/
def State.calEpoch (s : State) (c kind : Nat) (a : Nat := 0) : State :=
  let s := s.updMgmt (fun m => { m with wbAdvance := m.wbAdvance || decide (m.wbTime + 60 * m.wbMin ≤ s.now) })
  (s.wr R.cal_CAL_EPOCH ((s.rd R.cal_CAL_EPOCH c + 1) % 2 ^ 32) c).trailCal c kind 0 a

/-- One step of a column towards its target (R251). -/
def rampCol (cur tgt : Nat × Int) : Nat × Int :=
  let dg : Int := (tgt.1 : Int) - cur.1
  if dg != 0 then ((cur.1 + clampI (-16) 16 dg).toNat, cur.2) else (cur.1, cur.2 + clampI (-1) 1 (tgt.2 - cur.2))

/-- A column's array is switching: the set of its bank is loaded at the end of the switch, or loaded again (R254). -/
def State.colSwitching (s : State) (c key : Nat) : Bool :=
  match (s.core c).flip with
  | some f => f.arrays.contains (key / 1064 / 2)
  | none => false

/-- One ramp step of a core (R251): every column moves one step, and at the target the epoch advances. The arrays of a flip that begins at the
same edge take no step: an accepted flip makes the target the stored set, and a refused one reloads the set in force before it (R254). -/
def State.rampStep (s : State) (c : Nat) : State :=
  let moving := (s.core c).cal.tgt.filter (fun e => !s.colSwitching c e.1)
  if moving.isEmpty && !(s.core c).cal.tgt.isEmpty then s
  else
    let s := s.updCal c (fun k => moving.foldl (fun k e => k.setCol e.1 (rampCol (k.gain e.1, k.offs e.1) e.2)) k)
    let s := s.updCal c (fun k => { k with tgt := k.tgt.filter (fun e => (k.gain e.1, k.offs e.1) != e.2) })
    let s := s.wr R.cal_RAMP_POS (min (s.rd R.cal_RAMP_POS c + 1) 0xFFFF) c
    if (s.core c).cal.tgt.isEmpty then
      ((s.updCal c (fun k => { k with prevT := [], prevTime := [] })).syncCal c).calEpoch c 2
    else s.syncCal c

/-- The ramp of a core is completed whole (R656): the target comes into force and the epoch advances. -/
def State.rampWhole (s : State) (c kind : Nat) : State :=
  if (s.core c).cal.tgt.isEmpty then s
  else
    let s := s.updCal c (fun k => { k.tgt.foldl (fun k e => k.setCol e.1 e.2) k with tgt := [], prevT := [], prevTime := [] })
    (s.syncCal c).calEpoch c kind

/-- The 4,608-byte image of an array position in a slot of the calibration store (R258): its target set. -/
def State.calImage (s : State) (c a : Nat) : List Byte :=
  let k := (s.core c).cal
  let b := s.activeBank c a
  let col := fun p => match Tbl.find k.tgt (calKey a b p) with
    | some v => v
    | none => (k.gain (calKey a b p), k.offs (calKey a b p))
  (List.range 1056).flatMap (fun p => toLe 2 (col p).1 ++ toLe 2 (usg 16 (col p).2)) ++
    (List.range 266).map (fun v => BitVec.ofNat 8 (Tbl.get 0 k.trims (a * 266 + v))) ++
    toLe 2 (Tbl.get 32768 k.bg (2 * a + b)) ++ List.replicate 116 0

/-- Writes the core's target to slot n mod 7 of its calibration store, and the slot's index entry (R250, R258). -/
def State.calStore (s : State) (c run epoch : Nat) (t : Int) : State :=
  let slot := (List.range 64).flatMap (s.calImage c)
  let base := c * 2097152
  let s := s.putGranBytes (base + 32768 + 294912 * (run % 7)) slot
  s.putGranBytes (base + 64 * (run % 7)) (toLe 4 epoch ++ toLe 4 run ++ toLe 6 s.tickNum ++ toLe 2 (usg 16 t) ++
    toLe 4 (crc32c slot) ++ List.replicate 44 0)

/-- A completed run is adopted at a publication edge of its core, or at a tick edge on a core of no enabled partition
(R250, R252, R253): there it comes into force whole with its trims; here it becomes the target and the first step applies. -/
def State.calAdopt (s : State) (c : Nat) : State :=
  let k := (s.core c).cal
  if !k.formed then s
  else
    let t := k.formedT
    let banks := (List.range 64).map (fun a => 2 * a + s.activeBank c a)
    let s := s.updCal c (fun k => { k with
      formed := false, badTable := []
      setRun := s.nameSets c k.formedRun
      prevT := if k.tgt.isEmpty then k.tMeas else k.prevT
      prevTime := if k.tgt.isEmpty then k.time else k.prevTime
      tMeas := banks.foldl (fun m b => Tbl.put m b k.formedT) k.tMeas
      time := banks.foldl (fun m b => Tbl.put m b k.formedTime) k.time
      tgt := k.frm, frm := []
      bg := k.bgF.foldl (fun m e => Tbl.put m e.1 e.2) k.bg, bgF := [] })
    let s := s.wr R.cal_RAMP_POS 0 c
    match s.enabledOwner c with
    | some _ =>
      let s := (s.syncCal c).trailCal c 1 k.formedCause
      let s := s.calStore c k.formedRun (s.rd R.cal_CAL_EPOCH c) t
      s.rampStep c
    | none =>
      let s := s.updCal c (fun k => { k.tgt.foldl (fun k e => k.setCol e.1 e.2) k with
        tgt := [], prevT := [], prevTime := []
        trims := k.trimsF.foldl (fun m e => Tbl.set 0 m e.1 e.2) k.trims, trimsF := [] })
      let s := (s.syncCal c).calEpoch c 2
      s.calStore c k.formedRun (s.rd R.cal_CAL_EPOCH c) t

/-- What calibration does at c 0 of an edge at which a core's partition publishes, or of any edge on a core of no enabled
partition (R250, R251): adopts a completed run, or goes on with the ramp. -/
def State.calEdge (s : State) (c : Nat) : State :=
  if (s.core c).cal.formed then s.calAdopt c
  else if (s.core c).cal.tgt.isEmpty then s
  else match s.enabledOwner c with
    | some _ => s.rampStep c
    | none => s.rampWhole c 2

/-- Corrections at an accepted flip of a group of arrays (R254): the outgoing bank's target becomes its stored set, and the
incoming stored set is in force whole. The active banks have already been exchanged. -/
def State.calFlip (s : State) (c : Nat) (arrays : List Nat) : State :=
  let s := s.updCal c (fun k =>
    let out := k.tgt.filter (fun e => arrays.contains (e.1 / 1064 / 2))
    let k := out.foldl (fun k e => k.setCol e.1 e.2) k
    { k with
      tgt := k.tgt.filter (fun e => !arrays.contains (e.1 / 1064 / 2))
      prevT := k.prevT.filter (fun e => !arrays.contains (e.1 / 2))
      prevTime := k.prevTime.filter (fun e => !arrays.contains (e.1 / 2)) })
  (s.syncCal c).calEpoch c 4 (arrays.headD 0)

/-- The run in progress still pulses: its 96 pulses of 32 cycles have not passed since its start (R238, R246). -/
def State.calPulsing (s : State) (c : Nat) : Bool :=
  let k := (s.core c).cal
  s.flag R.cal_RUNNING c && decide ((s.tickNum - k.startTick) * s.period + s.cyc < k.startCyc + 3072)

/-- A run that pulses is abandoned (R246): its codes are discarded and it stays due. One that computes goes on. -/
def State.calAbandon (s : State) (c : Nat) : State :=
  if s.calPulsing c then
    ((s.wr R.cal_RUNNING 0 c).bump R.cal_CAL_ABANDON 1 c).trailCal c 3 (s.rd R.cal_DUE_CAUSE c)
  else s

/-- The witness part of a core's audit that is still awaited is skipped; `count` tells whether AUD_SKIP counts it (R638, R645). -/
def State.skipWitness (s : State) (c : Nat) (count : Bool) : State :=
  if (s.core c).auditing.any (fun a => a.witness == 0) then
    let s := s.updCore c (fun k => { k with auditing := k.auditing.map (fun a => if a.witness = 0 then { a with witness := 2 } else a) })
    if count then s.bump R.aud_AUD_SKIP 1 c else s
  else s

/-- The core temperature is sampled at a tick edge, and a run becomes due with cause 1 (R242, R243). The reading is that
of sensor q of the core's cluster. -/
def State.coreTempSample (s : State) (c : Nat) : State :=
  let s := s.wr R.cal_T_CORE (s.rd R.therm_SENS_T 0 (4 * (c / 16) + (c % 16) / 4)) c
  let s := s.updCore c (fun k => { k with
    passes := k.passes.map (fun p => if p.running && decide (s.coreTemp c > 85 * 16) then { p with hot := true } else p) })
  let s := s.syncCal c
  if s.flag R.cal_CAL_AUTO c && decide (16 * s.rd R.cal_CAL_DT c < (s.coreTemp c - (s.core c).cal.lastT).natAbs) then
    s.calDue c 1
  else s

end Sys2Proof.Machine
end

