-- ==== Sys2Proof/Machine/Float.lean ====
section
/-! DEFINITION. The number formats of the vector engine and the Winnow: exact values, one rounding to nearest with ties to
even, IEEE 754 binary32 arithmetic (R305), sums in the fixed order (R306) and the special functions within their bounds
(R320). -/

namespace Sys2Proof.Machine

/-- A value: not a number, an infinity, or sign, magnitude and power of two, the value being (-1)^neg * m * 2^e. -/
inductive Fp where
  | nan
  | inf (neg : Bool)
  | fin (neg : Bool) (m : Nat) (e : Int)
  deriving DecidableEq, Repr

/-- A floating-point format: bits of precision, the exponent of its smallest unit, its first code beyond the finite ones, its
sign bit, and the bits of its fraction. -/
structure FmtF where
  prec : Nat
  low : Int
  top : Nat
  width : Nat
  deriving DecidableEq, Repr

/-- IEEE 754 binary32. -/
def fp32 : FmtF := ⟨24, -149, 0x7F800000, 32⟩
/-- BF16. -/
def bf16 : FmtF := ⟨8, -133, 0x7F80, 16⟩
/-- FP8 E4M3 (R304). -/
def e4m3 : FmtF := ⟨4, -9, 0x7F, 8⟩
/-- FP8 E5M2 (R304). -/
def e5m2 : FmtF := ⟨3, -16, 0x7C, 8⟩

/-- Bits of a number. -/
def bitLen (m : Nat) : Nat := if m = 0 then 0 else Nat.log2 m + 1

/-- The magnitude code of a finite value rounded to a format with an unbounded exponent range (R308). -/
def FmtF.round (f : FmtF) (m : Nat) (e : Int) : Nat :=
  let l := max f.low (e + bitLen m - f.prec)
  let k := if l ≤ e then m * 2 ^ (e - l).toNat else (rneShr m (l - e).toNat).toNat
  if m = 0 then 0 else k + (l - f.low).toNat * 2 ^ (f.prec - 1)

/-- The finite value of a magnitude code. -/
def FmtF.value (f : FmtF) (neg : Bool) (k : Nat) : Fp :=
  let h := 2 ^ (f.prec - 1)
  if k < h then .fin neg k f.low else .fin neg (h + k % h) (f.low + (k / h : Nat) - 1)

/-- The value of a code of a format (R304). -/
def FmtF.decode (f : FmtF) (v : Nat) : Fp :=
  let neg := v.testBit (f.width - 1)
  let k := v % 2 ^ (f.width - 1)
  if k < f.top then f.value neg k else if k = f.top && f != e4m3 then .inf neg else .nan

/-- The sign of a value. -/
def Fp.neg : Fp → Bool
  | .nan => false
  | .inf s => s
  | .fin s _ _ => s

/-- A value is zero. -/
def Fp.isZero : Fp → Bool
  | .fin _ m _ => m == 0
  | _ => false

/-- A value rounded to binary32 (R305). -/
def Fp.r32 : Fp → Fp
  | .fin s m e => let k := fp32.round m e
                  if k < fp32.top then fp32.value s k else .inf s
  | v => v

/-- The 32 bits of a value that binary32 holds; not-a-number is the quiet one. -/
def Fp.bits : Fp → Nat
  | .nan => 0x7FC00000
  | .inf s => 0x80000000 * b2n s + 0x7F800000
  | .fin s m e => 0x80000000 * b2n s + min (fp32.round m e) fp32.top

/-- A binary32 pattern. -/
def Fp.ofBits (v : Nat) : Fp := fp32.decode v

/-- The value of an integer. -/
def Fp.ofInt (i : Int) : Fp := .fin (decide (i < 0)) i.natAbs 0

/-- The opposite value. -/
def Fp.opp : Fp → Fp
  | .nan => .nan
  | .inf s => .inf !s
  | .fin s m e => .fin (!s) m e

/-- The signed magnitude of a finite value in units of 2^u, `u` not above its exponent. -/
def scaled (s : Bool) (m : Nat) (e u : Int) : Int :=
  let k : Int := (m * 2 ^ (e - u).toNat : Nat)
  if s then -k else k

/-- The exact sum of two values. -/
def Fp.sum : Fp → Fp → Fp
  | .nan, _ => .nan
  | _, .nan => .nan
  | .inf a, .inf b => if a = b then .inf a else .nan
  | .inf a, _ => .inf a
  | _, .inf b => .inf b
  | .fin a m d, .fin b n e =>
    let u := min d e
    let k := scaled a m d u + scaled b n e u
    .fin (if k = 0 then a && b else decide (k < 0)) k.natAbs u

/-- The exact product of two values. -/
def Fp.prod : Fp → Fp → Fp
  | .nan, _ => .nan
  | _, .nan => .nan
  | .inf a, b => if b.isZero then .nan else .inf (a != b.neg)
  | a, .inf b => if a.isZero then .nan else .inf (a.neg != b)
  | .fin a m d, .fin b n e => .fin (a != b) (m * n) (d + e)

/-- binary32 addition. -/
def Fp.add (a b : Fp) : Fp := (a.sum b).r32
/-- binary32 subtraction. -/
def Fp.sub (a b : Fp) : Fp := (a.sum b.opp).r32
/-- binary32 multiplication. -/
def Fp.mul (a b : Fp) : Fp := (a.prod b).r32
/-- Fused multiply-add: a * b + c, rounded once (R305). -/
def Fp.fma (a b c : Fp) : Fp := ((a.prod b).sum c).r32

/-- The quotient of two values, exact but for a last bit that stands for all that follows. -/
def Fp.quot : Fp → Fp → Fp
  | .nan, _ => .nan
  | _, .nan => .nan
  | .inf _, .inf _ => .nan
  | .inf a, b => .inf (a != b.neg)
  | a, .inf b => .fin (a.neg != b) 0 0
  | .fin a m d, .fin b n e =>
    if n = 0 then (if m = 0 then .nan else .inf (a != b))
    else
      let k := bitLen n + 64
      let q := m * 2 ^ k / n
      .fin (a != b) (2 * q + if q * n = m * 2 ^ k then 0 else 1) (d - e - k - 1)

/-- A binary32 value with its subnormal numbers returned as zeros of their sign (R320). -/
def Fp.flush : Fp → Fp
  | .fin s m e => if fp32.round m e < 2 ^ 23 then .fin s 0 0 else .fin s m e
  | v => v

/-- binary32 division, correctly rounded, a subnormal quotient a zero of its sign (R319, R320; log entry 20). -/
def Fp.div (a b : Fp) : Fp := (a.quot b).r32.flush

/-- The integer square root from its top bit down: `n` bits. -/
def isqrt (v : Nat) : Nat → Nat
  | 0 => 0
  | n + 1 => (List.range (n + 1)).foldr (fun i r => if (r + 2 ^ i) * (r + 2 ^ i) ≤ v then r + 2 ^ i else r) 0

/-- The square root of a value, exact but for a last bit that stands for all that follows (R320). -/
def Fp.root : Fp → Fp
  | .nan => .nan
  | .inf s => if s then .nan else .inf false
  | .fin s m e =>
    if m = 0 then .fin s 0 0
    else if s then .nan
    else
      let x := if e % 2 = 0 then (m * 2 ^ 160, e - 160) else (m * 2 ^ 161, e - 161)
      let r := isqrt x.1 (bitLen x.1 / 2 + 1)
      .fin false (2 * r + if r * r = x.1 then 0 else 1) (x.2 / 2 - 1)

/-- binary32 square root. -/
def Fp.sqrt (a : Fp) : Fp := a.root.r32

/-- The first value is below the second. -/
def Fp.lt (a b : Fp) : Bool :=
  match a, b with
  | .nan, _ => false
  | _, .nan => false
  | .inf s, .inf t => s && !t
  | .inf s, _ => s
  | _, .inf t => !t
  | .fin a m d, .fin b n e => decide (scaled a m d (min d e) < scaled b n e (min d e))

/-- The greater of two values; a not-a-number prevails, and +0 over -0 (IEEE 754 maximum). -/
def Fp.max (a b : Fp) : Fp :=
  if a = .nan ∨ b = .nan then .nan else if a.lt b then b else if b.lt a then a else if a.neg then b else a

/-- The lesser of two values (IEEE 754 minimum). -/
def Fp.min (a b : Fp) : Fp := (Fp.max a.opp b.opp).opp

/-- Positive zero. -/
def Fp.zero : Fp := .fin false 0 0
/-- One. -/
def Fp.one : Fp := .fin false 1 0

/-- One level of pairs (R306). -/
def pairUp : List Fp → List Fp
  | a :: b :: r => a.add b :: pairUp r
  | r => r

/-- The 32 accumulators combined in five levels of pairs (R306). -/
def pairs5 (l : List Fp) : Fp := (pairUp (pairUp (pairUp (pairUp (pairUp l))))).headD .zero

/-- The R306 sum of products: element i goes to accumulator i mod 32, each product fused into it. -/
def dotSum (xs : List (Fp × Fp)) : Fp :=
  pairs5 ((List.range 32).map (fun k =>
    (xs.zipIdx.filter (fun x => x.2 % 32 == k)).foldl (fun a x => x.1.1.fma x.1.2 a) .zero))

/-- The R306 sum of values. -/
def fpSum (xs : List Fp) : Fp :=
  pairs5 ((List.range 32).map (fun k =>
    (xs.zipIdx.filter (fun x => x.2 % 32 == k)).foldl (fun a x => a.add x.1) .zero))

/-! ### Special functions (R320) -/

/-- One of the binary32 values within `b` units in the last place of m * 2^e, chosen by `r`: the codes are counted from the code below the
exact value. -/
def pickUlp (b r : Nat) (s : Bool) (m : Nat) (e : Int) : Fp :=
  let l := e + bitLen m - 24
  let exact := decide (l ≤ e) || m % 2 ^ (l - e).toNat == 0
  let below := (if l ≤ e then m * 2 ^ (e - l).toNat else m / 2 ^ (l - e).toNat) + (l + 149).toNat * 2 ^ 23
  let k := below + b2n (!exact) + r % (2 * b + 1 - b2n (!exact)) - b
  if k < fp32.top then fp32.value s k else .inf s

/-- The greatest binary32 code whose value is at most t * 2^-149. -/
def codeDown (t : Nat) : Nat :=
  let l := bitLen t - 24
  t / 2 ^ l + l * 2 ^ 23

/-- The least binary32 code whose value is at least t * 2^-149. -/
def codeUp (t : Nat) : Nat := codeDown t + b2n (t % 2 ^ (bitLen t - 24) != 0)

/-- The least signed code at or above t * 2^-149. -/
def leastCode (t : Int) : Int := if t < 0 then -(codeDown t.natAbs : Int) else codeUp t.natAbs

/-- The greatest signed code at or below t * 2^-149. -/
def mostCode (t : Int) : Int := if t < 0 then -(codeUp t.natAbs : Int) else codeDown t.natAbs

/-- One of the binary32 values within `b` times 2^-126 of m * 2^e, chosen by `r`; a subnormal one is a zero of its sign. -/
def pickLow (b r : Nat) (s : Bool) (m : Nat) (e : Int) : Fp :=
  let lo := if -149 ≤ e then m * 2 ^ (e + 149).toNat else m / 2 ^ (-149 - e).toNat
  let up := if -149 ≤ e ∨ m % 2 ^ (-149 - e).toNat = 0 then lo else lo + 1
  let least := leastCode ((up : Int) - b * 2 ^ 23)
  let k := least + (r % (mostCode ((lo : Int) + b * 2 ^ 23) - least + 1).toNat : Nat)
  let s := if k < 0 then !s else s
  if k.natAbs < 2 ^ 23 then .fin s 0 0 else fp32.value s k.natAbs

/-- The value of the special function `f` at `a`, within `b` units in the last place of the exact value `v`, a unit being at least 2^-126; which
one is left open (R307, R320, log entry 5). -/
def nearUlp (f b : Nat) (a v : Fp) : Fp :=
  match v with
  | .fin s m e =>
    let r := (Config.special f (BitVec.ofNat 32 a.bits)).toNat
    if m = 0 ∨ e + bitLen m ≤ -102 then pickLow b r s m e else pickUlp b r s m e
  | v => v

/-- A value that the manual does not state: the function at an infinite argument outside its table (log entry 5). -/
def openAt (f : Nat) (a : Fp) : Fp := Fp.ofBits (Config.special f (BitVec.ofNat 32 a.bits)).toNat

/-- The binary point of the fixed-point evaluations. -/
def fxBits : Nat := 128
/-- ln 2 in units of 2^-128. -/
def fxLn2 : Nat := 0xB17217F7D1CF79ABC9E3B39803F2F6AF

/-- A finite value in units of 2^-128, rounded down. -/
def toFx (s : Bool) (m : Nat) (e : Int) : Int :=
  let k : Int := if 0 ≤ e + fxBits then (m * 2 ^ (e + fxBits).toNat : Nat) else (m / 2 ^ (-(e + fxBits)).toNat : Nat)
  if s then -k else k

/-- The sum of `n` terms of the exponential series from term `t` on: term i + 1 is term i times r / i. -/
def expTerms (r : Nat) : Nat → Nat → Nat → Nat
  | 0, _, _ => 0
  | n + 1, i, t => t + expTerms r n (i + 1) (t * r / 2 ^ fxBits / i)

/-- e to a fixed-point power, as a value (relative error below 2^-90 where the result is in range). -/
def expFx (x : Int) : Fp :=
  let k := x / fxLn2
  .fin false (expTerms (x - k * fxLn2).toNat 40 1 (2 ^ fxBits)) (k - fxBits)

/-- The exponential of a value, unrounded. -/
def Fp.expRaw : Fp → Fp
  | .nan => .nan
  | .inf s => if s then .zero else .inf false
  | .fin s m e => if 9 < e + bitLen m then (if s then .zero else .inf false) else expFx (toFx s m e)

/-- 1 / (1 + e^-x), unrounded (R320). -/
def Fp.sigRaw (a : Fp) : Fp := if a.neg then (let t := a.expRaw; t.quot (Fp.one.sum t)) else Fp.one.quot (Fp.one.sum a.opp.expRaw)

/-- The hyperbolic tangent, unrounded; a small argument by x - x^3 / 3. -/
def Fp.tanhRaw (a : Fp) : Fp :=
  match a with
  | .fin s m e =>
    if e + bitLen m < -24 then a.sum (((a.prod a).prod a).quot (.fin true 3 0))
    else
      let t := (Fp.fin true m (e + 1)).expRaw
      let r := (Fp.one.sum t.opp).quot (Fp.one.sum t)
      if s then r.opp else r
  | .inf s => .fin s 1 0
  | .nan => .nan

/-- The sum of `n` terms of the series of atanh from term `t` on. -/
def atanhTerms (z2 : Nat) : Nat → Nat → Nat → Nat
  | 0, _, _ => 0
  | n + 1, i, t => t / i + atanhTerms z2 n (i + 2) (t * z2 / 2 ^ fxBits)

/-- The natural logarithm of a positive finite value m * 2^e, unrounded. -/
def lnRaw (m : Nat) (e : Int) : Fp :=
  let l := bitLen m
  let y := m * 2 ^ fxBits / 2 ^ (l - 1)
  let big := decide (3 * 2 ^ fxBits < 2 * y)
  let n : Int := e + l - 1 + b2n big
  let y := if big then y / 2 else y
  let one := 2 ^ fxBits
  let d : Nat := if one ≤ y then y - one else one - y
  let z := d * one / (y + one)
  let a : Int := (2 * atanhTerms (z * z / one) 80 1 z : Nat)
  let r : Int := n * fxLn2 + (if one ≤ y then a else -a)
  .fin (decide (r < 0)) r.natAbs (-(fxBits : Int))

/-- Function codes of the special functions: e^x, 2^x, ln, 1/x, 1/√x, tanh, sigmoid, SiLU, GELU. -/
inductive SpFn where
  | exp | exp2 | ln | recip | rsqrt | tanh | sigmoid | silu | gelu
  deriving DecidableEq, Repr

/-- The number of a special function in `Config.special`. -/
def SpFn.num : SpFn → Nat
  | .exp => 0
  | .exp2 => 1
  | .ln => 2
  | .recip => 3
  | .rsqrt => 4
  | .tanh => 5
  | .sigmoid => 6
  | .silu => 7
  | .gelu => 8

/-- e^x (R320): 2 ulp for -87.33 < x < 88.72, +0 below and +∞ above. -/
def Fp.exp (a : Fp) : Fp :=
  if a = .nan then .nan
  else if !Fp.lt a ((Fp.fin false 8872 0).quot (.fin false 100 0)) then .inf false
  else if !Fp.lt ((Fp.fin true 8733 0).quot (.fin false 100 0)) a then .zero
  else nearUlp 0 2 a a.expRaw

/-- 2^x (R320). -/
def Fp.exp2 (a : Fp) : Fp :=
  match a with
  | .nan => .nan
  | .inf s => if s then .zero else .inf false
  | .fin s m e =>
    if !a.lt (.fin false 128 0) then .inf false
    else if !Fp.lt (.fin true 126 0) a then .zero
    else
      let x := toFx s m e
      let k := x / 2 ^ fxBits
      nearUlp 1 1 a (.fin false (expTerms (((x - k * 2 ^ fxBits).toNat * fxLn2) / 2 ^ fxBits) 40 1 (2 ^ fxBits)) (k - fxBits))

/-- ln x (R320): -∞ at ±0, not a number below. -/
def Fp.ln (a : Fp) : Fp :=
  match a with
  | .nan => .nan
  | .inf s => if s then .nan else .inf false
  | .fin s m e => if m = 0 then .inf true else if s then .nan else nearUlp 2 2 a (lnRaw m e)

/-- 1 / x (R320). -/
def Fp.recip (a : Fp) : Fp := nearUlp 3 1 a (Fp.one.quot a)

/-- 1 / √x (R320): +∞ at +0, not a number below 0. -/
def Fp.rsqrt (a : Fp) : Fp :=
  match a with
  | .fin s 0 _ => .inf s
  | a => nearUlp 4 1 a (Fp.one.quot a.root)

/-- tanh x (R320). -/
def Fp.tanh (a : Fp) : Fp := nearUlp 5 2 a a.tanhRaw

/-- sigmoid x (R320). -/
def Fp.sigmoid (a : Fp) : Fp := nearUlp 6 3 a a.sigRaw

/-- SiLU x (R320). -/
def Fp.silu (a : Fp) : Fp := if a = .inf true then openAt 7 a else nearUlp 7 4 a (a.prod a.sigRaw)

/-- The argument of the tanh form of GELU, doubled. -/
def Fp.geluArg (a : Fp) : Fp :=
  ((Fp.fin false 2 0).prod ((Fp.fin false 79788456 0).quot (.fin false 100000000 0))).prod
    (a.sum (((Fp.fin false 44715 0).quot (.fin false 1000000 0)).prod ((a.prod a).prod a)))

/-- GELU x in the tanh form (R320): 0.5 (1 + tanh u) is sigmoid 2u. -/
def Fp.gelu (a : Fp) : Fp := if a = .inf true then openAt 8 a else nearUlp 8 4 a (a.prod a.geluArg.sigRaw)

/-- Square root as a special function: correctly rounded; it has no subnormal result. -/
def Fp.sqrtS (a : Fp) : Fp := a.sqrt

end Sys2Proof.Machine
end

