-- ==== Sys2Proof/Machine/GaugeTable.lean ====
section
/-! DEFINITION. The gauge's channel table and which entry a table converter visits next (chapter 19: R580 to R582, R584, R585, R588, R589). -/

namespace Sys2Proof.Machine

/-- A number with bit i set or cleared. -/
def setBit (v i : Nat) (b : Bool) : Nat := if b then v ||| 2 ^ i else v - (v &&& 2 ^ i)

/-! ### Entries (R580, R581) -/

/-- CHAN of word 0 of an entry. -/
def gChan (lo : Nat) : Nat := bitsOf lo 0 6
/-- The filter order of an entry. -/
def gOrder (lo : Nat) : Nat := bitsOf lo 8 2 + 1
/-- OW of an entry. -/
def gOw (lo : Nat) : Nat := bitsOf lo 13 3
/-- NOTCH of an entry. -/
def gNotch (lo : Nat) : Nat := bitsOf lo 10 3

/-- Word 0 of an entry of the table. -/
def State.gLo (s : State) (e : Nat) : Nat := s.rd R.gauge_ENTRY_LO 0 e
/-- LOCK of an entry. -/
def State.gLock (s : State) (e : Nat) : Bool := bitOf (s.gLo e) 30

/-- N of an entry: 4 without a notch, P / (2,048 k) with one (R584, R585). -/
def State.gN (s : State) (lo : Nat) : Nat := if gNotch lo = 0 then 4 else s.period / (2048 * 2 ^ (gNotch lo - 1))

/-- The spacing of its conversions in cycles (R584, R585). -/
def gSpacing (lo : Nat) : Nat := if gNotch lo = 0 then 1600 else 2048

/-- How many conversions a visit makes (R583). -/
def State.gCount (s : State) (lo : Nat) : Nat := gOrder lo * (s.gN lo - 1) + bitsOf lo 16 8 + 1

/-- An entry that R581 calls invalid, beside VALID = 0. -/
def State.gBad (s : State) (lo : Nat) : Bool :=
  gChan lo == 16 || decide (47 < gChan lo) || (decide (16 ≤ gChan lo) && (bitsOf lo 6 2 != 0 || gOw lo != 0)) ||
    decide (4 < gNotch lo) || decide (4 < gOw lo) || decide (s.gN lo < 2)

/-- A converter skips the entry (R581). -/
def State.gSkip (s : State) (lo : Nat) : Bool := !bitOf lo 31 || s.gBad lo

/-- A skip is counted; an entry that is invalid beyond VALID = 0 sets ENTRY_BAD (R581). -/
def State.countSkip (s : State) (lo : Nat) : State :=
  let s := s.bump R.gauge_ENTRY_SKIP
  if bitOf lo 31 then s.wr R.gauge_ENTRY_BAD 1 else s

/-! ### The walk (R580 to R582, R592) -/

/-- The entries from START to END of a converter's segment (0 G2, 1 G3). -/
def State.segment (s : State) (g : Nat) : List Nat :=
  let a := s.rd (if g = 0 then R.gauge_G2_START else R.gauge_G3_START)
  let b := s.rd (if g = 0 then R.gauge_G2_END else R.gauge_G3_END)
  (List.range (b + 1 - a)).map (a + ·)

/-- The entries that a converter walks, both segments where the other table converter has failed, its own first (R592). -/
def State.walk (s : State) (g : Nat) : List Nat :=
  s.segment g ++ (if bitOf (s.rd R.gauge_CONV_FAIL) (3 - g) then s.segment (1 - g) else [])

/-- The walk from the entry after the last one visited (R580). -/
def State.walkFrom (s : State) (g : Nat) : List Nat :=
  let w := s.walk g
  let last := Tbl.get 0 s.power.gaugeAt g
  if last = 0 then w
  else match w.findIdx? (· == last - 1) with
    | some i => w.drop (i + 1) ++ w.take (i + 1)
    | none => w

/-- The entries that the converter skips before its next visit, and the entry it visits, if there is one (R581). -/
def State.nextVisit (s : State) (g : Nat) : List Nat × Option Nat :=
  let w := s.walkFrom g
  (w.takeWhile (fun e => s.gSkip (s.gLo e)), w.find? (fun e => !s.gSkip (s.gLo e)))

/-- A converter begins its next visit, with the fields that the entry has now (R580 to R582): what it skips counts, and where every entry is
skipped it is idle and powered down. -/
def State.beginVisit (s : State) (g : Nat) : State :=
  let n := s.nextVisit g
  let s := n.1.foldl (fun s e => s.countSkip (s.gLo e)) s
  match n.2 with
  | some e => s.updPower (fun w => { w with
      visits := Tbl.put w.visits g ⟨e, s.gLo e, s.rd R.gauge_ENTRY_HI 0 e, !bitOf (s.rd R.gauge_POWERED) (g + 2)⟩ })
  | none => (s.updPower (fun w => { w with visits := Tbl.del w.visits g })).wr R.gauge_POWERED (setBit (s.rd R.gauge_POWERED) (g + 2) false)

/-- The visit in progress of a table converter. -/
def State.visit (s : State) (g : Nat) : Option Visit := Tbl.find s.power.visits g

/-- A tick period has changed (R589): a notched visit in progress starts again under the new period, or its entry is skipped where the notch is no
longer available. -/
def State.periodVisit (s : State) (g : Nat) : State :=
  match s.visit g with
  | none => s
  | some v =>
    if gNotch v.lo = 0 then s
    else if s.gN v.lo < 2 then
      ((s.countSkip v.lo).updPower (fun w => { w with gaugeAt := Tbl.set 0 w.gaugeAt g (v.entry + 1) })).beginVisit g
    else s.updPower (fun w => { w with visits := Tbl.put w.visits g { v with cold := false } })

end Sys2Proof.Machine
end

