-- ==== Sys2Proof/Machine/NetOps.lean ====
section
/-! DEFINITION. The mesh and the message layer: stations, routes and their counters (R332 to R336, R354), link messages, their
routes and what happens to a message that cannot be delivered (R468 to R472, R486, R487). -/

namespace Sys2Proof.Machine

/-! ### The mesh -/

/-- The cluster that serves edge port n (R332). -/
def edgeCluster (n : Nat) : Nat :=
  if n < 8 then n else if n < 12 then [7, 15, 23, 31].getD (n - 8) 0
  else if n < 20 then 31 - (n - 12) else [24, 16, 8, 0].getD (n - 20) 0

/-- The cluster whose router serves a station (R332, R333). -/
def stationCluster (st : Nat) : Nat :=
  if st < 512 then st / 16 else if st < 536 then edgeCluster (st - 512) else if st < 560 then edgeCluster (st - 536)
  else if st = 560 then edgeCluster 22 else edgeCluster 9

/-- The routers of the way from one cluster to another: along the row first, then along the column (R334). -/
def meshRoute (a b : Nat) : List Nat :=
  let x := a % 8
  let y := a / 8
  let u := b % 8
  let v := b / 8
  let row := (List.range (if x ≤ u then u - x + 1 else x - u + 1)).map (fun i => 8 * y + (if x ≤ u then x + i else x - i))
  let col := (List.range (if y ≤ v then v - y else y - v)).map (fun i => 8 * (if y ≤ v then y + 1 + i else y - 1 - i) + u)
  row ++ col

/-- `g` granules of class `cls` travel from a station to a station: every router of the way counts them (R354). -/
def State.traverse (s : State) (a b cls g : Nat) : State :=
  if g = 0 then s else (meshRoute (stationCluster a) (stationCluster b)).foldl (fun s r => s.bump R.rtr_GRAN_C g r cls) s

/-- The HBM controller that serves a device granule, as a station (R333, R420). -/
def hbmStation (d : Nat) : Nat := 512 + stackOf d

/-- A granule read for a core: its request travels in C2 and the granule in C3 (R336, R337, R363). A control message counts as one granule, and
every granule read has a request of its own, since neighbouring chunks lie at different controllers (DESIGN CHOICE, log entry 67). -/
def State.memRead (s : State) (c d : Nat) : State := (s.traverse c (hbmStation d) 2 1).traverse (hbmStation d) c 3 1

/-- A granule written for a core travels in C4, its acknowledgement in C3 (R336, R337). -/
def State.memWrite (s : State) (c d : Nat) : State := (s.traverse c (hbmStation d) 4 1).traverse (hbmStation d) c 3 1

/-- An error of the network at a router (chapter 10). -/
def State.netErr (s : State) (r code circ : Nat) : State :=
  ((s.wr R.rtr_ERR_CODE code r).wr R.rtr_ERR_CIRC circ r).wr R.rtr_ERR_VALID 1 r

/-! ### Ports -/

/-- Changes the network. -/
def State.updNet (s : State) (f : NetSt → NetSt) : State := { s with net := f s.net }

/-- Port n. -/
def State.port (s : State) (n : Nat) : PortSt := Tbl.get {} s.net.ports n

/-- Changes port n. -/
def State.updPort (s : State) (n : Nat) (f : PortSt → PortSt) : State :=
  s.updNet (fun k => { k with ports := Tbl.upd {} k.ports n f })

/-- A port is up. -/
def State.portUp (s : State) (n : Nat) : Bool := decide (n < 24) && s.rd R.port_STATE n == 5

/-! ### Messages -/

/-- The partition of a message (R468). -/
def msgPart (m : LinkMsg) : Nat := m.srcSt.toNat / 1024
/-- The sending station. -/
def msgSrcSt (m : LinkMsg) : Nat := m.srcSt.toNat % 1024
/-- The sending module. -/
def msgSrcMod (m : LinkMsg) : Nat := m.srcMod.toNat % 4096
/-- The destination module. -/
def msgDstMod (m : LinkMsg) : Nat := m.dstMod.toNat % 4096
/-- The destination station. -/
def msgDstSt (m : LinkMsg) : Nat := m.dstSt.toNat % 1024
/-- The window at the destination. -/
def msgWin (m : LinkMsg) : Nat := m.dstSt.toNat / 1024 % 16
/-- RAISE. -/
def msgRaise (m : LinkMsg) : Bool := m.flags.toNat.testBit 0
/-- RED. -/
def msgRed (m : LinkMsg) : Bool := m.flags.toNat.testBit 1
/-- CLOSED. -/
def msgClosed (m : LinkMsg) : Bool := m.flags.toNat.testBit 2

/-- A message without data from a station of this module. -/
def State.mkMsg (s : State) (type flags part st dstMod dstSt arg0 : Nat) (arg1 : Nat := 0) : LinkMsg where
  type := BitVec.ofNat 8 type
  flags := BitVec.ofNat 8 flags
  srcMod := BitVec.ofNat 16 s.selfMod
  srcSt := BitVec.ofNat 16 (st + 1024 * part)
  dstMod := BitVec.ofNat 16 dstMod
  dstSt := BitVec.ofNat 16 dstSt
  arg0 := BitVec.ofNat 32 arg0
  pmask := 0
  arg1 := BitVec.ofNat 64 arg1
  data := []

/-- The 32 bytes of a message's header (R468). -/
def msgHeader (m : LinkMsg) : List Byte :=
  layout 32 [(0, 1, m.type.toNat), (1, 1, m.flags.toNat), (2, 2, m.data.length), (4, 2, m.srcMod.toNat), (6, 2, m.srcSt.toNat),
    (8, 2, m.dstMod.toNat), (10, 2, m.dstSt.toNat), (12, 4, m.arg0.toNat), (16, 8, m.pmask.toNat), (24, 8, m.arg1.toNat)]

/-- The port and the alternative port of a message's route (R471). -/
def State.routeOf (s : State) (m : LinkMsg) : Nat × Nat :=
  let blk := msgDstMod m / 64
  let pos := msgDstMod m % 64
  if blk != s.rd R.msg_BLK then (s.rd R.msg_ROUTE_BLK 0 blk, s.rd R.msg_ALT_BLK 0 blk)
  else (s.rd R.msg_ROUTE_POS 0 pos, s.rd R.msg_ALT_POS 0 pos)

/-- The port by which a message leaves: the route's, else its alternative, whichever is up first in that order (R471). -/
def State.routePort (s : State) (m : LinkMsg) : Option Nat :=
  let r := s.routeOf m
  if r.1 = 0x1F then none else if s.portUp r.1 then some r.1 else if s.portUp r.2 then some r.2 else none

/-- The granules that a message counts as on the mesh: one where it carries none (log entry 67). -/
def msgGrans (m : LinkMsg) : Nat := max 1 m.data.length

/-- The class in which a message travels on the mesh (R336, R337): C5 to and from link ports; on this die a reduction's traffic in C0, the writes
and grants of windows and acknowledgements in C1, the rest in C5. -/
def State.msgClass (s : State) (m : LinkMsg) : Nat :=
  if msgSrcMod m ≠ s.selfMod ∨ msgDstMod m ≠ s.selfMod then 5
  else match m.type.toNat with
    | 0x01 => if msgDstSt m < 512 then 1 else 5
    | 0x02 => 1
    | 0x03 => if msgRed m then 0 else 1
    | 0x04 => 0
    | 0x07 => if msgRed m then 0 else 1
    | _ => 5

/-- A message joins a port's queue. -/
def State.putPort (s : State) (n : Nat) (m : LinkMsg) : State := s.updPort n (fun p => { p with queue := p.queue ++ [m] })

/-- A message joins a port's queue, having crossed the mesh in C5 (R471); one of another module was counted as it arrived. Marks and snapshots
travel on wires of their own (R337). -/
def State.queueMsg (s : State) (n : Nat) (m : LinkMsg) : State :=
  (if msgSrcMod m = s.selfMod ∧ m.type ≠ 0x05 ∧ m.type ≠ 0x06 then s.traverse (msgSrcSt m) (536 + n) 5 (msgGrans m) else s).putPort n m

/-- A message is held until a port of its route comes up; with the queue full it is discarded and its partition is reset (R487); a
management message has none (R468). -/
def State.holdMsg (s : State) (m : LinkMsg) : State :=
  if 4096 ≤ s.net.notes.length then if m.type = 0x0E then s else s.partFatal 0x0B 0 (msgPart m) (msgDstSt m)
  else (s.updNet (fun k => { k with notes := k.notes ++ [m] })).wr R.msg_NOTES_Q (s.net.notes.length + 1)

/-- Sends a note: to this module's own stations, by a port, or held until one comes up. -/
def State.sendNote (s : State) (m : LinkMsg) : State :=
  if msgDstMod m = s.selfMod then s.updNet (fun k => { k with inbox := k.inbox ++ [m] })
  else match s.routePort m with
    | some n => s.queueMsg n m
    | none => s.holdMsg m

/-- The POISON note that replaces a message (R486). -/
def poisonOf (m : LinkMsg) : LinkMsg :=
  { m with
    type := 0x07
    flags := BitVec.ofNat 8 (m.flags.toNat % 2 + (if m.type = 0x04 then 2 else 0))
    pmask := 0
    arg1 := BitVec.ofNat 64 m.data.length
    data := [] }

/-- What follows for a message that cannot be delivered (R486). -/
def State.undeliverable (s : State) (m : LinkMsg) : State :=
  match m.type.toNat with
  | 0x01 =>
    let s := s.sendNote (poisonOf m)
    s.sendNote (s.mkMsg 0x02 0 (msgPart m) (msgDstSt m) (msgSrcMod m) (msgSrcSt m) (m.arg1.toNat % 65536 + 65536 * 4) 0)
  | 0x04 => s.sendNote (poisonOf m)
  | 0x05 => s
  | 0x06 => s
  | _ => s.sendNote m

/-- Sends a message: to this module's own stations in its class, or by a port; one that finds no route is undeliverable (R471). `mesh` is false
for a copy whose way over the mesh has been counted. -/
def State.sendMsg (s : State) (m : LinkMsg) (mesh : Bool := true) : State :=
  if msgDstMod m = s.selfMod then
    (if mesh then s.traverse (msgSrcSt m) (msgDstSt m) (s.msgClass m) (msgGrans m) else s).updNet (fun k => { k with inbox := k.inbox ++ [m] })
  else match s.routePort m with
    | some n => if mesh then s.queueMsg n m else s.putPort n m
    | none => (s.bump R.msg_UNREACH).undeliverable m

/-- The held messages whose route has come up leave in the order in which they were handed back (R486). -/
def State.flushNotes (s : State) : State :=
  let all := s.net.notes
  let s := s.updNet (fun k => { k with notes := [] })
  let s := all.foldl (fun s m => match s.routePort m with
    | some n => s.queueMsg n m
    | none => s.updNet (fun k => { k with notes := k.notes ++ [m] })) s
  s.wr R.msg_NOTES_Q s.net.notes.length

/-- The first waiting message of a type that no earlier one holds back: messages of a class arrive at a station in their order (R337). Marks and
snapshots have wires of their own. -/
def State.firstMsg (s : State) (type : Nat) : Option LinkMsg :=
  if type = 0x05 ∨ type = 0x06 then s.net.inbox.find? (fun m => m.type.toNat == type)
  else
    ((s.net.inbox.zipIdx).find? (fun x => x.1.type.toNat == type && !(s.net.inbox.take x.2).any (fun y =>
      y.type != 0x05 && y.type != 0x06 && msgDstSt y == msgDstSt x.1 && s.msgClass y == s.msgClass x.1))).map (·.1)

/-- Takes a message command's message: the one given, or the first of its type that can be delivered in this module. -/
def State.takeMsg (s : State) (type : Nat) (m : Option LinkMsg) : State × Option LinkMsg :=
  match m with
  | some m => (s, some m)
  | none =>
    match s.firstMsg type with
    | none => (s, none)
    | some m => (s.updNet (fun k => { k with inbox := k.inbox.erase m }), some m)

/-- Forwards a message for another module (R471), or goes on with one for this module. -/
def State.deliverOr (s : State) (m : LinkMsg) (go : State → State) : State :=
  if msgDstMod m = s.selfMod then go s else (s.bump R.msg_MSG_FWD).sendMsg m

/-- The modules of a spanning partition that this module knows, without itself (log entry 24). -/
def State.peers (s : State) (p : Nat) : List Nat :=
  ((s.leadMod p :: (s.part p).members.map (·.1)).filter (· != s.selfMod)).eraseDups

end Sys2Proof.Machine
end

