-- ==== Sys2Proof/Machine/PartOps.lean ====
section
/-! DEFINITION. What several chapters need of a partition's states: a refused enable (R536, R540), the ports a partition uses (R463,
R535), and the count of enabled partitions. -/

namespace Sys2Proof.Machine

/-- N_ENABLED (chapter 17). -/
def State.syncEnabled (s : State) : State :=
  s.wr R.acc_N_ENABLED ((List.range 64).filter (fun p => s.pstate p == 3)).length

/-- Gives up what a check or an enable in progress held. -/
def PartSt.idle (q : PartSt) : PartSt :=
  { q with zeroDone := false, flips := [], goNote := none, members := [], ports := [], goSent := false, csetSent := false
           disableReq := false }

/-- Brings ACC_BUSY and ACC_PART up to date: the check at the head of the queue runs (R536). -/
def State.syncChecks (s : State) : State :=
  match s.mgmt.checkq with
  | [] => s.wr R.acc_ACC_BUSY 0
  | p :: _ => (s.wr R.acc_ACC_BUSY 1).wr R.acc_ACC_PART p

/-- A partition leaves the queue of checks. -/
def State.unqueue (s : State) (p : Nat) : State :=
  { s with mgmt := { s.mgmt with checkq := s.mgmt.checkq.filter (· != p) } }.syncChecks

/-- The flips that an enable has queued and no edge has taken are given up. -/
def State.dropFlips (s : State) (p : Nat) : State :=
  (s.coresOf p).foldl (fun s c => s.updCore c (fun k => { k with flipReqs := k.flipReqs.filter (fun r => !r.fromEnable) })) s

/-- The check or enable of a partition ends in DISABLED under a reason (R528). -/
def State.endCheck (s : State) (p code : Nat) : State :=
  (((s.wr R.part_PSTATE 0 p).wr R.part_REASON code p).dropFlips p).updPart p PartSt.idle |>.unqueue p

/-- A refused check (R528, R536): REASON, ACC_DETAIL, REFUSED, ACC_REFUSED and PF vector 6. -/
def State.refuse (s : State) (p code detail : Nat) : State :=
  ((((s.endCheck p code).wr R.part_ACC_DETAIL detail p).wr R.part_REFUSED 1 p).bump R.acc_ACC_REFUSED).msix 0 6

/-- ENABLE_AT (chapter 17). -/
def State.enableAt (s : State) (p : Nat) : Nat := s.wide R.part_ENABLE_AT_LO R.part_ENABLE_AT_HI p

/-- The result of a member's check goes to the lead (R540): code 0 for a pass. -/
def State.sendResult (s : State) (p code : Nat) : State :=
  if s.span p && s.leadMod p != s.selfMod then
    s.sendMsg (s.mkMsg 0x0E 0 0 561 (s.leadMod p) 561 (0x41 + 256 * p + 65536 * code) (s.enableAt p))
  else s

/-- A check that fails on this module: it is refused, and the lead of a spanning partition hears of it (R536, R540). -/
def State.failCheck (s : State) (p code detail : Nat) : State := (s.sendResult p code).refuse p code detail

/-- The partition uses the port: its program record, as read by the check, lists it (R463, R535). -/
def State.usesPort (s : State) (p n : Nat) : Bool := (s.part p).ports.any (fun x => x.1 == n)

/-- Some enabled partition uses the port (R463, R488). -/
def State.portBusy (s : State) (n : Nat) : Bool := (List.range 64).any (fun p => s.enabled p && s.usesPort p n)

/-- A partition that spans modules is enabled on this module (R472). -/
def State.spanEnabled (s : State) : Bool := (List.range 64).any (fun p => s.enabled p && s.span p)

end Sys2Proof.Machine
end

