-- ==== Sys2Proof/Machine/Power.lean ====
section
/-! DEFINITION. Power, sensors and stops (chapter 20 beyond the governor's levels): the input-current stream, die sensors, shut-down
causes, latched and orderly stops, the cause pin, and the flash writes that a stop makes. -/

namespace Sys2Proof.Machine

/-! ### Flash writes (R548, R624) -/

/-- A flash write starts; a second never does while one is in progress (R548). -/
def State.flashStart (s : State) (kind off : Nat) (data : List Byte) : State :=
  if s.mem.flashOp.isSome then s
  else (s.updMem (fun m => { m with flashOp := some ⟨kind, off, data⟩ })).wr R.mgmt_FLASH_BUSY 1

/-- The byte of the Granary that holds flash byte k of the flash image (R576). -/
def imageAddr (k : Nat) : Nat := 528 * 2097152 + k

/-- A flash write ends and is verified: its bytes are in the flash and in the flash image (R547, R548, R557). -/
def State.flashEnd (s : State) : State :=
  match s.mem.flashOp with
  | none => s
  | some op =>
    let s := s.updMem (fun m => { m with
      flashOp := none, flash := m.flash.write op.off op.data, granary := m.granary.write (imageAddr op.off) op.data })
    let s := s.wr R.mgmt_FLASH_BUSY 0
    let s := if op.kind = 3 then s.wr R.mgmt_FW_RESULT 0 else s
    s.updPower (fun w => { w with ordDone := if op.kind = 0 then w.ordDone ||| 2 else if op.kind = 1 then w.ordDone ||| 4 else w.ordDone })

/-- A flash write cut short leaves its copy invalid: the first word of each of its records reads erased (R621; log entry 35). -/
def State.flashCut (s : State) : State :=
  match s.mem.flashOp with
  | none => s
  | some op =>
    let size := if op.kind = 0 then 18560 else if op.kind = 1 then 10496 else if op.kind = 2 then 64 else if op.kind = 3 then 65536 else 8
    s.updMem (fun m => { m with
      flashOp := none
      flash := (List.range (ceilDiv op.data.length size)).foldl (fun f i => f.write (op.off + size * i) (List.replicate 4 0xFF)) m.flash })

/-- The valid cause records of the flash: slot and SEQ (R624). -/
def State.causeRecs (s : State) : List (Nat × Nat) :=
  (List.range 1024).filterMap (fun i =>
    let b := s.mem.flash.bytes (0x40000 + 64 * i) 64
    if leNat (b.take 4) = 0x4B585344 ∧ leNat (b.drop 60) = crc32c (b.take 60) then some (i, leNat ((b.drop 8).take 4)) else none)

/-- The slot and SEQ of the next cause record. -/
def State.causeNext (s : State) : Nat × Nat :=
  let best := s.causeRecs.foldl (fun (a : Option (Nat × Nat)) x => match a with
    | none => some x
    | some y => if y.2 < x.2 then some x else some y) none
  match best with
  | none => (0, 1)
  | some x => ((x.1 + 1) % 1024, x.2 + 1)

/-- A cause record is appended (R624). -/
def State.appendCause (s : State) (phase : Nat) : State :=
  let n := s.causeNext
  let f := fun i => s.power.sdAt.getD i 0
  s.flashStart 2 (0x40000 + 64 * n.1) (withCheck (layout 60 [(0, 4, 0x4B585344), (4, 1, 1), (5, 1, s.rd R.therm_SD_CAUSE), (6, 1, phase),
    (7, 1, s.power.ordDone), (8, 4, n.2), (12, 6, s.power.ordTick), (18, 4, s.power.ordSince), (22, 2, f 0), (24, 2, f 1), (26, 2, f 2),
    (28, 2, f 3), (30, 2, f 4), (32, 2, f 5)]))

/-! ### The coolant inlet (R617, R684) -/

/-- The filter result at a coolant temperature, in 1/16 LSB, by the B equation of R684: 65,536 R / (R + 10 kΩ), with
R = 10 kΩ e^(3,435 (1/T - 1/298.15)), T in kelvin. -/
def thermCode (t : Int) : Nat :=
  let k : Int := 20 * t + 87408
  let x : Int := 3435 * 320 * (95408 - k) * 2 ^ 128 / (k * 95408)
  let e : Int := match expFx x with
    | .fin _ m e => toFx false m e
    | _ => 0
  (65536 * e / (e + 2 ^ 128)).toNat

/-- The greatest temperature of a range of 2^n steps from `t` on whose result is at least `v`. -/
def coolSearch (v : Nat) : Nat → Int → Int
  | 0, t => t
  | n + 1, t => if v ≤ thermCode (t + 2 ^ n) then coolSearch v n (t + 2 ^ n) else coolSearch v n t

/-- The temperature that firmware converts a coolant result to, in 1/16 °C, rounded down (log entry 34). -/
def coolTemp (v : Nat) : Int := coolSearch v 12 (-640)

/-- A result of a thermistor channel is plausible (R617). -/
def plausible (v : Nat) : Bool := decide (1600 ≤ v) && decide (v ≤ 62400)

/-! ### Causes and stops (R619 to R622) -/

/-- The hottest stack in 1/16 °C. -/
def State.hbmMax (s : State) : Int := ((List.range 24).map (fun n => sgn 16 (s.rd R.hbm_TEMP n))).foldl max (-32768)

/-- A converter or sensor finds a shut-down cause, for the stop logic to take (R619). -/
def State.raiseCause (s : State) (code value source : Nat) : State :=
  if s.power.causes.any (fun c => c.1 == code) then s
  else s.updPower (fun w => { w with causes := w.causes ++ [(code, value, source)] })

/-- The SDC_N pin begins its first frame (R620, R623). -/
def State.sdcBegin (s : State) : State := s.updPower (fun w => if w.sdcOn then w else { w with sdcOn := true, sdcPhase := 0, sdcLow := true })

/-- A latched stop begins (R620, time 0): FREEZE rises and SDC_N begins its first frame. -/
def State.latchBegin (s : State) : State :=
  (((s.wr R.gov_FREEZE 1).sdcBegin).flashCut).updPower (fun w => { w with latching := true, orderly := false })

/-- An orderly stop begins; its first step comes with the next tick edge (R621). -/
def State.orderlyBegin (s : State) (value source : Nat) : State :=
  s.sdcBegin.updPower (fun w => { w with
    orderly := true, ordTick := 0, ordSince := s.now, ordDone := 0, ordStep := 0, ordForced := false
    sdAt := [value, source, s.rd R.therm_TMAX, usg 16 s.hbmMax, usg 16 (coolTemp w.coolVal), w.vin] })

/-- A shut-down cause is taken (R619): the first is held in SD_CAUSE and stops the device as its code and SD_MODE say; a cause from 0x7 on
cuts an orderly stop short and is held in SD_CUT; any other later cause is logged. -/
def State.stopCause (s : State) (code value source : Nat) : State :=
  if s.power.latching || code == 0 then s
  else if s.rd R.therm_SD_CAUSE = 0 then
    let s := s.wr R.therm_SD_CAUSE code
    if 7 ≤ code ∨ !s.flag R.therm_SD_MODE then s.latchBegin else s.orderlyBegin value source
  else if s.power.orderly && decide (7 ≤ code) then (s.wr R.therm_SD_CUT code).latchBegin
  else s.logErr 1 0x0F code 0xFF 561 0xFFFF source

/-- SHUTDOWN_CAUSE: a cause that the world supplies, or with none the oldest that a converter or sensor found (R619). -/
def execShutdownCause (given : Option (BitVec 4 × BitVec 16 × BitVec 16)) (s : State) : Out :=
  .next (if !s.alive then s
  else match given with
    | some (c, v, n) => if 1 ≤ c.toNat ∧ c.toNat ≤ 0xC ∧ c ≠ 7 then s.stopCause c.toNat v.toNat n.toNat else s
    | none =>
      match s.power.causes with
      | [] => s
      | (c, v, n) :: r => (s.updPower (fun w => { w with causes := r })).stopCause c v n)

/-- SD_REQ: 1 written to SD_REQ raises cause 0x6 (R619). -/
def execSdReq (s : State) : Out := .next (if s.hostOk then s.stopCause 6 0 0 else s)

/-- LATCHED_STOP: engines, link ports and HBM controllers stop, the PCI Express link goes down, and every rail but VAUX is switched off; no
partition is published and nothing is written to flash (R620). -/
def execLatchedStop (s : State) : Out :=
  .next (if s.power.latching && !s.power.latched then
    let s := (List.range 512).foldl (fun s c => s.stopCore c) s
    let s := (List.range 24).foldl (fun s n => s.wr R.port_STATE 0 n) s
    let s := (((s.wr R.host_HOST_LINK 0).wr R.host_WIDTH 0).wr R.host_FLIT 0).wr R.host_IDE_UP 0
    { s with power := { s.power with latched := true }, host := { s.host with linkUp := false, linkSecure := false } }
  else s)

/-- ORDERLY_LIMIT: the time limit, or a reading 5 °C above its shut-down threshold, latches an orderly stop at once under code 0x7 (R621). -/
def execOrderlyLimit (s : State) : Out := .next (if s.alive && s.power.orderly then s.stopCause 7 0 0 else s)

/-- The SEQ of the first valid record of a flash section of 512 records, by record size, magic number and the place of SEQ; none where no
record is valid. -/
def State.sectionSeq (s : State) (off size magic at_ : Nat) : Option Nat :=
  ((List.range 512).filterMap (fun i =>
    let b := s.mem.flash.bytes (off + size * i) size
    if leNat (b.take 4) = magic ∧ leNat (b.drop (size - 4)) = crc32c (b.take (size - 4)) then some (leNat ((b.drop at_).take 4)) else none)).head?

/-- Which of two copies is written next, and its SEQ: the one that is not the newer valid one, one above the other's SEQ (R262, R548). -/
def nextCopy (a b : Option Nat) : Bool × Nat :=
  match a, b with
  | none, none => (false, 1)
  | some x, none => (true, x + 1)
  | none, some y => (false, y + 1)
  | some x, some y => if y ≤ x then (true, x + 1) else (false, y + 1)

/-- SDC_N_FRAME: the pin goes on by 1 ms through its 14 ms frame: 2 ms low, 1 ms released, the 8 bits of SD_CAUSE and SD_CUT most significant
first with low for 1, then released (R623). -/
def execSdcNFrame (s : State) : Out :=
  .next (if s.power.sdcOn && s.power.input then
    let p := (s.power.sdcPhase + 1) % 14
    let v := 16 * s.rd R.therm_SD_CAUSE + s.rd R.therm_SD_CUT
    s.updPower (fun w => { w with
      sdcPhase := p
      sdcLow := decide (p < 2) || (decide (3 ≤ p) && decide (p < 11) && bitOf v (10 - p)) })
  else s)

/-! ### Input power (R601, R608, R609) -/

/-- IIN_SAMPLE: G0 or G1 delivers a sample of the input current with its over-range flag (R590, R595); 25 consecutive samples at IIN_TRIP, or 3
with OVR, are cause 0xA. -/
def execIinSample (code : BitVec 12) (ovr : Bool) (g1 : Bool) (s : State) : Out :=
  .next (if s.alive && s.flag R.gauge_RUN then
    let v := if ovr then 4096 else code.toNat
    let s := (((s.wr R.gauge_IIN_CODE code.toNat).wr R.gauge_IIN_OVR (b2n ovr)).wr R.gauge_IIN_SRC (b2n g1)).wr R.gauge_IIN_SEQ
      (s.rd R.gauge_IIN_SEQ + 1)
    let s := if ovr then (s.bump R.gauge_IIN_OVR_CNT).wr R.gauge_OVR_MAP (s.rd R.gauge_OVR_MAP ||| 2) else s
    let hi := decide (s.rd R.gov_IIN_TRIP * 4 ≤ v)
    let s := s.updPower (fun w => { w with
      samples := w.samples ++ [v], cntIin := if hi then w.cntIin + 1 else 0, cntIinOvr := if ovr then w.cntIinOvr + 1 else 0 })
    if s.power.cntIin = 25 ∨ s.power.cntIinOvr = 3 then s.raiseCause 0xA (v / 4) 16 else s
  else s)

/-- The sum of 10 samples times the last VIN result, in units of 1/4 mW: ten times a 4 µs average of the input power (R608). -/
def State.tenSamples (s : State) : Nat := (s.power.samples.take 10).foldl (· + ·) 0 * s.power.vin

/-- The lower of 3,600 W and 75 A × VIN, in 10 mW (R609). -/
def State.moduleLimit (s : State) : Nat := min 360000 (75 * s.power.vin)

/-- FREEZE from a 4 µs average (R608): it rises above 1.05 × CEIL_EFF and falls at or below CEIL_EFF. -/
def State.stepFreeze (s : State) (x : Nat) : State :=
  if 420 * s.power.ceilEff < x then (if s.flag R.gov_FREEZE then s else (s.wr R.gov_FREEZE 1).bump R.gov_FAST_TRIPS)
  else if x ≤ 400 * s.power.ceilEff then s.wr R.gov_FREEZE 0 else s

/-- HOLD from a 4 µs average (R609): it rises above the module's limits, abandoning calibration runs, and falls at or below 0.95 of them. -/
def State.stepHold (s : State) (x : Nat) : State :=
  let l := s.moduleLimit
  if 400 * l < x then
    if s.flag R.gov_HOLD then s
    else
      let s := ((s.wr R.gov_HOLD 1).bump R.gov_HOLD_TRIPS).logErr 1 0x0F 0 0xFF 561
      (List.range 512).foldl (fun s c => s.calAbandon c) s
  else if x ≤ 380 * l then s.wr R.gov_HOLD 0 else s

/-- FAST_AVERAGE: ten samples form a 4 µs average of the input power, which sets or clears FREEZE and HOLD (R608, R609). -/
def execFastAverage (s : State) : Out :=
  .next (if s.alive && decide (10 ≤ s.power.samples.length) then
    let x := s.tenSamples
    let s := (s.stepFreeze x).stepHold x
    s.updPower (fun w => { w with
      samples := w.samples.drop 10, tickSum := w.tickSum + x, tickN := w.tickN + 1, tickPeak := max w.tickPeak x })
  else s)

/-- At a tick edge, PIN_W and PIN_PEAK show the tick that ended (R626). -/
def State.pinEdge (s : State) : State :=
  let w := s.power
  let watts := fun (x : Nat) => min (x / 40000) 0xFFF
  let s := if w.tickN = 0 then s else (s.wr R.gov_PIN_W (watts (w.tickSum / w.tickN))).wr R.gov_PIN_PEAK (watts w.tickPeak)
  s.updPower (fun w => { w with tickSum := 0, tickN := 0, tickPeak := 0 })

/-- The present moment in cycles (the period in force applied to the tick number). -/
def State.cycles (s : State) : Nat := s.tickNum * s.period + s.cyc

/-- IREV_TRIP: reverse current opens the ideal-diode stage; the third trip within 1 ms is cause 0xC (R601). -/
def execIrevTrip (s : State) : Out :=
  .next (if s.alive then
    let s := (s.bump R.gov_IREV_TRIPS).updPower (fun w => { w with
      diodeOff := true, irevTimes := (w.irevTimes.filter (fun t => decide (s.cycles < t + 2000000))) ++ [s.cycles] })
    if 3 ≤ s.power.irevTimes.length then s.raiseCause 0xC 0 42 else s
  else s)

/-! ### Die sensors (R612 to R616) -/

/-- A sensor's reading in 1/16 °C, after R614. -/
def State.sensT (s : State) (i : Nat) : Int := sgn 16 (s.rd R.therm_SENS_T 0 i)

/-- The clusters next to a cluster on the mesh. -/
def nextClusters (cl : Nat) : List Nat := (List.range 4).filterMap (fun k => (neighbourOf cl k))
where
  /-- The neighbour in direction k: north, east, south, west. -/
  neighbourOf (r k : Nat) : Option Nat :=
    if k = 0 then (if 8 ≤ r then some (r - 8) else none)
    else if k = 1 then (if r % 8 < 7 then some (r + 1) else none)
    else if k = 2 then (if r < 24 then some (r + 8) else none)
    else if 0 < r % 8 then some (r - 1) else none

/-- The non-faulty neighbours of a sensor (R613). -/
def State.sensNeighbours (s : State) (i : Nat) : List Nat :=
  (((List.range 4).map (fun q => 4 * (i / 4) + q)).filter (· != i) ++ (nextClusters (i / 4)).map (fun k => 4 * k + i % 4)).filter
    (fun j => !s.flag R.therm_FAULTY 0 j)

/-- The median of a sensor's neighbours: the middle reading, or the higher of the two middle ones (R613); none without a neighbour. -/
def State.sensMedian (s : State) (i : Nat) : Option Int :=
  (sortBy (fun a b => decide (a ≤ b)) ((s.sensNeighbours i).map s.sensT))[(s.sensNeighbours i).length / 2]?

/-- A cluster's warning state from its four readings (R615): entered at the threshold, left 5 °C below it. -/
def State.warnCluster (s : State) (cl : Nat) : State :=
  let ts := (List.range 4).map (fun q => s.sensT (4 * cl + q))
  let th : Int := 16 * s.rd R.therm_WARN_C
  let on := bitOf (s.rd R.therm_WARN_CL) cl
  if !on && ts.any (fun t => decide (th ≤ t)) then
    ((((s.wr R.therm_WARN_CL (setBit (s.rd R.therm_WARN_CL) cl true)).bump R.therm_WARN_EVENTS).logErr 1 0x0F 0 0xFF 561 0xFFFF cl)).msix 0 3
  else if on && ts.all (fun t => decide (t ≤ th - 80)) then s.wr R.therm_WARN_CL (setBit (s.rd R.therm_WARN_CL) cl false)
  else s

/-- A cluster's throttle state (R615, R616). -/
def State.throttleCluster (s : State) (cl : Nat) : State :=
  let ts := (List.range 4).map (fun q => s.sensT (4 * cl + q))
  let th : Int := 16 * s.rd R.therm_THROT_C
  let on := bitOf (s.rd R.therm_THROT_CL) cl
  if !on && ts.any (fun t => decide (th ≤ t)) then
    ((s.wr R.therm_THROT_CL (setBit (s.rd R.therm_THROT_CL) cl true)).bump R.therm_THROT_EVENTS).msix 0 3
  else if on && ts.all (fun t => decide (t ≤ th - 80)) then s.wr R.therm_THROT_CL (setBit (s.rd R.therm_THROT_CL) cl false)
  else s

/-- TMAX and its sensor (R614). -/
def State.syncTmax (s : State) : State :=
  let best := (List.range 128).foldl (fun (b : Nat) i => if s.sensT b < s.sensT i then i else b) 0
  (s.wr R.therm_TMAX (usg 16 (s.sensT best))).wr R.therm_TMAX_SENS best

/-- SENSOR_CONVERT: a die sensor converts (none for a failed conversion); a faulty one takes its neighbours' median (R612, R614, R615). -/
def execSensorConvert (sensor : BitVec 7) (reading : Option (BitVec 16)) (s : State) : Out :=
  let i := sensor.toNat
  .next (if !s.alive then s
  else
    let s := s.updPower (fun w => { w with convFail := Marks.put w.convFail i reading.isNone })
    let t : Int := if s.flag R.therm_FAULTY 0 i then (s.sensMedian i).getD (s.sensT i) else
      (reading.map (fun r => sgn 16 r.toNat)).getD (s.sensT i)
    let s := ((s.wr R.therm_SENS_T (usg 16 t) 0 i).syncTmax)
    let s := (s.warnCluster (i / 4)).throttleCluster (i / 4)
    let shut : Int := 16 * s.rd R.therm_SHUT_C
    if s.power.orderly && decide (shut + 80 ≤ t) then s.raiseCause 7 (usg 16 t) i
    else if shut ≤ t then s.raiseCause 1 (usg 16 t) i else s)

/-- A sensor is declared faulty (R613); a third faulty sensor of a cluster is cause 0x5 (R614). -/
def State.sensFail (s : State) (i : Nat) : State :=
  let s := (s.wr R.therm_FAULTY 1 0 i).wr R.therm_SENS_FAULT (s.rd R.therm_SENS_FAULT 0 (i / 32) ||| 2 ^ (i % 32)) 0 (i / 32)
  let s := (s.bump R.therm_SENS_FAULTS).logErr 1 0x0F 0 0xFF 561 0xFFFF i
  if 3 ≤ ((List.range 4).filter (fun q => s.flag R.therm_FAULTY 0 (4 * (i / 4) + q))).length then s.raiseCause 5 0 i else s

/-- One sensor's check against its neighbours as they stood when the check began (R613). -/
def State.sensCheck (s s0 : State) (i : Nat) : State :=
  if s0.flag R.therm_FAULTY 0 i then s
  else if Marks.has s0.power.convFail i then s.sensFail i
  else if (s0.sensNeighbours i).length < 3 then s.wr R.therm_NO_CHECK 1 0 i
  else
    let s := s.wr R.therm_NO_CHECK 0 0 i
    let off := decide (16 * s0.rd R.therm_CROSS_MARGIN < (s0.sensT i - (s0.sensMedian i).getD 0).natAbs)
    let n := if off then Tbl.get 0 s.power.disagree i + 1 else 0
    let s := s.updPower (fun w => { w with disagree := Tbl.set 0 w.disagree i n })
    if 4 ≤ n then s.sensFail i else s

/-- SENSOR_CROSS_CHECK: the check of every 1 ms (R613). -/
def execSensorCrossCheck (s : State) : Out :=
  .next (if s.alive then (List.range 128).foldl (fun t i => t.sensCheck s i) s else s)

end Sys2Proof.Machine
end

