-- ==== Sys2Proof/Machine/TierOps.lean ====
section
/-! DEFINITION. Request-table entries, page maps, the page pool and tier events (R356 to R375, R384): what the tier meanings,
the transfer engine and the frame actions share. -/

namespace Sys2Proof.Machine

/-! ### The request table (R356 to R359) -/

/-- The entry of a request. -/
def State.req (s : State) (n : Nat) : ReqEntry := Tbl.get {} s.tier.reqs n

/-- Changes the entry of a request. -/
def State.updReq (s : State) (n : Nat) (f : ReqEntry → ReqEntry) : State :=
  { s with tier := { s.tier with reqs := Tbl.upd {} s.tier.reqs n f } }

/-- Changes the tier manager. -/
def State.updTier (s : State) (f : TierSt → TierSt) : State := { s with tier := f s.tier }

/-- The 256 bytes of an entry with its CHECK (R358). -/
def ReqEntry.bytes (e : ReqEntry) : List Byte :=
  withCheck ((layout 128 ([(0, 1, 1), (1, 1, e.tstate), (2, 1, e.owner), (3, 1, e.flags), (4, 4, e.len), (8, 4, e.lenMax),
    (12, 4, e.passes), (16, 8, e.seed), (24, 6, e.lastTick), (30, 6, e.stateTick), (36, 4, e.ttl), (40, 4, e.pagesG),
    (44, 4, e.pagesS), (48, 5, e.pmap), (56, 5, e.counts), (64, 4, e.promo), (80, 1, e.kcur), (81, 1, e.kround),
    (82, 1, e.winN), (83, 1, e.sflags), (84, 2, e.winK), (86, 2, e.winA), (88, 2, e.offTok), (90, 2, e.smod),
    (92, 4, e.pend)] ++ (e.draft.zipIdx).map (fun d => (96 + 4 * d.2, 4, d.1)))) ++ e.sampler ++ e.hostTag ++
    List.replicate 28 0)

/-- Reads an entry image (R383): its CHECK holds. -/
def imageOk (bs : List Byte) : Bool := crc32c (bs.take 252) == leNat ((bs.drop 252).take 4)

/-- The first device granule of a request's entry. -/
def entryGran (n : Nat) : Nat := 512 * 32768 + 4 * n

/-- A read of a request's entry: pending errors of its four granules take effect; true when one is poisoned (R359). -/
def State.entryRead (s : State) (n : Nat) : State × Bool :=
  let s := (List.range 4).foldl (fun s i => s.eccGran (entryGran n + i)) s
  (s, (List.range 4).any (fun i => s.granBad (entryGran n + i)))

/-- An entry that fails its check (R359, R633): the enabled partition whose range holds it is reset; with none, a deferred error is
logged and the entry is rewritten FREE at the next edge, its moves and deadlines stopped. -/
def State.entryFail (s : State) (n : Nat) : State :=
  match s.reqOwner n with
  | some p => s.partFatal 0x08 0 p 0 n
  | none =>
    if s.tier.rewrite.contains n then s
    else (s.logErr 2 0x08 0 0xFF 0 n).updTier (fun t => { t with
      rewrite := t.rewrite ++ [n], moves := t.moves.filter (fun m => m.req != n) })

/-- Rewrites the failed entries as FREE (R359). -/
def State.rewriteEntries (s : State) : State :=
  let s := s.tier.rewrite.foldl (fun s n =>
    let s := s.updReq n (fun _ => {})
    s.updMem (fun m => { m with granPoison := Marks.clear m.granPoison (entryGran n) 4 })) s
  s.updTier (fun t => { t with rewrite := [] })

/-! ### The page map (R361 to R366) -/

/-- VIEW_LOG2 of a partition. -/
def State.viewLog2 (s : State) (p : Nat) : Nat := s.rd R.ptier_VIEW_LOG2 p
/-- KV_ROW of a partition. -/
def State.kvRow (s : State) (p : Nat) : Nat := s.rd R.ptier_KV_ROW p
/-- KV_STREAMS of a partition. -/
def State.kvStreams (s : State) (p : Nat) : Nat := s.rd R.ptier_KV_STREAMS p + 1
/-- PP of R366: positions of one stream in a page. -/
def State.pagePos (s : State) (p : Nat) : Nat := 512 / max 1 (s.kvRow p)
/-- The logical pages of a request's view. -/
def State.viewPages (s : State) (p : Nat) : Nat := 2 ^ s.viewLog2 p / 1024

/-- The device byte address of byte `b` of a partition's linear space, none outside it. -/
def State.linByte (s : State) (p b : Nat) : Option Nat := (s.linGran p (b / 64)).map (fun d => 64 * d + b % 64)

/-- A number of `n` bytes in a partition's linear space; 0 outside it. -/
def State.linLe (s : State) (p b n : Nat) : Nat := match s.linByte p b with
  | some a => s.granLe a n
  | none => 0

/-- Writes a number of `n` bytes of a partition's linear space. -/
def State.putLinLe (s : State) (p b n v : Nat) : State := match s.linByte p b with
  | some a => s.putGranBytes a (toLe n v)
  | none => s

/-- A page-map entry (R363). -/
structure MapEnt where
  loc : Nat
  where_ : Nat
  psn : Bool
  schk : Nat
  deriving DecidableEq, Repr

/-- Reads entry `l` of a request's page map. -/
def State.mapEnt (s : State) (p n l : Nat) : MapEnt :=
  let v := s.linLe p (64 * (s.req n).pmap + 8 * l) 8
  ⟨bitsOf v 0 26, bitsOf v 26 2, bitOf v 28, bitsOf v 32 32⟩

/-- Writes entry `l` of a request's page map. -/
def State.putMapEnt (s : State) (p n l : Nat) (e : MapEnt) : State :=
  s.putLinLe p (64 * (s.req n).pmap + 8 * l) 8 (e.loc + 2 ^ 26 * e.where_ + 2 ^ 28 * b2n e.psn + 2 ^ 32 * e.schk)

/-- A Granary page lies in a partition's own extents. A map entry that names another page was written in breach of R364, and reaches nothing
(R295). -/
def State.holdsPage (s : State) (p g : Nat) : Bool := s.holdsBushel p (g / 32)

/-- The logical pages of a request that are mapped to the Granary. -/
def State.mappedPages (s : State) (p n : Nat) : List Nat :=
  (List.range (s.viewPages p)).filter (fun l => decide (0 < l) && (s.mapEnt p n l).where_ == 1 && s.holdsPage p (s.mapEnt p n l).loc)

/-- The live slots of a logical page (R366, R367): page 1 + s + KV_STREAMS × i holds positions PP × i and up. -/
def State.liveSlots (s : State) (p n l : Nat) : Nat :=
  min ((s.req n).len - s.pagePos p * ((l - 1) / s.kvStreams p)) (s.pagePos p)

/-! ### The page pool (R369) and the Silo list (R380) -/

/-- The device pages of a partition's pool, ascending. -/
def State.poolPages (s : State) (p : Nat) : List Nat :=
  let bs := ((s.extents p).filter (fun e => e.2.2)).flatMap (fun e => (List.range e.2.1).map (fun i => e.1 + i))
  (sortBushels bs).flatMap (fun b => (List.range 32).map (fun i => 32 * b + i))
where
  /-- bushel numbers in ascending order -/
  sortBushels (bs : List Nat) : List Nat := bs.foldr (fun x l => (l.takeWhile (· < x)) ++ x :: l.dropWhile (· < x)) []

/-- The free pages of a partition's pool, ascending. -/
def State.freePages (s : State) (p : Nat) : List Nat := (s.poolPages p).filter (fun g => !Marks.has s.tier.used g)

/-- The key of a Silo list entry. -/
def siloKey (p i : Nat) : Nat := p * 67108864 + i

/-- The free Silo list entries of a partition, ascending. -/
def State.freeSilo (s : State) (p : Nat) : List Nat :=
  (List.range (s.rd R.ptier_SILO_COUNT p)).filter (fun i => !Marks.has s.tier.silo (siloKey p i))

/-- Brings POOL_FREE and SILO_FREE of a partition, and MOVES, up to date (R386, R387). -/
def State.syncTier (s : State) (p : Nat) : State :=
  ((s.wr R.ptier_POOL_FREE (s.freePages p).length p).wr R.ptier_SILO_FREE (s.freeSilo p).length p).wr R.tm_MOVES
    (min (s.tier.moves.filter (·.begun)).length 0xFFFF)

/-- The bus address of a Silo page (R380). -/
def State.siloAddr (s : State) (p i : Nat) : Nat :=
  s.linLe p (64 * (s.rd R.ptier_SILO_LIST_LO p + 2 ^ 32 * s.rd R.ptier_SILO_LIST_HI p) + 8 * i) 8

/-- Takes the lowest free page of the pool (R369). -/
def State.allocPage (s : State) (p : Nat) : State × Option Nat :=
  match (s.freePages p).head? with
  | none => (s, none)
  | some g => ((s.updTier (fun t => { t with used := Marks.put t.used g true })).syncTier p, some g)

/-- Frees a page: it is zeroed and returns to the pool (R369). -/
def State.freePage (s : State) (g : Nat) : State :=
  (s.zeroGrans (1024 * g) 1024).updTier (fun t => { t with used := Marks.put t.used g false })

/-- Frees every Granary page of a request and unmaps it. -/
def State.freeGranary (s : State) (p n : Nat) : State :=
  let s := (s.mappedPages p n).foldl (fun s l =>
    let g := (s.mapEnt p n l).loc
    (s.freePage g).putMapEnt p n l ⟨0, 0, false, 0⟩) s
  (s.updReq n (fun e => { e with pagesG := 0 })).syncTier p

/-- Frees the Silo pages that a request's map names. -/
def State.freeSiloPages (s : State) (p n : Nat) : State :=
  let s := (List.range (s.viewPages p)).foldl (fun s l =>
    let e := s.mapEnt p n l
    if 0 < l ∧ e.where_ = 2 then
      (s.updTier (fun t => { t with silo := Marks.put t.silo (siloKey p e.loc) false })).putMapEnt p n l ⟨0, 0, false, 0⟩
    else s) s
  (s.updReq n (fun e => { e with pagesS := 0 })).syncTier p

/-- Gives up a move: what it reserved is freed. -/
def State.dropMove (s : State) (p n : Nat) : State :=
  match s.tier.moves.find? (fun m => m.req == n) with
  | none => s
  | some m =>
    let ps := m.left ++ m.done
    let s := s.updTier (fun t => { t with
      moves := t.moves.filter (fun x => x.req != n)
      silo := if m.park then ps.foldl (fun k x => Marks.put k (siloKey p x.silo) false) t.silo else t.silo })
    let s := if m.park || !m.begun then s else ps.foldl (fun s x =>
      (s.freePage x.gran).putMapEnt p n x.page ⟨x.silo, 2, x.psn, x.crc⟩) s
    s.syncTier p

/-! ### Tier events (R384) -/

/-- Adds a tier event of a request's partition, written at c 64 of the edge. -/
def State.tierEvent (s : State) (p n event pages : Nat) : State :=
  let ev := layout 16 [(0, 1, event), (2, 2, n), (4, 4, pages), (8, 6, s.tickNum)] ++ ((s.req n).hostTag.take 16)
  s.updPart p (fun q => { q with tierEvents := q.tierEvents ++ [ev] })

/-- Sets the tier state of a request, with its tick (R358, R370). -/
def State.setTier (s : State) (n st : Nat) : State :=
  s.updReq n (fun e => { e with tstate := st, stateTick := s.tickNum })

/-- The idle deadline of a request is computed with the partition's IDLE_MS of now (R372, R387). -/
def State.setIdle (s : State) (p n : Nat) : State :=
  s.updTier (fun t => { t with idleMs := Tbl.set 2000 t.idleMs n (s.rd R.ptier_IDLE_MS p) })

/-- The partition that a request belongs to: the one of its range, else the OWNER of its entry. -/
def State.reqPart (s : State) (n : Nat) : Nat := (s.reqOwner n).getD (s.req n).owner

/-- A period change recomputes the idle deadline of every request (R372). -/
def State.resetIdle (s : State) : State := s.tier.reqs.foldl (fun s e => s.setIdle (s.reqPart e.1) e.1) s

/-- A request becomes FAILED with all its pages freed (R370, R632). -/
def State.failReq (s : State) (p n : Nat) : State :=
  let s := (s.dropMove p n)
  let s := ((s.freeGranary p n).freeSiloPages p n)
  (s.updReq n (fun e => { e with flags := Nat.lor e.flags 2 })).setTier n 7

/-! ### The view (R361 to R365) -/

/-- Where a view granule lies: outside the space, in the head page, in a page of a request. -/
inductive ViewLoc where
  | outside
  | head (req off : Nat)
  | page (req l off : Nat)
  deriving DecidableEq, Repr

/-- Locates a view granule of a partition (R361, R362). -/
def State.viewLoc (s : State) (p v : Nat) : ViewLoc :=
  let r := v / 2 ^ s.viewLog2 p
  let o := v % 2 ^ s.viewLog2 p
  if s.reqCount p ≤ r then .outside
  else if o < 1024 then .head (s.reqBase p + r) o
  else .page (s.reqBase p + r) (o / 1024) (o % 1024)

/-- A read of granule `o` of a request's head page (R362): its entry, its promotion block, or zeros. -/
def State.headGran (s : State) (n o : Nat) : State × List Byte × Bool :=
  if o < 4 then (s, ((s.req n).bytes.drop (64 * o)).take 64, false)
  else if o < 8 then s.readGran (520 * 32768 + 4 * n + (o - 4))
  else (s, List.replicate 64 0, false)

/-- An entry is looked at: false where it fails its check, with what follows (R359). -/
def State.checkReq (s : State) (n : Nat) : State × Bool :=
  let r := s.entryRead n
  if r.2 then (r.1.entryFail n, false) else (r.1, true)

/-- The Granary pages that requests of a partition or their moves hold. -/
def State.pagesHeld (s : State) (p : Nat) : List Nat :=
  (s.tier.reqs.filter (fun e => e.2.tstate != 0 && s.reqPart e.1 == p)).flatMap (fun e => (s.mappedPages p e.1).map (fun l => (s.mapEnt p e.1 l).loc)) ++
    (s.tier.moves.filter (fun m => s.reqPart m.req == p)).flatMap (fun m => (m.left ++ m.done).map (·.gran))

/-- The Silo list entries that requests of a partition or their moves hold. -/
def State.siloHeld (s : State) (p : Nat) : List Nat :=
  (s.tier.reqs.filter (fun e => e.2.tstate != 0 && s.reqPart e.1 == p)).flatMap (fun e =>
    (((List.range (s.viewPages p)).map (s.mapEnt p e.1)).filter (fun m => m.where_ == 2)).map (·.loc)) ++
    (s.tier.moves.filter (fun m => s.reqPart m.req == p)).flatMap (fun m => (m.left ++ m.done).map (·.silo))

/-- A partition's extents are written again: the pages in them that no request holds any more are free (R359). -/
def State.reclaimPages (s : State) (p : Nat) : State :=
  let held := s.pagesHeld p
  s.updTier (fun t => { t with used := t.used.filter (fun e => !s.holdsPage p e.1 || held.contains e.1) })

/-- A partition's Silo list is written again: the entries that no request holds any more are free (R359). -/
def State.reclaimSilo (s : State) (p : Nat) : State :=
  let held := s.siloHeld p
  s.updTier (fun t => { t with silo := t.silo.filter (fun e => e.1 / 67108864 != p || held.contains (e.1 % 67108864)) })

/-- A request's state allows view accesses to its Granary pages (R365). -/
def ReqEntry.open_ (e : ReqEntry) : Bool := e.tstate == 2 || e.tstate == 3

end Sys2Proof.Machine
end

