-- ==== Sys2Proof/Machine/Hbm.lean ====
section
/-! DEFINITION. The HBM controllers and the BAR2 aperture (chapter 13): scrub, refresh, stack temperature, interface failure; aperture
reads and writes, the aperture map and its size. -/

namespace Sys2Proof.Machine

/-! ### Controllers (R428 to R434) -/

/-- The number of granules of a stack: 96 GiB (R419). -/
def stackGrans : Nat := granCount / 24

/-- Granule i of a stack, in ascending order of device granules (R420). -/
def stackGran (n i : Nat) : Nat := (i / 16 * 24 + n) * 16 + i % 16

/-- HBM_SCRUB: the next granule of the sweep is read and corrected or poisoned (R426, R428); `found` are errors that have come up in cells
of the stack and that a read will meet, `odecc` the corrections its on-die ECC reported (R416). -/
def execHbmScrub (stack : BitVec 5) (found : List (BitVec 36 × Bool)) (odecc : BitVec 16) (s : State) : Out :=
  let n := stack.toNat
  .next (if s.alive ∧ n < 24 then
    let s := found.foldl (fun s x => if stackOf x.1.toNat = n ∧ x.1.toNat < granCount then
      s.updMem (fun m => { m with granErr := Tbl.set 0 m.granErr x.1.toNat (if x.2 then 2 else 1) }) else s) s
    let s := if odecc.toNat = 0 then s else s.bump R.hbm_ODECC odecc.toNat n
    let i := Tbl.get 0 s.mem.scrubAt n
    (s.readGran (stackGran n i)).1.updMem (fun m => { m with scrubAt := Tbl.set 0 m.scrubAt n ((i + 1) % stackGrans) })
  else s)

/-- The stack's temperature in 1/16 °C. -/
def State.hbmT (s : State) (n : Nat) : Int := sgn 16 (s.rd R.hbm_TEMP n)

/-- HBM_REFRESH: per-bank refresh runs at the doubled rate above 85 °C (R430). -/
def execHbmRefresh (stack : BitVec 5) (s : State) : Out :=
  let n := stack.toNat
  .next (if n < 24 ∧ (s.alive || s.power.fatal) then s.wr R.hbm_REFRESH_2X (b2n (decide (85 * 16 < s.hbmT n))) n else s)

/-- A state with a threshold and 5 °C of hysteresis, after a reading (R432, R433). -/
def hysteresis (on : Bool) (t th : Int) : Bool := decide (th ≤ t) || (on && !decide (t ≤ th - 80))

/-- A stack's reading is compared with its thresholds (R432 to R434). -/
def State.hbmReading (s : State) (n : Nat) (t : Int) : State :=
  let s := s.wr R.hbm_TEMP (usg 16 t) n
  let w := hysteresis (s.flag R.hbm_WARN n) t (16 * s.rd R.hbm_WARN_C n)
  let s := if w && !s.flag R.hbm_WARN n then s.logErr 1 0x0A 0 0xFF (512 + n) 0xFFFF n else s
  let h := hysteresis (s.flag R.hbm_THROTTLE n) t (16 * s.rd R.hbm_THROT_C n)
  let s := ((s.wr R.hbm_WARN (b2n w) n).wr R.hbm_THROTTLE (b2n h) n).wr R.hbm_REFRESH_2X (b2n (decide (85 * 16 < t))) n
  let shut : Int := 16 * s.rd R.hbm_SHUT_C n
  if s.power.orderly && decide (shut + 80 ≤ t) then s.raiseCause 7 (usg 16 t) n
  else if shut ≤ t then s.raiseCause 2 (usg 16 t) n else s

/-- HBM_TEMP_READ: the read-out of every millisecond; a second failure in succession counts as a reading at the shut-down threshold (R433). -/
def execHbmTempRead (stack : BitVec 5) (reading : Option (BitVec 16)) (s : State) : Out :=
  let n := stack.toNat
  .next (if s.alive ∧ n < 24 then
    let s := if s.flag R.hbm_THROTTLE n then s.bump R.hbm_THROT_MS 1 n else s
    let failed := Marks.has s.mem.tempFail n
    let s := s.updMem (fun m => { m with tempFail := Marks.put m.tempFail n reading.isNone })
    match reading with
    | some t => s.hbmReading n (sgn 16 t.toNat)
    | none => if failed then s.hbmReading n (16 * s.rd R.hbm_SHUT_C n) else s
  else s)

/-- HBM_INTERFACE_FAIL: a stack's interface fails while the device serves: device-fatal (R429, R633). -/
def execHbmInterfaceFail (stack : BitVec 5) (s : State) : Out :=
  let n := stack.toNat
  .next (if s.alive ∧ s.booted ∧ n < 24 then s.devFatal 0x0A 0 (512 + n) n else s)

/-! ### The aperture (R435 to R438, R440) -/

/-- A segment's size in bushels (R435, R436). -/
def State.segBushels (s : State) : Nat := 2 ^ (s.rd R.bar2_SIZE_LOG2 - 26)

/-- The device granule behind an aperture granule, none in a segment that is closed or beyond the aperture (R435). -/
def State.aperGran (s : State) (g : Nat) : Option Nat :=
  let size := s.segBushels * 32768
  if g / size < 32 ∧ s.flag R.bar2_VALID 0 (g / size) then some (s.rd R.bar2_BASE_BUSHEL 0 (g / size) * 32768 + g % size) else none

/-- The aperture granules of an access. -/
def aperSpan (a n : Nat) : List Nat := (List.range (granSpan a n)).map (fun i => a / 64 + i)

/-- A device granule as the host reads it; the request table shows its entries (R358, R421). -/
def State.hostGran (s : State) (d : Nat) : State × List Byte × Bool :=
  let r := s.readGran d
  if entryGran 0 ≤ d ∧ d < entryGran 65536 ∧ !r.2.2 then
    let k := d - entryGran 0
    (r.1, (((r.1.req (k / 4)).bytes.drop (64 * (k % 4))).take 64, false))
  else r

/-- BAR2 reads are served while the device runs and in a device-fatal stop (R635). -/
def State.bar2Ok (s : State) : Bool := (s.alive || s.power.fatal) && !s.power.latched && s.booted && !s.fnBlocked 0

/-- A host read completes as an unsupported request and returns no data (R437, R522). -/
def State.unsupported (s : State) : State :=
  { s with host := { s.host with answer := [], answerBad := false, answerUr := true } }

/-- BAR2_READ (R426, R437). -/
def execBar2Read (addr : BitVec 36) (len : BitVec 13) (s : State) : Out :=
  let a := addr.toNat
  let n := len.toNat
  .next (if !s.bar2Ok then (if s.host.linkUp then s.unsupported else s)
  else if n == 0 || decide (2 ^ s.rd R.bar2_SIZE_LOG2 < a + n) then s
  else
    let gs := (aperSpan a n).map s.aperGran
    if gs.any (·.isNone) then
      (s.hae 3 0 2 false n a 0).unsupported
    else
      let r := (gs.filterMap id).foldl (fun (acc : State × List Byte × Bool) d =>
        let x := acc.1.hostGran d
        (x.1, acc.2.1 ++ x.2.1, acc.2.2 || x.2.2)) (s, [], false)
      { r.1 with host := { r.1.host with answer := (r.2.1.drop (a % 64)).take n, answerBad := r.2.2, answerUr := false } })

/-- One granule of an aperture write: `bs` at byte `o` of the granule. A whole granule replaces it; a part of one is read, merged and
written, and leaves poison standing and counts it, found by this read or stored before (R425, R427). Data that arrives poisoned poisons what it touches (R284). -/
def State.bar2Gran (s : State) (d o : Nat) (bs : List Byte) (bad : Bool) : State :=
  if bs.length = 64 then s.writeGran d bs bad
  else
    let r := s.readGran d
    if r.2.2 then (if s.granBad d then r.1 else r.1.bump R.hbm_POISON_RD 1 (stackOf d)) else r.1.writeGran d (r.2.1.take o ++ bs ++ r.2.1.drop (o + bs.length)) bad

/-- BAR2_WRITE (R437). -/
def execBar2Write (addr : BitVec 36) (data : List Byte) (poisoned : Bool) (s : State) : Out :=
  let a := addr.toNat
  let n := data.length
  .next (if !s.hostOk || n == 0 || decide (2 ^ s.rd R.bar2_SIZE_LOG2 < a + n) then s
  else
    let gs := (aperSpan a n).map (fun g => (g, s.aperGran g))
    if gs.any (fun x => x.2.isNone) then s.hae 3 0 2 true n a (leNat (data.take 4))
    else if gs.any (fun x => decide (x.2.getD 0 / 32768 < 1024)) then s.hae 4 0 2 true n a (leNat (data.take 4))
    else gs.foldl (fun s x =>
      let lo := max a (64 * x.1)
      let hi := min (a + n) (64 * x.1 + 64)
      s.bar2Gran (x.2.getD 0) (lo - 64 * x.1) ((data.drop (lo - a)).take (hi - lo)) poisoned) s)

/-- The value of a map entry is one that R436 takes. -/
def State.mapOk (s : State) (base : Nat) : Bool :=
  base % s.segBushels == 0 && decide (base + s.segBushels ≤ 1179648)

/-- A write of a segment's map entry (R436, R440). -/
def State.mapWrite (s : State) (k v : Nat) : State :=
  if s.mapOk (v % 2 ^ 21) then (s.wr R.bar2_BASE_BUSHEL (v % 2 ^ 21) 0 k).wr R.bar2_VALID (v / 2 ^ 31) 0 k
  else s.hae 3 0 0 true 4 (0x03200100 + 4 * k) v

/-- BAR2_MAP_WRITE. -/
def execBar2MapWrite (seg : BitVec 5) (value : Word) (s : State) : Out :=
  .next (if s.hostOk then s.mapWrite seg.toNat value.toNat else s)

/-- Every segment closes. -/
def State.closeSegments (s : State) : State := (List.range 32).foldl (fun s k => s.wr R.bar2_VALID 0 0 k) s

/-- BAR2_RESIZE: the host changes the aperture's size while the memory decode is disabled; every segment closes (R506). -/
def execBar2Resize (n : BitVec 6) (decode : Bool) (s : State) : Out :=
  .next (if s.alive ∧ s.host.linkUp ∧ 28 ≤ n.toNat ∧ n.toNat ≤ 36 ∧ !decode then (s.wr R.bar2_SIZE_LOG2 n.toNat).closeSegments else s)

end Sys2Proof.Machine
end

