-- ==== Sys2Proof/Machine/HostIf.lean ====
section
/-! DEFINITION. The host interface (chapter 16): the link and IDE, held writes, MSI-X masks, host copies, function reset, submission-ring
enables and accesses of a wrong form. -/

namespace Sys2Proof.Machine

/-- Changes the host interface. -/
def State.updHost (s : State) (f : HostSt → HostSt) : State := { s with host := f s.host }

/-- Brings HELD up to date. -/
def State.syncHeldWrites (s : State) : State := s.wr R.host_HELD (min s.host.held.length 0x1FFFF)

/-- The held writes of functions that are no longer blocked go out in order (R524). -/
def State.drainHeld (s : State) : State :=
  let out := s.host.held.filter (fun w => !s.fnBlocked w.fn)
  let left := s.host.held.filter (fun w => s.fnBlocked w.fn)
  (out.foldl (fun s w => s.deliver w) (s.updHost (fun h => { h with held := left }))).syncHeldWrites

/-! ### Link and IDE (R505, R522 to R525, R682) -/

/-- The host link goes down: only configuration state is reset, and writes to the host are held (R524, R525). A stream does not outlive
its link (log entry 33). -/
def State.linkDown (s : State) : State :=
  (((((s.wr R.host_HOST_LINK 0).wr R.host_WIDTH 0).wr R.host_FLIT 0).wr R.host_IDE_UP 0).bump R.host_LINK_DOWNS).updHost
    (fun h => { h with linkUp := false, linkSecure := false, fnSecure := [] })

/-- HOST_LINK_DOWN: the link is lost, or a hot reset comes. -/
def execHostLinkDown (s : State) : Out := .next (if s.host.linkUp then s.linkDown else s)

/-- HOST_LINK_UP: the link has trained to a rate and a width (R505); it exists from STAGE 2 on (R558). Writes that were held go out. -/
def execHostLinkUp (gen : BitVec 3) (width : BitVec 5) (flit : Bool) (s : State) : Out :=
  let g := gen.toNat
  .next (if !s.host.linkUp && s.power.stages && !s.power.latched && decide (2 ≤ s.rd R.mgmt_STAGE) && decide (5 ≤ g) && decide (g ≤ 7) &&
      [1, 2, 4, 8, 16].contains width.toNat && (flit || g == 5) then
    ((((s.wr R.host_HOST_LINK g).wr R.host_WIDTH width.toNat).wr R.host_FLIT (b2n flit)).updHost (fun h => { h with linkUp := true })).drainHeld
  else s)

/-- IDE_FAIL: a stream detects an integrity failure and becomes insecure: the link stream (none) or the selective stream of a function
(R523). -/
def execIdeFail (stream : Option (BitVec 7)) (s : State) : Out :=
  .next (match stream with
    | none =>
      if s.host.linkUp && s.host.linkSecure then
        ((s.wr R.host_IDE_UP 0).bump R.host_HOST_IDE_FAIL).updHost (fun h => { h with
          linkSecure := false, fnInsecure := (List.range 65).foldl (fun m f => Marks.put m f true) h.fnInsecure })
      else s
    | some f =>
      if s.host.linkUp && Marks.has s.host.fnSecure f.toNat then
        (s.bump R.host_HOST_IDE_FAIL).updHost (fun h => { h with
          fnSecure := Marks.put h.fnSecure f.toNat false, fnInsecure := Marks.put h.fnInsecure f.toNat true })
      else s)

/-! ### MSI-X (R521) -/

/-- The vectors of a function. -/
def vectorsOf (fn : Nat) : Nat := if fn = 0 then 32 else 8

/-- A vector is unmasked: a pending bit sends one message. -/
def State.unmask (s : State) (fn v : Nat) : State :=
  let k := fn * 32 + v
  let s := s.updHost (fun h => { h with masked := Marks.put h.masked k true })
  if Marks.has s.host.msixPending k then
    (s.updHost (fun h => { h with msixPending := Marks.put h.msixPending k false })).sendHost (.msi fn v)
  else s

/-- A vector is masked. -/
def State.mask (s : State) (fn v : Nat) : State :=
  s.updHost (fun h => { h with masked := Marks.put h.masked (fn * 32 + v) false })

/-- MSIX_UNMASK. -/
def execMsixUnmask (fn : BitVec 7) (v : BitVec 5) (s : State) : Out :=
  .next (if s.hostOk fn.toNat ∧ fn.toNat ≤ 64 ∧ v.toNat < vectorsOf fn.toNat then s.unmask fn.toNat v.toNat else s)

/-! ### Host copies (R519) -/

/-- Function `fn` may reach the registers of partition p: the physical function, or the virtual function that serves it (R507, R509). -/
def reaches (fn p : Nat) : Bool := fn == 0 || fn == p + 1

/-- Brings HC_DEPTH up to date. -/
def State.syncCopies (s : State) (p : Nat) : State := s.wr R.hc_HC_DEPTH (s.part p).copies.length p

/-- 1 written to HC_GO: the copy joins the queue, or is ignored with a host access error where 16 wait (R519). -/
def State.copyGo (s : State) (fn p off : Nat) : State :=
  if 16 ≤ (s.part p).copies.length then s.hae 5 fn 0 true 4 off 1
  else
    let k : HostCopy := { host := (s.rd R.hc_HC_HOST_LO p + 2 ^ 32 * s.rd R.hc_HC_HOST_HI p) / 64 * 64, gran := s.rd R.hc_HC_GRAN_LO p + 2 ^ 32 * s.rd R.hc_HC_GRAN_HI p, len := s.rd R.hc_HC_LEN p + 1, toHost := s.flag R.hc_HC_DIR p }
    (s.updPart p (fun q => { q with copies := q.copies ++ [k] })).syncCopies p

/-- HC_GO. -/
def execHcGo (fn : BitVec 7) (p : BitVec 6) (s : State) : Out :=
  let f := fn.toNat
  let n := p.toNat
  .next (if s.hostOk f && reaches f n then s.copyGo f n (if f = 0 then 0x03802014 + 0x40 * n else 0x2014) else s)

/-- One granule of a copy; true when it lies outside the partition's space (R519). -/
def State.copyGran (s : State) (p : Nat) (k : HostCopy) (i : Nat) : State × Bool :=
  match s.linGran p (k.gran + i) with
  | none => (if k.toHost then s.updMem (fun m => { m with host := m.host.zero (k.host + 64 * i) 64 }) else s, true)
  | some d =>
    if k.toHost then
      let r := s.readGran d
      (r.1.updMem (fun m => { m with host := m.host.write (k.host + 64 * i) r.2.1 }), false)
    else (s.writeGran d (s.mem.host.bytes (k.host + 64 * i) 64) false, false)

/-- HOST_COPY_DONE: the copy at the head of the partition's queue is complete (R519). -/
def execHostCopyDone (p : BitVec 6) (s : State) : Out :=
  let n := p.toNat
  .next (match (s.part n).copies with
    | [] => s
    | k :: rest =>
      if !s.alive || s.fnBlocked (n + 1) then s
      else
        let r := (List.range k.len).foldl (fun (acc : State × Bool) i =>
          let x := acc.1.copyGran n k i
          (x.1, acc.2 || x.2)) (s, false)
        let s := if r.2 then r.1.hae 8 (n + 1) 0 (!k.toHost) 64 (0x2000) 0 else r.1
        let s := (s.updPart n (fun q => { q with copies := rest })).syncCopies n
        (s.wr R.hc_HC_DONE (s.rd R.hc_HC_DONE n + 1) n).msix (n + 1) 3)

/-! ### Rings and function reset (R510, R525) -/

/-- SQ_EN of a ring: 1 includes it in admission; 0 sets its head and tail to 0. -/
def State.setSqEn (s : State) (p r : Nat) (en : Bool) : State :=
  let s := s.wr R.ring_SQ_EN (b2n en) p r
  if en then s
  else ((s.wr R.ring_SQ_HEAD 0 p r).wr R.ring_SQ_TAIL 0 p r).updPart p (fun q => { q with tails := q.tails.set r 0 })

/-- SQ_EN. -/
def execSqEn (fn : BitVec 7) (p : BitVec 6) (ring : BitVec 2) (en : Bool) (s : State) : Out :=
  .next (if s.hostOk fn.toNat && reaches fn.toNat p.toNat then s.setSqEn p.toNat ring.toNat en else s)

/-- The fields of a partition's ring and host copy registers. -/
def windowFields : List Fld :=
  [R.ring_SQ_TAIL, R.ring_SQ_HEAD, R.ring_SQ_SIZE_LOG2, R.ring_SQ_EN, R.ring_SQ_REFUSED, R.ring_CQ_BASE_LO, R.ring_CQ_BASE_HI,
   R.ring_CQ_SIZE_LOG2, R.ring_CQ_EN, R.ring_MSIX_EN, R.ring_CQ_HEAD, R.ring_CQ_TAIL, R.ring_CQ_TAILPTR_LO, R.ring_CQ_TAILPTR_HI,
   R.ring_CQ_LOST]

/-- FLR of a virtual function: its partition is disabled at the next tick edge, its ring registers and host copy queue take their reset
values and its held writes are discarded (R525). A check or an enable in progress is given up (R528). -/
def State.flr (s : State) (p : Nat) : State :=
  let s := if s.pstate p = 1 ∨ s.pstate p = 2 then s.endCheck p 0xFE else s.requestReset p 2
  let s := windowFields.foldl (fun s f => s.clr f p) s
  let s := (s.updPart p (fun q => { q with tails := [0, 0, 0, 0], cqHead := [0, 0], copies := [] })).syncCopies p
  (s.updHost (fun h => { h with held := h.held.filter (fun w => w.fn != p + 1) })).syncHeldWrites

/-- FLR. -/
def execFlr (vf : BitVec 7) (s : State) : Out :=
  .next (if s.alive ∧ s.host.linkUp ∧ 1 ≤ vf.toNat ∧ vf.toNat ≤ 64 then s.flr (vf.toNat - 1) else s)

/-! ### Accesses of a wrong form (R13, R14) -/

/-- A legal access of a function to its registers: 4 or 8 bytes at a multiple of 4 (R13). -/
def bar0Form (width off : Nat) : Bool := (width == 4 || width == 8) && off % 4 == 0

/-- The access lies in a virtual function's ring aperture (R507), which is memory and takes any width. -/
def inAperture (fn off : Nat) : Bool := fn != 0 && decide (0x80000 ≤ off) && decide (off < 0x100000)

/-- BAR0_BAD_ACCESS: a read returns all ones, a write is discarded, and either is logged (R14, R526). -/
def execBar0BadAccess (fn : BitVec 7) (write : Bool) (width : BitVec 7) (off : BitVec 26) (data : BitVec 64) (s : State) : Out :=
  let n := width.toNat
  .next (if (s.alive || s.power.fatal) && !s.power.latched && s.host.linkUp && decide (fn.toNat ≤ 64) && decide (1 ≤ n) &&
      !bar0Form n off.toNat && !inAperture fn.toNat off.toNat then
    if s.fnBlocked fn.toNat then (if write then s else s.unsupported)
    else
      let s := s.hae 1 fn.toNat 0 write n off.toNat (if write then data.toNat % 2 ^ 32 else 0)
      if write then s else s.updHost (fun h => { h with answer := List.replicate n 0xFF, answerBad := false, answerUr := false })
  else s)

end Sys2Proof.Machine
end

