-- ==== Sys2Proof/Machine/Slab.lean ====
section
/-! DEFINITION. Activation blocks and PS32 slabs (chapter 4): reading segment images, conversion between formats, the lag
rule, and the addition of PS32 groups. -/

namespace Sys2Proof.Machine

/-! ### Blocks (R127 to R136) -/

/-- A block: its exponent, none for a zero block, its signed values, and entry_clamp. -/
structure Blk where
  exp : Option Int
  q : List Int
  clamp : Bool
  deriving DecidableEq, Repr

/-- Magnitude bits of a format code (R127, R167). -/
def fmtM (f : Nat) : Nat := [1, 2, 3, 5, 7].getD f 7

/-- Bytes of a segment image (R130). -/
def segBytes (f : Nat) : Nat := [320, 448, 576, 832, 1088].getD f 1088

/-- The zero block. -/
def Blk.zero (clamp : Bool) : Blk := ⟨none, List.replicate 32 0, clamp⟩

/-- A block, a zero block where every value is 0 (R136). -/
def Blk.norm (b : Blk) : Blk := if b.q.all (· == 0) then Blk.zero b.clamp else b

/-- Sign and magnitude of `n` bits (R129). -/
def signMag (n v : Nat) : Int := if v.testBit (n - 1) then -((v % 2 ^ (n - 1) : Nat) : Int) else (v % 2 ^ (n - 1) : Nat)

/-- Block `b` of a segment image in a format (R128 to R130). -/
def readBlk (f : Nat) (img : List Byte) (b : Nat) : Blk :=
  let n := fmtM f + 1
  let e := (img.getD b 0).toNat
  if e = 0x80 then Blk.zero false
  else
    let v := leNat ((img.drop (32 + 4 * n * b)).take (4 * n))
    Blk.norm ⟨some (sgn 8 e), (List.range 32).map (fun i => signMag n (bitsOf v (n * i) n)), false⟩

/-- The largest magnitude of a block. -/
def Blk.maxMag (b : Blk) : Nat := (b.q.map Int.natAbs).foldl max 0

/-- The first shift, from `s` on, at which a magnitude rounds to at most `lim`; `n` bounds the search. -/
def fitShift (mx lim s : Nat) : Nat → Nat
  | 0 => s
  | n + 1 => if rneShr mx s ≤ lim then s else fitShift mx lim (s + 1) n

/-- Conversion between formats of `ms` and `mw` magnitude bits (R133, R134). -/
def Blk.convert (b : Blk) (ms mw : Nat) : Blk :=
  match b.exp with
  | none => b
  | some e =>
    let lim := 2 ^ mw - 1
    if mw < ms then
      let s := fitShift b.maxMag lim 0 16
      if 127 < e + s then
        let q := b.q.map (fun v => let r := min (rneShr v.natAbs (127 - e).toNat) lim
                                   if v < 0 then -r else r)
        Blk.norm ⟨some 127, q, true⟩
      else Blk.norm ⟨some (e + s), b.q.map (fun v => rneShr v s), b.clamp⟩
    else
      let d : Nat := if e - (mw - ms : Nat) < -127 then (e + 127).toNat else mw - ms
      ⟨some (e - d), b.q.map (· * 2 ^ d), b.clamp⟩

/-- The largest exponent of the non-zero blocks (R95). -/
def segExp (bs : List Blk) : Option Int :=
  (bs.filterMap (·.exp)).foldl (fun m e => match m with
    | none => some e
    | some x => some (max x e)) none

/-- A block under the lag rule (R95, R135): one whose lag passes the limit is shifted right to it. Its lag goes with it. -/
def Blk.lagged (b : Blk) (es : Int) (lim : Nat) : Blk × Nat :=
  match b.exp with
  | none => (b, 0)
  | some e =>
    let lag := (es - e).toNat
    if lim < lag then (Blk.norm { b with q := b.q.map (fun v => rneShr v (lag - lim)), exp := some (es - lim) }, lim)
    else (b, lag)

/-- What drives an array: the row values in units of 2^unit, the unit exponent, and λ; no unit where no row is driven. -/
structure Drive where
  vals : List Int
  unit : Option Int
  lam : Nat
  deriving DecidableEq, Repr

/-- The drive that a list of converted blocks gives (R95, R96, R135). -/
def alignBlks (bs : List Blk) (lagMax : Nat) : Drive :=
  match segExp bs with
  | none => ⟨List.replicate (32 * bs.length) 0, none, 0⟩
  | some es =>
    let lim := min lagMax (es + 128).toNat
    let xs := bs.map (fun b => b.lagged es lim)
    let lam := ((xs.filter (fun x => x.1.exp.isSome)).map (·.2)).foldl max 0
    ⟨xs.flatMap (fun x => x.1.q.map (· * 2 ^ (lam - x.2))), some (es - lam), lam⟩

/-! ### PS32 groups (R137 to R141) -/

/-- A group of zeros at an exponent. -/
def PsGroup.zero (e : Int) : PsGroup := ⟨e, 0, List.replicate 32 0, [false, false]⟩

/-- A group poisoned whole. -/
def PsGroup.spoil (g : PsGroup) : PsGroup := { g with bad := [true, true] }

/-- A group's values shifted right, rounded (R140). -/
def PsGroup.shr (g : PsGroup) (k : Nat) : PsGroup := { g with exp := g.exp + k, vals := g.vals.map (fun v => rneShr v k) }

/-- A value lies in 32 bits. -/
def fits32 (v : Int) : Bool := decide (-2147483648 ≤ v) && decide (v ≤ 2147483647)

/-- Any element of two lists of marks. -/
def orBad (a b : List Bool) : List Bool := [a.getD 0 false || b.getD 0 false, a.getD 1 false || b.getD 1 false]

/-- The sum of two groups (R140, R141) and whether it was renormalised: the smaller exponent is shifted up to the larger one; a
sum outside 32 bits shifts the group once more and sets RENORM; an exponent above 127 poisons the group. -/
def PsGroup.addR (a b : PsGroup) : PsGroup × Bool :=
  let e := max a.exp b.exp
  let v := List.zipWith (· + ·) (a.shr (e - a.exp).toNat).vals (b.shr (e - b.exp).toNat).vals
  let g : PsGroup := ⟨e, Nat.lor a.flag b.flag, v, orBad a.bad b.bad⟩
  if v.all fits32 then (g, false)
  else
    let r : PsGroup := { g.shr 1 with flag := Nat.lor g.flag 16 }
    (if 127 < r.exp then r.spoil else r, true)

/-- The sum of two groups. -/
def PsGroup.add (a b : PsGroup) : PsGroup := (a.addR b).1

/-- The addition overflowed the exponent (R141). -/
def PsGroup.overflowed (r : PsGroup) : Bool := decide (127 < r.exp)

/-- The slab of `n` groups at a Loft granule, with its poison: a poisoned header poisons it whole (R137). -/
def State.readSlab (s : State) (c g n : Nat) : List PsGroup :=
  let bs := s.loftBytes c (64 * g) (64 + 128 * n)
  let hdr := s.loftBad c g
  (List.range n).map (fun i =>
    { exp := sgn 8 (bs.getD i 0).toNat, flag := (bs.getD (32 + i) 0).toNat
      vals := (List.range 32).map (fun j => sgn 32 (leNat ((bs.drop (64 + 128 * i + 4 * j)).take 4)))
      bad := [hdr || s.loftBad c (g + 1 + 2 * i), hdr || s.loftBad c (g + 2 + 2 * i)] })

/-- The bytes of a slab (R137). -/
def slabBytes (gs : List PsGroup) : List Byte :=
  let pad := List.replicate (32 - gs.length) (0 : Byte)
  (gs.map (fun g => BitVec.ofNat 8 (usg 8 g.exp)) ++ pad) ++ (gs.map (fun g => BitVec.ofNat 8 g.flag) ++ pad) ++
    gs.flatMap (fun g => g.vals.flatMap (fun v => toLe 4 (usg 32 v)))

/-- Writes a slab at a Loft granule, each granule with its poison; granules beyond the Loft are not written. -/
def State.writeSlab (s : State) (c g : Nat) (gs : List PsGroup) : State :=
  let bs := slabBytes gs
  let bad := false :: gs.flatMap (fun x => [x.bad.getD 0 false, x.bad.getD 1 false])
  (bad.zipIdx).foldl (fun s x =>
    if g + x.2 < 131072 then s.putGran c (g + x.2) ((bs.drop (64 * x.2)).take 64) x.1 else s) s

/-- Poisons the granules of a slab of `n` groups that lie in the Loft (R190). Its bytes are written 0 unless `keep`. -/
def State.spoilSlab (s : State) (c g n : Nat) (keep : Bool) : State :=
  (List.range (1 + 2 * n)).foldl (fun s i =>
    if g + i < 131072 then
      if keep then s.poisonLoft c (g + i) true else s.putGran c (g + i) (List.replicate 64 0) true
    else s) s

/-! ### Requests that consume poison (R632) -/

/-- A command that carries a request read poison: the request fails at the frame's publication. -/
def State.consumePoison (s : State) (c req src code addr : Nat) : State :=
  match s.enabledOwner c with
  | none => s
  | some p => s.updPart p (fun q => { q with
      frame := q.frame.map (fun f => if f.failed.any (fun x => x.req == req) then f
        else { f with failed := f.failed ++ [⟨req, src, code, c, addr⟩] }) })

/-- A command of the frame carries a request in REQ, or the Winnow draws for it: the frame serves the request (R360). -/
def State.serve (s : State) (c req : Nat) : State :=
  match s.enabledOwner c with
  | none => s
  | some p => s.updPart p (fun q => { q with
      frame := q.frame.map (fun f => if f.served.contains req then f else { f with served := f.served ++ [req] }) })

/-- Counts a tile that exceeded SAT_THR for promotion, once per tile (R156). -/
def countFallback (l : List (Nat × Nat × Nat)) (req cls n : Nat) : List (Nat × Nat × Nat) :=
  if l.any (fun x => x.1 == req && x.2.1 == cls) then
    l.map (fun x => if x.1 = req ∧ x.2.1 = cls then (x.1, x.2.1, x.2.2 + n) else x)
  else l ++ [(req, cls, n)]

/-- The Granary granule of a word of a request's promotion block (R155, R356). -/
def promoGran (req cls : Nat) : Nat := 520 * 32768 + 4 * req + cls / 16

/-- A command used a promotion class of a request in the pass (R156); a poisoned block fails the request (R633). -/
def State.useClass (s : State) (c req cls : Nat) : State :=
  let s := s.eccGran (promoGran req cls)
  let s := if s.granBad (promoGran req cls) then s.consumePoison c req 0x0A 0 (promoGran req cls) else s
  s.updCore c (fun k => { k with fallbacks := countFallback k.fallbacks req cls 0 })

/-- A CLIP event of the frame: a clipped tile counts in CLIP_EVENTS and marks the frame (R152). -/
def State.clipEvent (s : State) (c : Nat) : State :=
  let s := s.bump R.fmt_CLIP_TILES 1 c
  match s.enabledOwner c with
  | none => s
  | some p => (s.bump R.fmtp_CLIP_EVENTS 1 p).updPart p (fun q => { q with frame := q.frame.map (fun f => { f with clip := true }) })

/-- A request is marked clipped in the Sillage (R142, R317). -/
def State.markClipped (s : State) (c req : Nat) : State :=
  match s.enabledOwner c with
  | none => s
  | some p =>
    let s := s.updPart p (fun q => { q with frame := q.frame.map (fun f =>
      if f.clipped.contains req then f else { f with clipped := f.clipped ++ [req] }) })
    s.trailEv p 0x0D 1 [(20, 2, req), (22, 2, c), (24, 1, 1)]

end Sys2Proof.Machine
end

