-- ==== Sys2Proof/Machine/Transfer.lean ====
section
/-! DEFINITION. The transfer engine's FETCH, STORE and LCOPY, the landing of fetches and the accesses of the request view
(R284 to R292, R301, R365). -/

namespace Sys2Proof.Machine

/-- QUEUE of a FETCH; a STORE uses its low three bits. -/
def xferQueue (cmd : Cmd) : Nat := cmd.fld 116 4

/-- The Granary address of granule `i` of row `r` (R290). -/
def xferGaddr (cmd : Cmd) (r i : Nat) : Nat := cmd.fld 80 36 + r * cmd.fld 176 32 + i

/-- The Loft granule of granule `i` of row `r`. -/
def xferLaddr (cmd : Cmd) (r i : Nat) : Nat := cmd.fld 120 17 + r * cmd.fld 208 17 + i

/-- A granule lies in the space that the command names: the same bit 35 and below 2^36 (R290). -/
def xferIn (cmd : Cmd) (ga : Nat) : Bool := decide (ga < 2 ^ 36) && (ga / 2 ^ 35 == cmd.fld 80 36 / 2 ^ 35)

/-- The (row, index) pairs of a FETCH or STORE, in order. -/
def xferIdx (cmd : Cmd) : List (Nat × Nat) :=
  (List.range (cmd.fld 160 12 + 1)).flatMap (fun r => (List.range (cmd.fld 144 16 + 1)).map (fun i => (r, i)))

/-- The codes that a command has met: 0x13, 0x14, 0x69 and 0x67. -/
structure XErr where
  loft : Bool := false
  gran : Bool := false
  view : Bool := false
  pool : Bool := false
  deriving DecidableEq, Repr

/-- Records the errors of a transfer command (R301, R302, R365, R369): codes 0x13 and 0x14 count once in XFER_ERR with one
deferred error, 0x13 shown where both are met. -/
def State.xferErrs (s : State) (c : Nat) (x : XErr) : State :=
  let s := if x.loft || x.gran then
      let code := if x.loft then 0x13 else 0x14
      ((s.coreErr c .transfer code).bump R.core_XFER_ERR 1 c).logCore 2 0x05 code c
    else s
  let s := if x.view then s.logCore 2 0x08 0x69 c else s
  if x.pool then s.logCore 2 0x08 0x67 c else s

/-- The page-map entry of a view access is read on C2 before the page's granules move (R363): the entry, none where its granule reads poisoned
or lies outside the space, which allows nothing (DESIGN CHOICE, log entry 67). -/
def State.readMap (s : State) (c p n l : Nat) : State × Option MapEnt :=
  match s.linGran p ((s.req n).pmap + l / 8) with
  | none => (s, none)
  | some d =>
    let r := (s.readGran d)
    (r.1.memRead c d, if r.2.2 then none else some (r.1.mapEnt p n l))

/-- A FETCH granule of the request view (R362, R365): the state after it, its bytes, its poison and the errors met. -/
def State.viewFetch (s : State) (c p v : Nat) (x : XErr) : State × List Byte × Bool × XErr :=
  let zero := List.replicate 64 (0 : Byte)
  match s.viewLoc p v with
  | .outside => (s, zero, true, { x with gran := true })
  | .head n o =>
    let r := s.checkReq n
    if r.2 then
      let g := r.1.headGran n o
      (g.1, g.2.1, g.2.2, x)
    else (r.1, zero, true, x)
  | .page n l o =>
    let r := s.checkReq n
    let m := r.1.readMap c p n l
    let e := m.1.req n
    let fail := (m.1.bump R.ptier_TIER_ERRS 1 p, zero, true, { x with view := true })
    match m.2 with
    | none => fail
    | some k =>
      if r.2 && e.open_ && k.where_ == 1 && m.1.holdsPage p k.loc then
        let g := m.1.readGran (1024 * k.loc + o)
        (g.1.memRead c (1024 * k.loc + o), g.2.1, g.2.2, x)
      else if r.2 && e.open_ && k.where_ == 0 then (m.1, zero, false, x)
      else fail

/-- A STORE granule of the request view (R362, R365, R369): an unmapped page is allocated from the pool; a store that reaches a
parking request cancels the park at the next edge (R370). -/
def State.viewStore (s : State) (c p v : Nat) (bs : List Byte) (bad : Bool) (x : XErr) : State × XErr :=
  match s.viewLoc p v with
  | .outside => (s, { x with gran := true })
  | .head _ _ => (s, { x with gran := true })
  | .page n l o =>
    let r := s.checkReq n
    let m := r.1.readMap c p n l
    let s := m.1
    let e := s.req n
    let fail := (s.bump R.ptier_TIER_ERRS 1 p, { x with view := true })
    match m.2 with
    | none => fail
    | some k =>
      if !r.2 || !e.open_ || 2 ≤ k.where_ || (k.where_ == 1 && !s.holdsPage p k.loc) then fail
      else
        let s := s.updTier (fun t => { t with moves := t.moves.map (fun k => if k.req = n then { k with cancel := true } else k) })
        if k.where_ = 1 then ((s.memWrite c (1024 * k.loc + o)).writeGran (1024 * k.loc + o) bs bad, x)
        else
          let a := s.allocPage p
          match a.2 with
          | none => (a.1.updTier (fun t => { t with poolEmpty := if t.poolEmpty.contains n then t.poolEmpty else t.poolEmpty ++ [n] }),
              { x with pool := true })
          | some g =>
            let s := (a.1.putMapEnt p n l ⟨g, 1, false, 0⟩).updReq n (fun e => { e with pagesG := e.pagesG + 1 })
            ((s.memWrite c (1024 * g + o)).writeGran (1024 * g + o) bs bad, x)

/-- One granule of a FETCH as it lands (R290, R301): its source is read, unless its row passes the end of the Loft, when its
granules inside the Loft are poisoned. A granule that a poison note has replaced on its way lands poisoned (R350). -/
def State.fetchGran (s : State) (c p : Nat) (cmd : Cmd) (noted : List Nat) (x : XErr) (r i : Nat) : State × XErr :=
  let ga := xferGaddr cmd r i
  let la := xferLaddr cmd r i
  let past := decide (131072 < xferLaddr cmd r 0 + cmd.fld 144 16 + 1)
  let got : State × List Byte × Bool × XErr :=
    if !xferIn cmd ga then (s, List.replicate 64 0, true, { x with gran := true })
    else if cmd.fld 80 36 < 2 ^ 35 then
      match s.linGran p ga with
      | none => (s, List.replicate 64 0, true, { x with gran := true })
      | some d => let g := s.readGran d
                  (g.1.memRead c d, g.2.1, g.2.2, x)
    else s.viewFetch c p (ga - 2 ^ 35) x
  let x := { got.2.2.2 with loft := got.2.2.2.loft || past }
  let bad := got.2.2.1 || past || noted.contains (r * (cmd.fld 144 16 + 1) + i)
  if la < 131072 then (got.1.putGran c la got.2.1 bad, x) else (got.1, x)

/-- All granules of a FETCH land, in ascending order (R289). -/
def State.landFetch (s : State) (c p : Nat) (cmd : Cmd) (noted : List Nat := []) : State :=
  let r := (xferIdx cmd).foldl (fun (acc : State × XErr) ri => acc.1.fetchGran c p cmd noted acc.2 ri.1 ri.2) (s, {})
  r.1.xferErrs c r.2

/-- One granule of a STORE as it is written (R290, R301). -/
def State.storeGran (s : State) (c p : Nat) (cmd : Cmd) (x : XErr) (r i : Nat) (bs : List Byte) (bad : Bool) : State × XErr :=
  let ga := xferGaddr cmd r i
  if !xferIn cmd ga then (s, { x with gran := true })
  else if cmd.fld 80 36 < 2 ^ 35 then
    match s.linGran p ga with
    | none => (s, { x with gran := true })
    | some d => ((s.memWrite c d).writeGran d bs bad, x)
  else s.viewStore c p (ga - 2 ^ 35) bs bad x

/-- All granules of a STORE are written, in ascending order, from the data that was read. -/
def State.landStore (s : State) (c p : Nat) (cmd : Cmd) (data : List (List Byte × Bool)) : State :=
  let past := (List.range (cmd.fld 160 12 + 1)).any (fun r => decide (131072 < xferLaddr cmd r 0 + cmd.fld 144 16 + 1))
  let r := ((xferIdx cmd).zip data).foldl (fun (acc : State × XErr) z =>
    acc.1.storeGran c p cmd acc.2 z.1.1 z.1.2 z.2.1 z.2.2) (s, { loft := past })
  r.1.xferErrs c r.2

/-- A Loft granule as a transfer reads it: beyond the Loft it is zero and poisoned (R301). -/
def State.takeGran (s : State) (c g : Nat) : List Byte × Bool :=
  if g < 131072 then (s.loftBytes c (64 * g) 64, s.loftBad c g) else (List.replicate 64 0, true)

/-- The source of a STORE, read from the Loft (R287). -/
def State.readStore (s : State) (c : Nat) (cmd : Cmd) : State × List (List Byte × Bool) :=
  let s := (xferRuns cmd).foldl (fun s r => s.eccLoftN c r.1 (min r.2 (131072 - r.1))) s
  (s, (xferIdx cmd).map (fun ri => s.takeGran c (xferLaddr cmd ri.1 ri.2)))

/-- Brings FQ_DEPTH of a queue up to date. -/
def State.syncFq (s : State) (c q : Nat) : State := s.wr R.core_FQ_DEPTH (Tbl.get [] (s.core c).fqs q).length c q

/-- The commands of a core's queue that wait to be taken: fetch queues 0 to 15, store queues 16 to 23. -/
def State.untaken (s : State) (c j : Nat) : Nat :=
  let k := s.core c
  (if j < 16 then (Tbl.get [] k.fqs j).length else ((Tbl.get [] k.sqs (j - 16)).filter (fun x => !x.read)).length) - Tbl.get 0 k.taken j

/-- The transfer engine takes commands from the non-empty queues in turn, one from each, until it has taken the head of queue `j` (R289); the
requests of a command go out as it is taken. -/
def State.takeTurns (s : State) (c j : Nat) : Nat → State
  | 0 => s
  | n + 1 =>
    if Tbl.get 0 (s.core c).taken j != 0 then s
    else match ((List.range 24).map (fun i => ((s.core c).turn + i) % 24)).find? (fun i => s.untaken c i != 0) with
      | none => s
      | some i => (s.updCore c (fun k => { k with turn := (i + 1) % 24, taken := Tbl.upd 0 k.taken i (· + 1) })).takeTurns c j n

/-- The head of queue `j` has been taken and leaves the commands taken. -/
def State.tookHead (s : State) (c j : Nat) : State :=
  (s.takeTurns c j 768).updCore c (fun k => { k with taken := Tbl.set 0 k.taken j (Tbl.get 0 k.taken j - 1) })

/-- FETCH places a fetch in its queue and retires; a full queue holds it (R285). -/
def execFetch (core : BitVec 9) (cmd : Cmd) (s : State) : Out :=
  let c := core.toNat
  let q := xferQueue cmd
  .next (s.engRun c .transfer cmd (fun s => s.guarded c .transfer cmd [] (xferRuns cmd) (fun s =>
    if 32 ≤ (Tbl.get [] (s.core c).fqs q).length then s.wr R.core_T_STATE 3 c
    else
      let pc := s.rd R.core_PC_T c
      ((s.updCore c (fun k => { k with fqs := Tbl.upd [] k.fqs q (· ++ [(cmd, pc)]) })).syncFq c q).retire c .transfer cmd)))

/-- The commands of a store queue that are done leave it in order, and DONE counts them (R287). -/
def State.drainSq (s : State) (c q : Nat) : State :=
  let l := Tbl.get [] (s.core c).sqs q
  let n := (l.takeWhile (fun x => x.read && x.done)).length
  if n = 0 then s
  else (s.updCore c (fun k => { k with sqs := Tbl.set [] k.sqs q (l.drop n) })).wr R.core_SQ_DONE
    (s.rd R.core_SQ_DONE c q + n) c q

/-- A command enters a store queue (R285), with a number of its own: it retires once it is placed. A full queue holds it. -/
def State.placeSq (s : State) (c q op : Nat) (cmd : Cmd) (num : Nat := 0) (gens : Tbl Nat := []) : State :=
  if 32 ≤ (Tbl.get [] (s.core c).sqs q).length then s.wr R.core_T_STATE 3 c
  else
    let ent : SqEnt := { op := op, cmd := cmd, pc := s.rd R.core_PC_T c, read := false, data := [], num := num
                         done := false, gens := gens }
    (s.updCore c (fun k => { k with sqs := Tbl.upd [] k.sqs q (· ++ [ent]) })).retire c .transfer cmd

/-- STORE places a store in its queue and retires (R285). -/
def execStore (core : BitVec 9) (cmd : Cmd) (s : State) : Out :=
  let c := core.toNat
  .next (s.engRun c .transfer cmd (fun s => s.guarded c .transfer cmd (xferRuns cmd) [] (fun s =>
    s.placeSq c (xferQueue cmd % 8) 0xA1 cmd)))

/-- LCOPY copies granules within the Loft, as if every source granule were read first (R292, R284, R301); a block stored with entry_clamp keeps
its mark (R132). -/
def execLcopy (core : BitVec 9) (cmd : Cmd) (s : State) : Out :=
  let c := core.toNat
  let src := cmd.fld 80 17
  let dst := cmd.fld 97 17
  let n := cmd.fld 114 16 + 1
  .next (s.engRun c .transfer cmd (fun s => s.guarded c .transfer cmd [(src, n)] [(dst, n)] (fun s =>
    let s := s.eccLoftN c src (min n (131072 - src))
    let data := (List.range n).map (fun i => s.takeGran c (src + i))
    let past := decide (131072 < dst + n)
    let held := s.mem.loftClamp.filter (fun e => decide (64 * loftKey c src ≤ e.1) && decide (e.1 < 64 * loftKey c (min (src + n) 131072)))
    let s := (data.zipIdx).foldl (fun s z =>
      if dst + z.2 < 131072 then s.putGran c (dst + z.2) z.1.1 (z.1.2 || past) else s) s
    let s := if held.isEmpty then s else s.updMem (fun m => { m with loftClamp := held.foldl (fun l e =>
      if e.1 + 64 * dst < 64 * loftKey c src + 8388608 then Marks.put l (e.1 + 64 * dst - 64 * src) true else l) m.loftClamp })
    (s.xferErrs c { loft := past || decide (131072 < src + n) }).retire c .transfer cmd)))

/-- The oldest fetch of a queue has landed: its granules are in the Loft and the queue's completion count rises (R286). -/
def execFetchComplete (core : BitVec 9) (q : BitVec 4) (s : State) : Out :=
  let c := core.toNat
  .next (match Tbl.get [] (s.core c).fqs q.toNat, s.enabledOwner c with
    | x :: rest, some p =>
      if s.goesOn c then
        match s.hazLate c (xferRuns x.1) with
        | some h => s.hazStop c .transfer x.1 { h with pc := some x.2 }
        | none =>
        let s := ((s.tookHead c q.toNat).landFetch c p x.1 (Tbl.get [] (s.core c).fetchNoted q.toNat)).updCore c (fun k => { k with
          fetchNoted := Tbl.set [] k.fetchNoted q.toNat [] })
        let s := s.updCore c (fun k => { k with fqs := Tbl.set [] k.fqs q.toNat rest })
        (s.wr R.core_FQ_CPL (s.rd R.core_FQ_CPL c q.toNat + 1) c q.toNat).syncFq c q.toNat
      else s
    | _, _ => s)

end Sys2Proof.Machine
end

