-- ==== Sys2Proof/Machine/Network.lean ====
section
/-! DEFINITION. Windows and credits as the network uses them (R473 to R480), and the circuits of the on-die network (chapter 10):
RSEND, reduction nodes, MSEND, multicast, node and circuit writes. -/

namespace Sys2Proof.Machine

/-! ### Windows -/

/-- A window of a core. -/
def State.window (s : State) (c v : Nat) : Window := Tbl.get {} (s.core c).windows v

/-- Changes a window of a core. -/
def State.updWindow (s : State) (c v : Nat) (f : Window → Window) : State :=
  s.updCore c (fun k => { k with windows := Tbl.upd {} k.windows v f })

/-- A write into a window as its owner checks it: the window, GEN, source partition, holder, first granule and granules, and how many
messages it counts as (R477). -/
structure WinReq where
  core : Nat
  win : Nat
  gen : Nat
  part : Nat
  hkind : Nat
  hmod : Nat
  hst : Nat
  woff : Nat
  ngran : Nat
  units : Nat
  deriving DecidableEq, Repr

/-- The STATUS under which the owner discards a write, 0 where it passes (R477, R480; a closed window gives 3, log entry 26). -/
def State.winStatus (s : State) (r : WinReq) : Nat :=
  let w := s.window r.core r.win
  if (s.enabledOwner r.core).isNone then 5
  else if !s.flag R.wdw_OPEN r.core r.win then 3
  else if s.rd R.wdw_GEN r.core r.win != r.gen then 2
  else if !w.pmask.testBit r.part || w.hkind != r.hkind || w.hst != r.hst || (r.hkind == 0 && w.hmod != r.hmod) then 3
  else if 64 * (s.rd R.wdw_LEN r.core r.win + 1) < r.woff + r.ngran then 3
  else if w.outstanding < r.units then 2
  else 0

/-- The first Loft granule of a window. -/
def State.winGran (s : State) (c v : Nat) : Nat := 64 * s.rd R.wdw_BASE c v

/-- A write that passed consumes its units (R477, R478). -/
def State.consume (s : State) (c v n : Nat) : State :=
  (s.updWindow c v (fun w => { w with
    outstanding := w.outstanding - n
    ret := w.ret.set w.release (w.ret.getD w.release 0 + n) })).bump R.wdw_WR_LANDED n c v

/-- Writes granules with their poison into a window. -/
def State.landGrans (s : State) (c v woff : Nat) (data : List (List Byte × Bool)) : State :=
  (data.zipIdx).foldl (fun s x =>
    let g := s.winGran c v + woff + x.2
    if g < 131072 then s.putGran c g x.1.1 x.1.2 else s) s

/-- A checked write: landed, with the tally raised where asked, or counted as discarded; its STATUS (R477). -/
def State.landWrite (s : State) (r : WinReq) (data : List (List Byte × Bool)) (raise : Bool) : State × Nat :=
  let st := s.winStatus r
  if st = 0 then
    let s := (s.landGrans r.core r.win r.woff data).consume r.core r.win r.units
    let s := if raise then s.raise r.core (s.window r.core r.win).tally 1 else s
    (s, if data.any (·.2) then 1 else 0)
  else (s.bump R.wdw_WR_DROPPED r.units r.core r.win, st)

/-! ### Credits (R475, R476) -/

/-- The credit entry of a core for a remote window. -/
def State.credit (s : State) (c mod_ core win : Nat) : Option CreditEnt :=
  (s.core c).credits.find? (fun x => x.mod_ == mod_ && x.core == core && x.win == win)

/-- Takes credits from an entry. -/
def State.takeCredit (s : State) (c mod_ core win n : Nat) : State :=
  s.updCore c (fun k => { k with credits := k.credits.map (fun x =>
    if x.mod_ = mod_ ∧ x.core = core ∧ x.win = win then { x with credits := x.credits - n } else x) })

/-- Brings CRED_ENTRIES up to date. -/
def State.syncCred (s : State) (c : Nat) : State := s.wr R.wdw_CRED_ENTRIES (s.core c).credits.length c

/-! ### The circuit table (R340) and node entries (R341) -/

/-- Bits of word `j` of a circuit's entry. -/
def State.circFld (s : State) (c j lo w : Nat) : Nat := bitsOf (s.rd R.tab_CIRC c j) lo w
/-- VALID. -/
def State.circValid (s : State) (c : Nat) : Bool := s.circFld c 0 0 1 == 1
/-- KIND: 0 reduction, 1 multicast. -/
def State.circKind (s : State) (c : Nat) : Nat := s.circFld c 0 1 2
/-- OWNER. -/
def State.circOwner (s : State) (c : Nat) : Nat := s.circFld c 0 8 8
/-- ROOT. -/
def State.circRoot (s : State) (c : Nat) : Nat := s.circFld c 0 16 10
/-- WIN. -/
def State.circWin (s : State) (c : Nat) : Nat := s.circFld c 1 0 4
/-- NTGT. -/
def State.circNtgt (s : State) (c : Nat) : Nat := s.circFld c 1 8 8
/-- TALLY. -/
def State.circTally (s : State) (c : Nat) : Nat := s.circFld c 1 16 6
/-- NSLOT. -/
def State.circNslot (s : State) (c : Nat) : Nat := s.circFld c 1 24 4
/-- STRIDE. -/
def State.circStride (s : State) (c : Nat) : Nat := s.circFld c 2 0 16

/-- A multicast target: station, window, VALID. -/
structure McTarget where
  st : Nat
  win : Nat
  valid : Bool
  deriving DecidableEq, Repr

/-- Target i of a multicast circuit. -/
def State.mcTarget (s : State) (c i : Nat) : McTarget :=
  let v := bitsOf (s.rd R.tab_TGT c (i / 2)) (16 * (i % 2)) 16
  ⟨bitsOf v 0 10, bitsOf v 10 4, bitOf v 15⟩

/-- The VALID targets of a multicast circuit with their numbers. -/
def State.mcTargets (s : State) (c : Nat) : List (Nat × McTarget) :=
  ((List.range (min 64 (s.circNtgt c + 1))).map (fun i => (i, s.mcTarget c i))).filter (fun x => x.2.valid)

/-- The node entry of a router for a circuit. -/
def State.node (s : State) (r c : Nat) : Nat := Tbl.get 0 s.net.nodes (r * 256 + c)
/-- The inputs of a reduction node in fold order. -/
def nodeIns (v : Nat) : List Nat := (List.range (bitsOf v 7 3 + 1)).map (fun i => bitsOf v (10 + 5 * i) 5)
/-- The buffer of input i of a node. -/
def State.nodeBuf (s : State) (r c i : Nat) : List Slab := Tbl.get [] s.net.bufs ((r * 256 + c) * 8 + i)
/-- Changes the buffer of an input. -/
def State.setBuf (s : State) (r c i : Nat) (l : List Slab) : State :=
  s.updNet (fun k => { k with bufs := Tbl.set [] k.bufs ((r * 256 + c) * 8 + i) l })

/-- The input number of a node that a code feeds. -/
def State.inputOf (s : State) (r c code : Nat) : Option Nat :=
  if bitOf (s.node r c) 0 then (nodeIns (s.node r c)).findIdx? (· == code) else none

/-- The neighbour that a code leads to and the code it arrives by there (R341). -/
def neighbour (r code : Nat) : Option (Nat × Nat) :=
  match code with
  | 16 => if 8 ≤ r then some (r - 8, 18) else none
  | 17 => if r % 8 < 7 then some (r + 1, 19) else none
  | 18 => if r < 24 then some (r + 8, 16) else none
  | 19 => if 0 < r % 8 then some (r - 1, 17) else none
  | _ => none

/-- The code under which a link port meets its router: 20 for the lower-numbered edge port of the router, 21 for the higher. -/
def portCode (n : Nat) : Nat :=
  if (List.range n).any (fun m => edgeCluster m == edgeCluster n) then 21 else 20

/-- The branches of a multicast from a router entered by a code, as (router, outgoing code), towards every code of OMASK (R341, R349); a router
off the tree, or entered by another code than its IN, passes nothing on. -/
def State.mcBranches (s : State) (k : Nat) : Nat → Nat → Nat → List (Nat × Nat)
  | 0, _, _ => []
  | n + 1, r, i =>
    let v := s.node r k
    if !bitOf v 0 || bitsOf v 24 5 != i then []
    else ((List.range 22).filter (fun x => bitOf v (2 + x))).flatMap (fun x => (r, x) ::
      match neighbour r x with
      | some (r', i') => s.mcBranches k n r' i'
      | none => [])

/-- The station that a router's code leads to, where it is one: a core of the cluster, or a link port. -/
def codeStation (r x : Nat) : Option Nat :=
  if x < 16 then some (16 * r + x)
  else ((List.range 24).find? (fun n => edgeCluster n == r && portCode n == x && decide (20 ≤ x))).map (536 + ·)

/-- The stations that branches lead to. -/
def branchStations (bs : List (Nat × Nat)) : List Nat := bs.filterMap (fun b => codeStation b.1 b.2)

/-- The branches of a circuit's tree from its sending core (R341). -/
def State.mcTree (s : State) (k c : Nat) : List (Nat × Nat) := s.mcBranches k 32 (c / 16) (c % 16)

/-- The stations that lie behind a router's code on a circuit's tree. -/
def State.mcBehind (s : State) (k r x : Nat) : List Nat :=
  branchStations ((r, x) :: match neighbour r x with
    | some (r', i') => s.mcBranches k 32 r' i'
    | none => [])

/-- A circuit-table entry is read: one whose stored check has failed resets its owner, and nothing is done with it (R355, R633). -/
def State.circRead (s : State) (k st : Nat) (go : State → State) : State :=
  if Marks.has s.net.circBad k then s.partFatal 0x07 0 (s.circOwner k) st 0xFFFF k else go s

/-! ### RSEND and reduction nodes (R342 to R347) -/

/-- CIRC or TREE of an RSEND or MSEND. -/
def sendCirc (cmd : Cmd) : Nat := cmd.fld 97 8
/-- SQ of an RSEND. -/
def rsendSq (cmd : Cmd) : Nat := cmd.fld 126 3
/-- SQ of an MSEND. -/
def msendSq (cmd : Cmd) : Nat := cmd.fld 138 3

/-- An RSEND names a circuit that takes it (code 0x30 otherwise). -/
def State.rsendOk (s : State) (c : Nat) (cmd : Cmd) : Bool :=
  let k := sendCirc cmd
  s.circValid k && s.circKind k == 0 && s.owner c == some (s.circOwner k) && (s.inputOf (c / 16) k (c % 16)).isSome

/-- An MSEND names a tree that takes it: its router's node entry is on the tree and names the core as its IN (R341). -/
def State.msendOk (s : State) (c : Nat) (cmd : Cmd) : Bool :=
  let k := sendCirc cmd
  s.circValid k && s.circKind k == 1 && s.owner c == some (s.circOwner k) && s.circRoot k == c && !(s.mcTree k c).isEmpty

/-- A send that fails under code 0x30: it takes its place, sends nothing, and its counts rise. -/
def State.badSend (s : State) (c q op : Nat) (cmd : Cmd) : State :=
  if 32 ≤ (Tbl.get [] (s.core c).sqs q).length then s.wr R.core_T_STATE 3 c
  else
    let s := ((s.netErr (c / 16) 0x30 (sendCirc cmd)).bump R.core_XFER_ERR 1 c).logCore 2 0x07 0x30 c 0xFFFF (sendCirc cmd)
    s.placeSq c q op cmd 0x30

/-- RSEND (R346). -/
def execRsend (core : BitVec 9) (cmd : Cmd) (s : State) : Out :=
  let c := core.toNat
  let q := rsendSq cmd
  .next (s.engRun c .transfer cmd (fun s =>
    s.guarded c .transfer cmd [(cmd.fld 80 17, 1 + 2 * (cmd.fld 121 5 + 1))] [] (fun s =>
      s.circRead (sendCirc cmd) c (fun s => if s.rsendOk c cmd then s.placeSq c q 0xA7 cmd else s.badSend c q 0xA7 cmd))))

/-- The slab that an RSEND reads. -/
def State.readRsend (s : State) (c : Nat) (cmd : Cmd) : State × List (List Byte × Bool) :=
  let g := cmd.fld 80 17
  let n := 1 + 2 * (cmd.fld 121 5 + 1)
  let s := s.eccLoftN c g (min n (131072 - g))
  (s, (List.range n).map (fun i => s.takeGran c (g + i)))

/-- A slab from its granules (R137, R345). -/
def slabOf (seq grp : Nat) (data : List (List Byte × Bool)) : Slab :=
  let bs := data.flatMap (·.1)
  let bad := fun i => (data.getD i ([], true)).2
  { seq := seq, grp := grp, hdr := bad 0
    groups := (List.range (grp + 1)).map (fun i =>
      { exp := sgn 8 (bs.getD i 0).toNat, flag := (bs.getD (32 + i) 0).toNat
        vals := (List.range 32).map (fun j => sgn 32 (leNat ((bs.drop (64 + 128 * i + 4 * j)).take 4)))
        bad := [bad 0 || bad (1 + 2 * i), bad 0 || bad (2 + 2 * i)] }) }

/-- The granules of a slab with their poison. -/
def Slab.grans (x : Slab) : List (List Byte × Bool) :=
  let bs := slabBytes x.groups
  ((x.hdr :: x.groups.flatMap (fun g => [g.bad.getD 0 false, g.bad.getD 1 false])).zipIdx).map (fun y =>
    ((bs.drop (64 * y.2)).take 64, y.1))

/-- A slab enters an input of a node, if its buffer has room. -/
def State.feedNode (s : State) (r c i : Nat) (x : Slab) : Option State :=
  if 2 ≤ (s.nodeBuf r c i).length then none else some (s.setBuf r c i (s.nodeBuf r c i ++ [x]))

/-- The sum of two slabs, the running sum first (R140, R342, R345), with how many groups overflowed. -/
def foldSlab (a : Slab × Nat) (b : Slab) : Slab × Nat :=
  let rs := List.zipWith PsGroup.addR a.1.groups b.groups
  ({ a.1 with hdr := a.1.hdr || b.hdr, groups := rs.map (·.1) }, a.2 + (rs.filter (fun x => x.1.overflowed)).length)

/-- A slab poisoned whole. -/
def Slab.spoil (x : Slab) : Slab := { x with hdr := true, groups := x.groups.map PsGroup.spoil }

/-- The sum of the heads of a node's inputs, and the code under which it is formed poisoned: 0x32, 0x33, or 0. -/
def sumHeads (l : List Slab) : Option (Slab × Nat × Nat) :=
  match l with
  | [] => none
  | x :: rest =>
    if rest.any (fun y => y.seq != x.seq) then some (x.spoil, 0, 0x32)
    else if rest.any (fun y => y.grp != x.grp) then some (x.spoil, 0, 0x33)
    else let r := rest.foldl foldSlab (x, 0)
         some (r.1, r.2, 0)

/-- Where a node's sum goes: into the sum held at the root, or into its parent's input, the router forwarding its granules in C0; none where
there is no room. Operands that a node takes in are not forwarded (DESIGN CHOICE, log entry 67). -/
def State.placeSum (s : State) (r c : Nat) (x : Slab) : Option State :=
  let v := s.node r c
  if bitOf v 1 then
    if (Tbl.get [] s.net.sums c).isEmpty then some (s.updNet (fun k => { k with sums := Tbl.set [] k.sums c [x] })) else none
  else
    match neighbour r (bitsOf v 2 5) with
    | none => none
    | some (r', code) =>
      match s.inputOf r' c code with
      | none => none
      | some i => (s.bump R.rtr_GRAN_C (1 + 2 * (x.grp + 1)) r 0).feedNode r' c i x

/-- A slab credit goes back to the partner of each link port whose input was folded (R481). -/
def State.returnSlabs (s : State) (r c : Nat) (ins : List Nat) : State :=
  (List.range 24).foldl (fun s n =>
    if edgeCluster n = r ∧ ins.contains (portCode n) then
      match (List.range 16).find? (fun i => s.flag R.port_VALID n i && s.flag R.port_DIR n i && s.rd R.port_LOCAL n i == c) with
      | some i => s.sendMsg (s.mkMsg 0x03 2 (s.circOwner c) (536 + n) (64 * s.rd R.port_NBLK n + s.rd R.port_NPOS n)
          (536 + s.rd R.port_NPORT n) (s.rd R.port_REMOTE n i + 65536))
      | none => s
    else s) s

/-- A node folds the heads of its inputs (R342, R345). Groups that the fold poisons count in RENORM_OVF of the lowest-numbered core of the
router's cluster (R141, R164; DESIGN CHOICE, log entry 60). -/
def State.foldNode (s : State) (r c : Nat) : State :=
  let ins := nodeIns (s.node r c)
  let heads := (List.range ins.length).filterMap (fun i => (s.nodeBuf r c i).head?)
  if heads.length < ins.length then s
  else match sumHeads heads with
    | none => s
    | some (x, ovf, code) =>
      match s.placeSum r c x with
      | none => s
      | some s =>
        let s := (List.range ins.length).foldl (fun s i => s.setBuf r c i ((s.nodeBuf r c i).drop 1)) s
        let s := s.bump R.rtr_RED_SUMS 1 r
        let s := if ovf = 0 then s else (s.bump R.fmt_RENORM_OVF ovf (16 * r)).logErr 2 0x07 0 (s.circOwner c) (16 * r) 0xFFFF c
        let s := if code = 0 then s
          else ((s.netErr r code c).bump R.rtr_RED_ERR 1 r).logErr 2 0x07 code (s.circOwner c) (16 * r) 0xFFFF c
        s.returnSlabs r c ins

/-- RED_FOLD at a router for a circuit. `intact` is false where the circuit entry's stored check fails on this read: the entry is poisoned, and
this and every later read of it resets its owner, until it is written (R355). -/
def execRedFold (router : BitVec 5) (circ : BitVec 8) (intact : Bool) (s : State) : Out :=
  let r := router.toNat
  let c := circ.toNat
  .next (if s.alive && bitOf (s.node r c) 0 && s.circValid c && s.circKind c == 0 && s.enabled (s.circOwner c) then
    (if intact then s else s.updNet (fun k => { k with circBad := Marks.put k.circBad c true })).circRead c (16 * r) (fun s => s.foldNode r c)
  else s)

/-- The router that holds a circuit's root. -/
def State.rootRouter (s : State) (c : Nat) : Nat :=
  ((List.range 32).find? (fun r => bitOf (s.node r c) 0 && bitOf (s.node r c) 1)).getD 0

/-- A sum delivered into the root core's window (R343, R344). -/
def State.deliverSum (s : State) (c : Nat) (x : Slab) (held : Nat) : State :=
  let n := 1 + 2 * (x.grp + 1)
  let need := ceilDiv n 64
  let root := s.circRoot c
  let v := s.circWin c
  if Tbl.get 0 s.net.circCred c < need then s
  else
    let s := s.updNet (fun k => { k with circCred := Tbl.set 0 k.circCred c (Tbl.get 0 k.circCred c - need), sums := k.sums.del c })
    let s := (meshRoute (s.rootRouter c) (stationCluster root)).foldl (fun s r => s.bump R.rtr_GRAN_C n r 0)
      (s.bump R.rtr_CRED_HOLD held (s.rootRouter c))
    let r := s.landWrite { core := root, win := v, gen := Tbl.get 0 s.net.circGen c, part := s.circOwner c, hkind := 1, hmod := 0
                           hst := c, woff := (x.seq % (s.circNslot c + 1)) * s.circStride c, ngran := n, units := need }
      x.grans false
    if r.2 ≤ 1 then r.1.raise root (s.circTally c) 1 else r.1

/-- A sum sent on by a root that is a link port, as a RADD under a slab credit (R481). -/
def State.sendSum (s : State) (c : Nat) (x : Slab) (held : Nat) : State :=
  let n := s.circRoot c - 536
  match (List.range 16).find? (fun i => s.flag R.port_VALID n i && !s.flag R.port_DIR n i && s.rd R.port_LOCAL n i == c &&
      s.flag R.port_CONFIRMED n i) with
  | none => s
  | some i =>
    if Tbl.get 0 s.net.slabCred c = 0 then s
    else
      let g := x.grans
      let bits := sumN ((g.zipIdx).map (fun y => b2n y.1.2 * 2 ^ y.2))
      let m := { s.mkMsg 0x04 0 (s.circOwner c) (536 + n) (64 * s.rd R.port_NBLK n + s.rd R.port_NPOS n)
          (536 + s.rd R.port_NPORT n) (s.rd R.port_REMOTE n i + 256 * (x.seq % 65536) + 2 ^ 24 * x.grp) (bits / 2 ^ 64) with
        pmask := BitVec.ofNat 64 bits, data := g.map (·.1) }
      let s := s.updNet (fun k => { k with slabCred := Tbl.set 0 k.slabCred c (Tbl.get 0 k.slabCred c - 1), sums := k.sums.del c })
      let s := s.bump R.rtr_CRED_HOLD held (s.rootRouter c)
      if s.portUp n then s.queueMsg n m else s.undeliverable m

/-- RED_DELIVER: the sum held at a circuit's root goes on once credits allow; `held` is how many cycles it was held for lack of them. -/
def execRedDeliver (circ : BitVec 8) (held : BitVec 32) (s : State) : Out :=
  let c := circ.toNat
  .next (match Tbl.get [] s.net.sums c with
    | x :: _ =>
      if s.alive && s.circValid c then
        s.circRead c (s.circRoot c) (fun s =>
          if s.circRoot c < 512 then s.deliverSum c x held.toNat
          else if 536 ≤ s.circRoot c ∧ s.circRoot c < 560 then s.sendSum c x held.toNat
          else s)
      else s
    | [] => s)

/-! ### MSEND and multicast (R348 to R351) -/

/-- Granules of an MSEND. -/
def msendLen (cmd : Cmd) : Nat := cmd.fld 105 16 + 1

/-- The remote window that a multicast target names: module, core, window (R349, R476). -/
def State.mcWindow (s : State) (t : McTarget) : Option (Nat × Nat × Nat) :=
  if t.st < 512 then some (s.selfMod, t.st, t.win)
  else if 536 ≤ t.st ∧ t.st < 560 ∧ s.flag R.port_RW_VALID (t.st - 536) t.win then
    some (s.rd R.port_RW_MOD (t.st - 536) t.win, s.rd R.port_RW_CORE (t.st - 536) t.win, s.rd R.port_RW_WIN (t.st - 536) t.win)
  else none

/-- Every VALID target has the credits that an MSEND needs. -/
def State.mcReady (s : State) (c : Nat) (cmd : Cmd) : Bool :=
  (s.mcTargets (sendCirc cmd)).all (fun x => match s.mcWindow x.2 with
    | none => false
    | some w => match s.credit c w.1 w.2.1 w.2.2 with
      | none => false
      | some e => decide (ceilDiv (msendLen cmd) 64 ≤ e.credits))

/-- The GEN of the credits of every target of an MSEND as it is admitted (R348, R475). -/
def State.mcGens (s : State) (c : Nat) (cmd : Cmd) : Tbl Nat :=
  (s.mcTargets (sendCirc cmd)).map (fun x => (x.1, match s.mcWindow x.2 with
    | some w => ((s.credit c w.1 w.2.1 w.2.2).map (·.gen)).getD 0
    | none => 0))

/-- MSEND: with credits for every target it takes them all and is placed; until then the list holds (R348). -/
def execMsend (core : BitVec 9) (cmd : Cmd) (s : State) : Out :=
  let c := core.toNat
  let q := msendSq cmd
  .next (s.engRun c .transfer cmd (fun s =>
    s.guarded c .transfer cmd [(cmd.fld 80 17, msendLen cmd)] [(cmd.fld 141 17, 1)] (fun s =>
      s.circRead (sendCirc cmd) c (fun s =>
      if !s.msendOk c cmd then s.badSend c q 0xA6 cmd
      else if 32 ≤ (Tbl.get [] (s.core c).sqs q).length || !s.mcReady c cmd then s.wr R.core_T_STATE 3 c
      else
        let n := ceilDiv (msendLen cmd) 64
        let gens := s.mcGens c cmd
        let s := (s.mcTargets (sendCirc cmd)).foldl (fun s x => match s.mcWindow x.2 with
          | none => s
          | some w => s.takeCredit c w.1 w.2.1 w.2.2 n) s
        s.placeSq c q 0xA6 cmd 0 gens))))

/-- The WWRITE messages of a send: one for each run of 64 granules (R476). `mesh` is false for a multicast's copies, whose way over the mesh
the tree's nodes count. -/
def State.wwrites (s : State) (c part tmod tcore twin woff gen : Nat) (raise : Bool) (data : List (List Byte × Bool)) (mesh : Bool := true) :
    State × List Nat :=
  let n := ceilDiv data.length 64
  (List.range n).foldl (fun (acc : State × List Nat) i =>
    let run := (data.drop (64 * i)).take 64
    let num := (acc.1.core c).writeNum
    let m := { acc.1.mkMsg 0x01 (b2n (raise && i + 1 == n)) part c tmod (tcore + 1024 * twin) ((woff + 64 * i) % 2 ^ 17 + 2 ^ 24 * gen) num
      with
      pmask := BitVec.ofNat 64 (sumN ((run.zipIdx).map (fun y => b2n y.1.2 * 2 ^ y.2))), data := run.map (·.1) }
    ((acc.1.updCore c (fun k => { k with writeNum := (num + 1) % 65536 })).sendMsg m mesh, acc.2 ++ [num])) (s, [])

/-- The source of a multicast has been read: every node of the tree sends a copy of every granule on each code of its OMASK (R349), copies
leave towards link ports under the GEN of the admission, and the targets are to be acknowledged. A target that no branch leads to receives no
copy: its acknowledgement never comes. -/
def State.sendCopies (s : State) (c : Nat) (cmd : Cmd) (gens : Tbl Nat) (data : List (List Byte × Bool)) : State × List (Nat × Nat) :=
  let k := sendCirc cmd
  let tree := s.mcTree k c
  let s := tree.foldl (fun s b => (s.bump R.rtr_MC_COPIES data.length b.1).bump R.rtr_GRAN_C data.length b.1 1) s
  (s.mcTargets k).foldl (fun (acc : State × List (Nat × Nat)) x =>
    let s := acc.1
    if !(branchStations tree).contains x.2.st then (s, acc.2 ++ [(131072 + x.1, x.1)])
    else if x.2.st < 512 then (s, acc.2 ++ [(65536 + x.1, x.1)])
    else match s.mcWindow x.2 with
      | none => (s, acc.2)
      | some w =>
        let r := s.wwrites c (s.circOwner k) w.1 w.2.1 w.2.2 (cmd.fld 121 17) (Tbl.get 0 gens x.1) false data false
        (r.1, acc.2 ++ r.2.map (fun n => (n, x.1)))) (s, [])

/-- Changes the first command of a store queue that satisfies a test. -/
def updFirst (p : SqEnt → Bool) (f : SqEnt → SqEnt) : List SqEnt → List SqEnt
  | [] => []
  | x :: r => if p x then f x :: r else x :: updFirst p f r

/-- Changes the first command of a store queue that satisfies a test. -/
def State.updSq (s : State) (c q : Nat) (p : SqEnt → Bool) (f : SqEnt → SqEnt) : State :=
  s.updCore c (fun k => { k with sqs := Tbl.upd [] k.sqs q (updFirst p f) })

/-- The first command of a store queue that satisfies a test. -/
def State.findSq (s : State) (c q : Nat) (p : SqEnt → Bool) : Option SqEnt := (Tbl.get [] (s.core c).sqs q).find? p

/-- A multicast that still waits for target `i`. -/
def mcWaits (i : Nat) (x : SqEnt) : Bool := x.op == 0xA6 && x.read && x.wait.contains (65536 + i, i)

/-- MC_ACK: the copy for a core target has been written at WOFF in its window, and its acknowledgement has arrived (R349). A target that
received a granule poisoned, or whose window discarded the copy, is not clean. -/
def execMcAck (core : BitVec 9) (q : BitVec 3) (target : BitVec 6) (s : State) : Out :=
  let c := core.toNat
  let i := target.toNat
  .next (match s.findSq c q.toNat (mcWaits i) with
    | none => s
    | some x =>
      if s.alive then
        let t := s.mcTarget (sendCirc x.cmd) i
        let data := (x.data.zipIdx).map (fun y => (y.1.1, y.1.2 || x.noted.contains (i, y.2)))
        let r := s.landWrite { core := t.st, win := t.win, gen := Tbl.get 0 x.gens i, part := s.circOwner (sendCirc x.cmd), hkind := 0, hmod := s.selfMod
                               hst := c, woff := x.cmd.fld 121 17, ngran := data.length, units := ceilDiv data.length 64 } data false
        let s := (if 2 ≤ r.2 then r.1.bump R.wdw_WS_FAIL 1 c else r.1).traverse t.st c 1 1
        s.updSq c q.toNat (mcWaits i) (fun y => { y with
          wait := y.wait.filter (· != (65536 + i, i)), ackTick := s.tickNum
          poisMask := if r.2 = 0 then y.poisMask else y.poisMask ||| 2 ^ i })
      else s)

/-- MC_COMPLETE: every target of the oldest such multicast has acknowledged: its completion record is written, and DONE rises (R351). Its TICK
is a tick number that reaches a Loft beside the admission block header, which R77 names as the only one: R351 is followed (DESIGN CHOICE, log
entry 67). -/
def execMcComplete (core : BitVec 9) (q : BitVec 3) (s : State) : Out :=
  let c := core.toNat
  let ready := fun (x : SqEnt) => x.op == 0xA6 && x.read && !x.done && x.wait.isEmpty && x.num != 0x30
  .next (match s.findSq c q.toNat ready with
    | none => s
    | some x =>
      if s.goesOn c then
        let all := sumN ((s.mcTargets (sendCirc x.cmd)).map (fun t => 2 ^ t.1))
        let rec_ := layout 64 [(0, 8, all - (all &&& x.poisMask)), (8, 8, x.poisMask), (16, 6, x.ackTick)]
        match s.hazLate c [(x.cmd.fld 141 17, 1)] with
        | some h => s.hazStop c .transfer x.cmd { h with pc := some x.pc }
        | none => ((s.putGran c (x.cmd.fld 141 17) rec_ false).updSq c q.toNat ready (fun y => { y with done := true })).drainSq c q.toNat
      else s)

/-- The command whose source has been read and whose granules have not all been delivered (R350). -/
def onItsWay (x : SqEnt) : Bool := x.read && !x.done && (x.op == 0xA1 || x.op == 0xA7)

/-- Poisons an element of a list of granules. -/
def spoilAt (i : Nat) (l : List (List Byte × Bool)) : List (List Byte × Bool) :=
  (l.zipIdx).map (fun y => if y.2 = i then (y.1.1, true) else y.1)

/-- A slab with one of its granules poisoned; a poisoned header granule poisons all of it (R137, R345). -/
def Slab.spoilGran (x : Slab) (i : Nat) : Slab :=
  if i = 0 then x.spoil
  else { x with groups := (x.groups.zipIdx).map (fun y =>
    if y.2 = (i - 1) / 2 then { y.1 with bad := y.1.bad.set ((i - 1) % 2) true } else y.1) }

/-- A message with one granule of its data poisoned (R468). -/
def spoilMsg (m : LinkMsg) (i : Nat) : LinkMsg :=
  if i < 64 then { m with pmask := BitVec.ofNat 64 (m.pmask.toNat ||| 2 ^ i) } else { m with arg1 := BitVec.ofNat 64 (m.arg1.toNat ||| 1) }

/-- The poison note of a buffer error takes the place of granule `g`: the targets of that branch receive it poisoned (R350). None where no such
granule is on its way. -/
def State.noteGran (s : State) (r c q g : Nat) : BufHit → Option State
  | .multicast code =>
    match s.findSq c q (fun x => x.op == 0xA6 && x.read && !x.wait.isEmpty) with
    | none => none
    | some x =>
      let k := sendCirc x.cmd
      let hit := (s.mcTargets k).filter (fun t => (s.mcBehind k r code.toNat).contains t.2.st && x.wait.contains (65536 + t.1, t.1))
      if !(s.mcTree k c).contains (r, code.toNat) || hit.isEmpty || x.data.length ≤ g then none
      else some (s.updSq c q (fun x => x.op == 0xA6 && x.read && !x.wait.isEmpty) (fun y => { y with
        noted := y.noted ++ hit.map (fun t => (t.1, g)) }))
  | .slab circ input =>
    match s.nodeBuf r circ.toNat input.toNat with
    | [] => none
    | x :: rest => if 1 + 2 * (x.grp + 1) ≤ g then none else some (s.setBuf r circ.toNat input.toNat (x.spoilGran g :: rest))
  | .message index =>
    match s.net.inbox[index.toNat]? with
    | none => none
    | some m => if m.data.length ≤ g then none
                else some (s.updNet (fun k => { k with inbox := k.inbox.set index.toNat (spoilMsg m g) }))
  | .fetch =>
    match Tbl.get [] (s.core c).fqs q with
    | [] => none
    | x :: _ => if (xferIdx x.1).length ≤ g then none
                else some (s.updCore c (fun k => { k with fetchNoted := Tbl.upd [] k.fetchNoted q (· ++ [g]) }))
  | .store =>
    match s.findSq c q onItsWay with
    | none => none
    | some x => if x.data.length ≤ g then none else some (s.updSq c q onItsWay (fun y => { y with data := spoilAt g y.data }))

/-- POISON_NOTE: a router meets a buffer error in a granule on its way: a correctable one is corrected, another is replaced on that branch by
a poison note (R350). -/
def execPoisonNote (router : BitVec 5) (core : BitVec 9) (q : BitVec 4) (hit : BufHit) (gran : BitVec 32) (correctable : Bool)
    (s : State) : Out :=
  let r := router.toNat
  .next (if !s.alive then s
  else if correctable then (s.bump R.rtr_BUF_CORR 1 r).logErr 1 0x07 0 0xFF (16 * r)
  else match s.noteGran r core.toNat q.toNat gran.toNat hit with
    | none => s
    | some s => (s.bump R.rtr_BUF_POISON 1 r).logErr 2 0x07 0 0xFF (16 * r))

/-! ### Node, circuit and target writes (R340, R354, R355) -/

/-- A circuit may be written: it is not VALID, or its owner is DISABLED. -/
def State.circFree (s : State) (c : Nat) : Bool := !s.circValid c || s.pstate (s.circOwner c) == 0

/-- A 32-bit write by the physical function to NODE_LO or NODE_HI of a core window, to the circuit table or to a target list, by its BAR0
offset. -/
def State.nodeWrite (s : State) (a v : Nat) : State :=
  let refuse := s.hae 0x06 0 0 true 4 a v
  if 0x208000 ≤ a ∧ a < 0x20C000 then
    let c := (a - 0x208000) / 64
    if s.circFree c then
      (s.updNet (fun k => { k with circBad := Marks.put k.circBad c false })).wr R.tab_CIRC v c ((a - 0x208000) % 64 / 4)
    else refuse
  else if 0x210000 ≤ a ∧ a < 0x218000 then
    let c := (a - 0x210000) / 128
    if s.circFree c then s.wr R.tab_TGT v c ((a - 0x210000) % 128 / 4) else refuse
  else if 0x1000000 ≤ a ∧ a < 0x2000000 ∧ (a % 0x8000 = 0x7C34 ∨ a % 0x8000 = 0x7C38) then
    let r := (a - 0x1000000) / 0x80000
    let c := s.rd R.rtr_NODE_SEL r
    let old := s.node r c
    let new := if a % 0x8000 = 0x7C34 then old / 2 ^ 32 * 2 ^ 32 + v else old % 2 ^ 32 + 2 ^ 32 * v
    if s.circFree c then s.updNet (fun k => { k with nodes := Tbl.set 0 k.nodes (r * 256 + c) new }) else refuse
  else s

/-- NODE_WRITE. -/
def execNodeWrite (addr : BitVec 26) (value : Word) (s : State) : Out :=
  .next (if s.hostOk then s.nodeWrite addr.toNat value.toNat else s)

/-! ### Discarding (R352) -/

/-- A message of a partition's circuits or windows, its data, acknowledgements, grants and poison notes, rather than a note of the tick unit, a
circuit setting or a management message. -/
def circOrWindow (p : Nat) (m : LinkMsg) : Bool := msgPart m == p && [0x01, 0x02, 0x03, 0x04, 0x07].contains m.type.toNat

/-- The link circuits that a partition used are confirmed no more, so that its next check confirms them and grants their slab credits again
(R481, R482, log entry 52). -/
def State.dropCircs (s : State) (p : Nat) : State :=
  (s.part p).ports.foldl (fun s x => (maskBits x.2.2).foldl (fun s i => s.wr R.port_CONFIRMED 0 x.1 i) s) s

/-- At the edge at which a partition enters DISABLING, its circuit and window traffic is discarded (R352, R480): node buffers, held sums,
messages to its cores, credits and windows. Stores already read still land. -/
def State.discardNet (s : State) (p : Nat) : State :=
  let mine := fun (c : Nat) => s.circValid c && s.circOwner c == p
  let cores := s.coresOf p
  let s := s.dropCircs p
  let s := (s.updNet fun k => { k with
    bufs := k.bufs.filter (fun e => !mine (e.1 / 8 % 256)), sums := k.sums.filter (fun e => !mine e.1)
    circCred := k.circCred.filter (fun e => !mine e.1), circGen := k.circGen.filter (fun e => !mine e.1)
    slabCred := k.slabCred.filter (fun e => !mine e.1)
    inbox := k.inbox.filter (fun m => !(circOrWindow p m || (cores.contains (msgDstSt m) && (m.type == 0x02 || m.type == 0x03))))
    notes := k.notes.filter (fun m => !circOrWindow p m)
    ports := k.ports.map (fun e => (e.1, { e.2 with queue := e.2.queue.filter (fun m => !circOrWindow p m) })) }).wr R.msg_NOTES_Q
      (s.net.notes.filter (fun m => !circOrWindow p m)).length
  cores.foldl (fun s c =>
    let s := (List.range 16).foldl (fun s v => (s.wr R.wdw_OPEN 0 c v).wr R.wdw_AVAIL 0 c v) s
    (s.updCore c (fun k => { k with windows := [], credits := [] })).syncCred c) s

end Sys2Proof.Machine
end

