-- ==== Sys2Proof/Machine/Accord.lean ====
section
/-! DEFINITION. The Accord check (R532, R535, R536): the main record's limits, the program record, and the check's steps in order. -/

namespace Sys2Proof.Machine

/-- The first byte offset of a main-record field that lies outside its limits (R532). -/
def State.badField (s : State) (p : Nat) : Option Nat :=
  let f := fun (o n : Nat) => s.main p o n
  let rows : List (Nat × Bool) := [(0, f 0 4 != 0), (4, decide (12 ≤ f 4 1) && decide (f 4 1 ≤ 17)), (5, [1, 2, 4, 8].contains (f 5 1)),
    (6, decide (8 ≤ f 6 2) && decide (f 6 2 ≤ 4096)), (8, decide (f 8 1 < 64)), (9, decide (1 ≤ f 9 1) && decide (f 9 1 ≤ 63)),
    (10, decide (1 ≤ f 10 1)), (11, decide (f 11 1 % 8 ≤ 4)), (12, decide (1 ≤ f 12 2)), (14, decide (1 ≤ f 14 2) && decide (f 14 2 ≤ 1024)),
    (22, decide (1 ≤ s.reqCount p) && decide (s.reqBase p + s.reqCount p ≤ 65536)), (25, decide (10 ≤ f 25 1) && decide (f 25 1 ≤ 35)),
    (26, decide (1 ≤ f 26 2 % 512) && decide (f 26 2 % 512 ≤ 256)), (32, decide (f 32 2 % 2048 ≤ 1024)),
    (34, decide (1 ≤ f 34 1) && decide (f 34 1 ≤ 63)), (44, decide (f 44 2 ≤ 3600)), (46, decide (1 ≤ f 46 2) && decide (f 46 2 ≤ 1024))]
  (rows.find? (fun r => !r.2)).map (·.1)

/-! ### The program record (R535) -/

/-- A port entry of the program record. -/
structure ProgPort where
  port : Nat
  mode : Nat
  slack : Nat
  nbr : Nat
  rwin : Nat
  lcirc : Nat
  deriving DecidableEq, Repr

/-- A program record: whether it is right, its largest grant, its manifest (core, WSID, VERSION), its circuits (number, KIND) and its
ports. -/
structure ProgRec where
  len : Nat
  ok : Bool
  peak : Nat
  manifest : List (Nat × Nat × Nat)
  circs : List (Nat × Nat)
  ports : List ProgPort
  deriving DecidableEq, Repr

/-- A number of `n` bytes at a place of a record. -/
def leAt (b : List Byte) (o n : Nat) : Nat := leNat ((b.drop o).take n)

/-- The partition's linear space holds `n` bytes from granule g. -/
def State.linHolds (s : State) (p g n : Nat) : Bool := decide (g + ceilDiv n 64 ≤ 32768 * s.linBushels p)

/-- Bytes of the linear space from granule g; a poisoned granule reads as zeros (R426). -/
def State.linRun (s : State) (p g n : Nat) : List Byte :=
  ((List.range (ceilDiv n 64)).flatMap (fun i => match s.linGran p (g + i) with
    | some d => s.granBytes (64 * d) 64
    | none => List.replicate 64 0)).take n

/-- The program record of a partition. LIST_CHECK covers the entries of the three lists, one list after the other; the bytes that fill up to
the next 64-byte boundary belong to no list (log entry 38). -/
def State.progRec (s : State) (p : Nat) : ProgRec :=
  let g := s.main p 56 5 % 2 ^ 36
  let h := s.linRun p g 64
  let nman := leAt h 8 4
  let ncirc := leAt h 6 2
  let nport := leAt h 5 1
  let oc := up64 (8 * nman)
  let op := oc + up64 (4 * ncirc)
  let len := op + 16 * nport
  let headOk := s.linHolds p g 64 && leAt h 0 4 == 0x4B585052 && leAt h 4 1 == 1 && crc32c (h.take 60) == leAt h 60 4 &&
    decide (nman ≤ 2097152) && decide (ncirc ≤ 256) && decide (nport ≤ 24) && s.linHolds p g (64 + len)
  if headOk then
    let b := s.linRun p (g + 1) len
    { len := len / 64, ok := crc32c (b.take (8 * nman) ++ (b.drop oc).take (4 * ncirc) ++ b.drop op) == leAt h 56 4
      peak := leAt h 12 2
      manifest := (List.range nman).map (fun i => (leAt b (8 * i) 2 % 512, leAt b (8 * i + 2) 2 % 4096, leAt b (8 * i + 4) 2))
      circs := (List.range ncirc).map (fun i => (leAt b (oc + 4 * i) 1, leAt b (oc + 4 * i + 1) 1 % 2))
      ports := (List.range nport).map (fun i =>
        let o := op + 16 * i
        ⟨leAt b o 1, leAt b (o + 1) 1, leAt b (o + 2) 2, leAt b (o + 4) 4, leAt b (o + 8) 2, leAt b (o + 10) 2⟩) }
  else { len := 0, ok := false, peak := 0, manifest := [], circs := [], ports := [] }

/-! ### The steps -/

/-- A partition whose resources count as held: ENABLING, ENABLED or FROZEN (R536; the check at the queue's head is the earliest). -/
def State.holding (s : State) (p q : Nat) : Bool := q != p && (s.pstate q == 2 || s.pstate q == 3 || s.pstate q == 5)

/-- The partitions that hold resources, other than p. -/
def State.holders (s : State) (p : Nat) : List Nat := (List.range 64).filter (s.holding p)

/-- Two ranges of numbers overlap. -/
def overlap (a n b m : Nat) : Bool := decide (a < b + m) && decide (b < a + n)

/-- The first extent with a property among the VALID ones of p. -/
def State.findExt (s : State) (p : Nat) (f : Nat → Bool) : Option Nat := (List.range 64).find? (fun e => s.extValid p e && f e)

/-- An extent of p overlaps an extent of q; `e` numbers it, and only later extents of p itself are looked at. -/
def State.extClash (s : State) (p e q : Nat) : Bool :=
  (List.range 64).any (fun x => s.extValid q x && (q != p || decide (e < x)) &&
    overlap (s.extFirst p e) (s.extCount p e) (s.extFirst q x) (s.extCount q x))

/-- A bank of a set holds a version as ACTIVE or READY (R536). -/
def WSet.holdsVer (w : WSet) (b v : Nat) : Bool := (w.st b == 3 || w.st b == 4) && w.ver b == v

/-- Some bank of a manifest entry's set holds its version as ACTIVE or READY. -/
def State.hasVer (s : State) (m : Nat × Nat × Nat) : Bool :=
  (s.wset m.1 m.2.1).holdsVer 0 m.2.2 || (s.wset m.1 m.2.1).holdsVer 1 m.2.2

/-- The bank that is to hold the version is PROGRAMMING, VERIFYING or SWITCHING (code 0x32): a pass forms it, or a flip moves it. -/
def State.inTransit (s : State) (m : Nat × Nat × Nat) : Bool :=
  let w := s.wset m.1 m.2.1
  (List.range 2).any (fun b => w.st b == 5 && w.ver b == m.2.2) ||
    (s.core m.1).passes.any (fun p => p.set == m.2.1 && p.version == m.2.2 && (w.st p.bank == 1 || w.st p.bank == 2))

/-- A manifest entry needs a flip: the version is READY in the inactive bank only (R537). -/
def State.needsFlip (s : State) (m : Nat × Nat × Nat) : Bool :=
  let w := s.wset m.1 m.2.1
  !w.holdsVer w.active m.2.2

/-- The flips that the manifest needs: one for each flip group (R219, R537). -/
def State.flipsNeeded (s : State) : List (Nat × Nat × Nat) → List (Nat × Nat × Nat) → List (Nat × Nat × Nat)
  | acc, [] => acc
  | acc, m :: r =>
    if s.needsFlip m && !acc.any (fun x => x.1 == m.1 && (s.flipGroup x.1 x.2.1).any (fun a => (s.setArrays m.1 (s.wset m.1 m.2.1)).contains a)) then
      s.flipsNeeded (acc ++ [m]) r
    else s.flipsNeeded acc r

/-- A needed flip would fail, or would take another manifest set off its version (code 0x33). -/
def State.flipBad (s : State) (manifest : List (Nat × Nat × Nat)) (m : Nat × Nat × Nat) : Bool :=
  let w := s.wset m.1 m.2.1
  let group := s.flipGroup m.1 m.2.1
  let sets := s.setsOn m.1 group
  !(w.st (1 - w.active) == 3 && w.ver (1 - w.active) == m.2.2) ||
    sets.any (fun e => e.1 != m.2.1 && e.2.st (1 - e.2.active) != 3 && e.2.st (1 - e.2.active) != 0) ||
    manifest.any (fun x => x.1 == m.1 && sets.any (fun e => e.1 == x.2.1 && !e.2.holdsVer (1 - e.2.active) x.2.2))

/-- The slots of a port that the partition owns and that overlap another valid slot (R464). -/
def State.slotClash (s : State) (p n : Nat) : Bool :=
  (List.range 64).any (fun i => s.flag R.port_SLOT_VALID n i && s.rd R.port_SLOT_OWNER n i == p &&
    (List.range 64).any (fun j => j != i && s.flag R.port_SLOT_VALID n j &&
      overlap (s.rd R.port_SLOT_START n i) (s.rd R.port_SLOT_LEN n i) (s.rd R.port_SLOT_START n j) (s.rd R.port_SLOT_LEN n j)))

/-- The bits of port register 0x400 that name the neighbour. -/
def State.nbrWord (s : State) (n : Nat) : Nat :=
  s.rd R.port_NPOS n + 256 * s.rd R.port_NBLK n + 65536 * s.rd R.port_NPORT n

/-- The features the running firmware and the hardware have (R536, R568). -/
def State.featDev (s : State) : Nat := s.rd R.acc_FEAT_DEV_LO + 2 ^ 32 * s.rd R.acc_FEAT_DEV_HI

/-- The index of the first element with a property, as the detail of a step. -/
def failIdx {α : Type} (l : List α) (f : α → Bool) : Option Nat := l.findIdx? f

/-- The steps up to 0x34, each with the item that fails it (R536). -/
def State.stepsA (s : State) (p : Nat) (r : ProgRec) (flips : List (Nat × Nat × Nat)) : List (Nat × Option Nat) :=
  let when_ := fun (b : Bool) (d : Nat) => if b then some d else none
  let main := (List.range 32).flatMap (fun i => toLe 4 (s.rd R.tab_MAIN p i))
  let cores := s.coresOf p
  [(0x01, when_ (crc32c (main.take 124) != leAt main 124 4) 0), (0x02, s.badField p),
   (0x03, when_ (s.main p 4 1 != s.rd R.tick_PERIOD_LOG2) 0),
   (0x04, when_ (decide (s.period < s.main p 16 4 % 2 ^ 17 + 3583 + 64)) 0),
   (0x05, when_ ((List.range 64).any (fun i => bitOf (s.main p 48 8) i && !bitOf s.featDev i)) 0),
   (0x06, when_ (s.span p && (!s.flag R.tick_RUNNING || s.flag R.tick_HOLDOVER)) 0),
   (0x07, when_ (s.span p && s.enableAt p == 0) 0),
   (0x08, when_ (!r.ok) 0), (0x10, when_ cores.isEmpty 0), (0x11, failIdx r.manifest (fun m => !cores.contains m.1)),
   (0x12, (cores.find? (fun c => decide (131072 < s.rd R.ctab_FRAME_HDR c + 1) || decide (131072 < s.admAddr p + s.admMax p + 1)))),
   (0x13, failIdx r.manifest (fun m => (s.wset m.1 m.2.1).valid &&
      (s.setArrays m.1 (s.wset m.1 m.2.1)).any (fun a => Marks.has (s.core m.1).retired (a / 8) || Marks.has (s.core m.1).retireDue (a / 8)))),
   (0x20, s.findExt p (fun e => decide (s.extFirst p e < 1024) || s.extCount p e == 0 || decide (1179648 < s.extFirst p e + s.extCount p e))),
   (0x21, s.findExt p (fun e => (List.range 64).any (fun q => s.extClash p e q))),
   (0x22, when_ (decide (1048576 < s.linBushels p)) 0), (0x23, when_ (decide (s.linBushels p ≤ s.main p 40 4)) 0),
   (0x30, failIdx r.manifest (fun m => !(s.wset m.1 m.2.1).valid || (s.wset m.1 m.2.1).tenant != s.tenant p)),
   (0x31, failIdx r.manifest (fun m => !s.hasVer m && !s.inTransit m)), (0x32, failIdx r.manifest (fun m => !s.hasVer m)),
   (0x33, failIdx r.manifest (fun m => flips.any (fun f => f.1 == m.1 && f.2.1 == m.2.1) && s.flipBad r.manifest m)),
   (0x34, (List.range 512).find? (fun c => decide (8 < (flips.filter (fun f => f.1 == c)).length)))]

/-- The steps from 0x40 to 0x53 (R536). -/
def State.stepsB (s : State) (p : Nat) (r : ProgRec) : List (Nat × Option Nat) :=
  let when_ := fun (b : Bool) (d : Nat) => if b then some d else none
  let slots := fun q => (s.main q 30 2 % 1024, s.main q 32 2 % 2048)
  [(0x40, (s.holders p).find? (fun q => overlap (s.reqBase p) (s.reqCount p) (s.reqBase q) (s.reqCount q))),
   (0x41, (s.tier.reqs.find? (fun e => s.inRange p e.1 && e.2.tstate != 0 && e.2.owner != p)).map (·.1)),
   (0x42, when_ (decide (2 ^ 35 < s.reqCount p * 2 ^ s.main p 25 1)) 0),
   (0x43, when_ (decide (2 ^ s.main p 25 1 < (s.main p 28 2 % 4096 + 1) * 1024)) 0),
   (0x44, if 1024 < (slots p).1 + (slots p).2 then some p
      else (s.holders p).find? (fun q => (slots p).2 != 0 && (slots q).2 != 0 && overlap (slots p).1 (slots p).2 (slots q).1 (slots q).2)),
   (0x50, (r.circs.find? (fun c => !s.circValid c.1 || s.circOwner c.1 != p || s.circKind c.1 != c.2)).map (·.1)),
   (0x51, (r.ports.find? (fun x => !s.portUp x.port)).map (·.port)),
   (0x52, (r.ports.find? (fun x => s.rd R.port_MODE x.port != x.mode || s.rd R.port_SLACK x.port != x.slack)).map (·.port)),
   (0x53, (r.ports.find? (fun x => s.nbrWord x.port != x.nbr || !s.flag R.port_NVALID x.port)).map (·.port))]

/-- The steps from 0x54 to 0x72 (R536). -/
def State.stepsC (s : State) (p : Nat) (r : ProgRec) : List (Nat × Option Nat) :=
  let when_ := fun (b : Bool) (d : Nat) => if b then some d else none
  let shares := ((s.holders p).map (fun q => s.main q 44 2)).foldl (· + ·) 0
  [(0x54, (r.ports.find? (fun x => (maskBits x.lcirc).any (fun i => !s.flag R.port_VALID x.port i || !s.flag R.port_CONFIRMED x.port i))).map
      (·.port)),
   (0x55, (r.ports.find? (fun x => (maskBits x.rwin).any (fun i => !s.flag R.port_RW_VALID x.port i))).map (·.port)),
   (0x56, (r.ports.find? (fun x => s.slotClash p x.port)).map (·.port)),
   (0x60, when_ (decide (s.power.gceil < (s.main p 44 2 + shares + s.rd R.cap_CAP_W) * 1075000)) 0),
   (0x61, when_ (decide (s.main p 44 2 < r.peak)) 0),
   (0x07, when_ (s.span p && decide (s.enableAt p < s.tickNum + 16)) 0),
   (0x72, when_ (s.span p && decide (s.selfMod < s.leadMod p)) 0)]

/-- The first step that fails: its code and its detail. -/
def firstFail (l : List (Nat × Option Nat)) : Option (Nat × Nat) := l.findSome? (fun x => x.2.map (fun d => (x.1, d)))

/-- The CSET for an LCIRC entry (R482). -/
def State.csetFor (s : State) (p n i : Nat) : LinkMsg :=
  s.mkMsg 0x08 0 p (536 + n) (64 * s.rd R.port_NBLK n + s.rd R.port_NPOS n) (536 + s.rd R.port_NPORT n)
    (s.rd R.port_LOCAL n i + 256 * s.rd R.port_REMOTE n i + 65536 * s.rd R.port_DIR n i)

/-- The LCIRC entries that the partition's circuits use, port by port. -/
def State.usedLcirc (s : State) (r : ProgRec) : List (Nat × Nat) :=
  r.ports.flatMap (fun x => ((maskBits x.lcirc).filter (fun i => s.flag R.port_VALID x.port i)).map (fun i => (x.port, i)))

/-- The check passes: ENABLING, with what the record names, and the result to the lead (R528, R537, R540). -/
def State.passCheck (s : State) (p : Nat) (r : ProgRec) (flips : List (Nat × Nat × Nat)) : State :=
  let s := (s.wr R.part_PSTATE 2 p).wr R.part_REASON 0 p
  let s := s.updPart p (fun q => { q with
    flips := flips, manifest := (r.manifest.map (fun m => (m.1, m.2.1))).eraseDups, zeroDone := false
    ports := r.ports.map (fun x => (x.port, x.rwin, x.lcirc)) })
  (s.unqueue p).sendResult p 0

/-- The check of a partition on its own member fails; a lead keeps its failure for the members (R536, R540). -/
def State.failAccord (s : State) (p code detail : Nat) : State :=
  let keep := if s.span p && s.leadMod p == s.selfMod then (s.selfMod, code) :: (s.part p).members else []
  (s.failCheck p code detail).updPart p (fun q => { q with members := keep })

/-- Reads a partition's program record from the Granary, its header and then its lists, so that an error in it is found (R426); false where
one of its granules does not read clean. -/
def State.readProg (s : State) (p : Nat) : State × Bool :=
  let g := s.main p 56 5 % 2 ^ 36
  let h := s.readAll [s.linGran p g]
  let l := h.1.readAll ((List.range (h.1.progRec p).len).map (fun i => h.1.linGran p (g + 1 + i)))
  (l.1, h.2 && l.2)

/-- One turn of the check at the head of the queue (R536). The link circuits that it uses first exchange their CSETs (R482); the turn
after that decides. -/
def State.accord (s : State) (p : Nat) : State :=
  let rd := s.readProg p
  let s := rd.1
  let r := { s.progRec p with ok := rd.2 && (s.progRec p).ok }
  let flips := s.flipsNeeded [] r.manifest
  match firstFail (s.stepsA p r flips ++ s.stepsB p r) with
  | some (code, d) => (s.bump R.acc_ACC_RUNS).failAccord p code d
  | none =>
    if !(s.part p).csetSent && !(s.usedLcirc r).isEmpty then
      ((s.usedLcirc r).foldl (fun t x => t.queueMsg x.1 (s.csetFor p x.1 x.2)) s).updPart p (fun q => { q with csetSent := true })
    else
      let s := s.bump R.acc_ACC_RUNS
      match firstFail (s.stepsC p r) with
      | some (code, d) => s.failAccord p code d
      | none => s.passCheck p r flips

/-- The management processors run firmware and take on new checks (R565, R570, R621). -/
def State.mayCheck (s : State) : Bool :=
  s.alive && s.fwRuns && !s.power.orderly

/-- ACCORD_CHECK (R536). -/
def execAccordCheck (p : BitVec 6) (s : State) : Out :=
  .next (if s.mayCheck && s.mgmt.checkq.head? == some p.toNat && s.pstate p.toNat == 1 then s.accord p.toNat else s)

end Sys2Proof.Machine
end

