-- ==== Sys2Proof/Machine/Cells.lean ====
section
/-! DEFINITION. The cells of the arrays: conductance levels, the placing of weights, read-verify and margins (R85 to R92, R111, R213), the
physical arrays and columns that serve a position (R103, R116 to R120), the health rows (R124), and the wear of a bank (R114). -/

namespace Sys2Proof.Machine

/-! ### Conductance levels (R87, R88) -/

/-- The target conductance of level Lk in 1/100 µS: 0.5 µS, and one level spacing g of 1.0 µS more for each level (R87). -/
def levelTarget (k : Nat) : Nat := 50 + 100 * k

/-- A conductance lies in the verify window of level Lk, ±0.15 µS (R87). -/
def inWindow (k g : Nat) : Bool := decide (levelTarget k ≤ g + 15) && decide (g ≤ levelTarget k + 15)

/-- The weight unit of a format, and the spacing of its levels, in g (R88). -/
def unitOf (fmt : Nat) : Nat := if fmt = 0 then 1 else if fmt = 1 then 2 else 7

/-- The levels of the positive and the negative cell that hold a weight (R88). -/
def placeWeight (fmt : Nat) (w : Int) : Nat × Nat :=
  if w < 0 then (0, unitOf fmt * w.natAbs) else (unitOf fmt * w.natAbs, 0)

/-- The weight that a pair of levels represents in the weight units of a format (R85, R88). -/
def weightOf (fmt : Nat) (l : Nat × Nat) : Int := ((l.1 : Int) - l.2) / (unitOf fmt : Int)

/-- The level that the digital readout gives a conductance in a format: its read boundaries lie midway between adjacent levels (R111, R113). -/
def readLevel (fmt g : Nat) : Nat :=
  unitOf fmt * min (7 / unitOf fmt) ((g + 50 * unitOf fmt - 50) / (100 * unitOf fmt))

/-- The distance of a conductance from the nearer read boundary of a cell's level, in 1/100 µS; the lowest and the highest level have one
boundary each (R111). -/
def cellMargin (fmt k g : Nat) : Int :=
  let half : Int := 50 * unitOf fmt
  let above : Int := g - (levelTarget k - half)
  let below : Int := levelTarget k + half - g
  if k = 0 then below else if k = unitOf fmt * (7 / unitOf fmt) then above else min above below

/-- A margin in 1/256 of the format's level spacing, as the health record and the registers hold it: rounded down, 0 to 255. -/
def marginByte (fmt : Nat) (m : Int) : Nat := min (m * 256 / (100 * unitOf fmt : Nat)).toNat 255

/-- How program-verify classifies a cell outside its verify window (R213): 0 stuck-low, 1 stuck-high, 2 out of range. -/
def defectKind (k g : Nat) : Nat := if g < 100 ∧ 1 ≤ k then 0 else if 100 < g ∧ k = 0 then 1 else 2

/-- The witness weight at row r and column position c (R91). -/
def witnessWeight (r c : Nat) : Int := ((5 * r + 3 * c) % 15 : Nat) - 7

/-! ### Arrays and columns that serve a position (R116 to R120, R177) -/

/-- The physical array that serves a bank of a position: its own, or its octet's spare (64 and up) once the spare has taken the position, and
in the bank of a pass that has found the array to need replacing (R118, R120). An array number of 64 or more names a spare itself. -/
def CoreSt.physArray (k : CoreSt) (a b : Nat) : Nat :=
  if a < 64 && (Marks.has k.replaced a || Tbl.get 0 k.swap a == 4 + b) then 64 + a / 8 else a

/-- The record of a bank of an array position, or of a spare array. -/
def State.bank (s : State) (c a b : Nat) : BankSt := Tbl.get {} (s.core c).banks (2 * (s.core c).physArray a b + b)

/-- Changes the record of a bank. -/
def State.updBank (s : State) (c a b : Nat) (f : BankSt → BankSt) : State :=
  s.updCore c (fun k => { k with banks := Tbl.upd {} k.banks (2 * k.physArray a b + b) f })

/-- The physical column that supplies a user column of a bank (R103, R116). -/
def BankSt.phys (b : BankSt) (u : Nat) : Nat :=
  match b.remap.find? (fun r => r.2 == u) with
  | some r => 1024 + r.1
  | none => u

/-- The user column that a physical column of a bank supplies, if any. -/
def BankSt.serves (b : BankSt) (col : Nat) : Option Nat :=
  if col < 1024 then (if b.remap.any (fun r => r.2 == col) then none else some col)
  else (b.remap.find? (fun r => r.1 + 1024 == col && decide (r.2 < 1024))).map (·.2)

/-- The key of a cell pair of a physical array. -/
def cellKey (a b row col : Nat) : Nat := ((2 * a + b) * 1042 + row) * 1064 + col

/-- The levels of the cell pair at a row and physical column of a bank of a position: as programmed, and in the witness rows and reference
columns the fixed pattern (R91, R92). -/
def State.levels (s : State) (c a b row col : Nat) : Nat × Nat :=
  if row < 1040 && decide (1056 ≤ col) then (col - 1056, 0)
  else if decide (1024 ≤ row) && row < 1040 then placeWeight 0 (witnessWeight (row - 1024) col)
  else Tbl.get (0, 0) (s.core c).cells (cellKey ((s.core c).physArray a b) b row col)

/-- The weight that a user position of a bank holds, in the weight units of a format (R88). -/
def State.weight (s : State) (c a b fmt row u : Nat) : Int := weightOf fmt (s.levels c a b row ((s.bank c a b).phys u))

/-- The format of the cells at a row and physical column of a bank (R89): that of the set whose piece holds the position, none where no set
does; witness rows and reference columns are K4 (R91, R92). -/
def State.cellFmt (s : State) (c a b row col : Nat) : Option Nat :=
  if decide (1024 ≤ row) || decide (1056 ≤ col) then some 0
  else match (s.bank c a b).serves col with
    | none => none
    | some u => ((s.setsOn c [a]).find? (fun e => e.2.st b != 0 && (s.setPieces c e.2).any (fun x =>
        x.1.array == a && decide (32 * x.1.row0 ≤ row) && decide (row < 32 * (x.1.row0 + x.1.nblk + 1)) &&
        decide (32 * x.1.col0 ≤ u) && decide (u < 32 * (x.1.col0 + x.2 + 1))))).map (·.2.fmt)

/-- The level that a read cell should have. -/
def State.cellLevel (s : State) (c b : Nat) (x : CellRead) : Nat :=
  let l := s.levels c x.array.toNat b x.row.toNat x.col.toNat
  if x.neg then l.2 else l.1

/-- The margin of a read cell with its format, none where no set holds the position. -/
def State.readMargin (s : State) (c b : Nat) (x : CellRead) : Option (Nat × Int) :=
  (s.cellFmt c x.array.toNat b x.row.toNat x.col.toNat).map
    (fun f => (f, cellMargin f (s.cellLevel c b x) x.cond.toNat))

/-- The least margin of a row or bank in 1/256 that reads give: a cell that is not listed sits on its target, at margin 0.5 (R111). -/
def State.leastMargin (s : State) (c b : Nat) (reads : List CellRead) : Nat :=
  (reads.filterMap (s.readMargin c b)).foldl (fun m x => min m (marginByte x.1 x.2)) 128

/-- The cell is outside its verify window (R87, R213). -/
def State.cellBad (s : State) (c b : Nat) (x : CellRead) : Bool :=
  (s.cellFmt c x.array.toNat b x.row.toNat x.col.toNat).isSome && !inWindow (s.cellLevel c b x) x.cond.toNat

/-! ### Programming -/

/-- Sets cells of a physical array's bank, given by row, physical column and levels. -/
def State.setCells (s : State) (c a b : Nat) (ls : List (Nat × Nat × Nat × Nat)) : State :=
  s.updCore c (fun k => { k with cells := ls.foldl (fun m x => Tbl.set (0, 0) m (cellKey a b x.1 x.2.1) x.2.2) k.cells })

/-- The cells of a block of weights by row, user column and levels. -/
def blockCells (fmt cols : Nat) (p : Piece) (ws : List Int) : List (Nat × Nat × Nat × Nat) :=
  let nc := 32 * (cols + 1)
  (ws.zipIdx).map (fun x => (32 * p.row0 + x.2 / nc, 32 * p.col0 + x.2 % nc, placeWeight fmt x.1))

/-- Programs cells given by user column through a bank's remaps. -/
def State.programCells (s : State) (c a b : Nat) (ls : List (Nat × Nat × Nat × Nat)) : State :=
  let bk := s.bank c a b
  s.setCells c ((s.core c).physArray a b) b (ls.map (fun x => (x.1, bk.phys x.2.1, x.2.2)))

/-- Writes a block's weights into a bank: the piece's rows and columns. -/
def State.programBlock (s : State) (c b fmt cols : Nat) (p : Piece) (ws : List Int) : State :=
  s.programCells c p.array b (blockCells fmt cols p ws)

/-- Programs the blocks of an image in piece order, up to the first invalid one; true when every block was good (R204). -/
def State.programImage (s : State) (c b fmt : Nat) : List (Nat × Piece × List Byte × Nat) → State × Bool
  | [] => (s, true)
  | x :: r =>
    match goodBlock fmt x with
    | none => (s, false)
    | some ws => (s.programBlock c b fmt x.1 x.2.1 ws).programImage c b fmt r

/-- Every cell of the blocks holds its image level (R218); none where a block is invalid. -/
def State.matchesImage (s : State) (c b fmt : Nat) (blocks : List (Nat × Piece × List Byte × Nat)) : Option Bool :=
  blocks.foldl (fun acc x =>
    match acc, goodBlock fmt x with
    | some t, some ws =>
      some (t && (blockCells fmt x.1 x.2.1 ws).all (fun y =>
        s.levels c x.2.1.array b y.1 ((s.bank c x.2.1.array b).phys y.2.1) == y.2.2))
    | _, _ => none) (some true)

/-- What the weight images place on an array of a bank, by row, user column and levels: the blocks of every set that holds it there; none where
one of those images no longer passes its checks (R116, R118, log entry 59). -/
def State.arrayFill (s : State) (c a b : Nat) : Option (List (Nat × Nat × Nat × Nat)) :=
  ((s.setsOn c [a]).filter (fun e => e.2.st b != 0)).foldl (fun acc e =>
    let m := s.image (e.2.img b)
    if !m.ok e.1 (if e.2.ver b = 0 then m.version else e.2.ver b) then none
    else ((s.imgBlocks m).filter (fun x => x.2.1.array == a)).foldl (fun acc x =>
      match acc, goodBlock m.fmt x with
      | some l, some ws => some (l ++ blockCells m.fmt x.1 x.2.1 ws)
      | _, _ => none) acc) (some [])

/-- Programs the spare column `k` of a bank with what the images place in user column `u`: every other user row is at L0 (R116). -/
def State.fillColumn (s : State) (c a b k : Nat) (ls : List (Nat × Nat × Nat × Nat)) (u : Nat) : State :=
  let pa := (s.core c).physArray a b
  let s := s.updCore c (fun q => { q with cells := q.cells.filter (fun e =>
    !(decide (cellKey pa b 0 0 ≤ e.1) && decide (e.1 < cellKey pa b 1024 0) && e.1 % 1064 == 1024 + k)) })
  s.setCells c pa b ((ls.filter (fun x => x.2.1 == u)).map (fun x => (x.1, 1024 + k, x.2.2)))

/-! ### Health rows (R124) -/

/-- REMAP[0:31] of a health record (R124). -/
def remapBytes (b : BankSt) : List Byte :=
  (List.range 32).flatMap (fun k => match b.remap.find? (fun r => r.1 == k) with
    | some r => toLe 2 (if r.2 = 0xFFFF then 0x4000 else 0x8000 + r.2 % 1024)
    | none => toLe 2 0)

/-- The position that a physical array serves: its own, or for a spare the one it has taken. -/
def CoreSt.posOf (k : CoreSt) (pa : Nat) : Option Nat :=
  if pa < 64 then some pa else (List.range 8).map (8 * (pa - 64) + ·) |>.find? (fun a => Marks.has k.replaced a || 4 ≤ Tbl.get 0 k.swap a)

/-- STATUS of a physical array (R124). -/
def CoreSt.statusOf (k : CoreSt) (pa : Nat) : Nat :=
  let o := if pa < 64 then pa / 8 else pa - 64
  if Marks.has k.retired o then 4
  else if pa < 64 then (if Marks.has k.replaced pa then 3 else 0)
  else if (k.posOf pa).isSome then 2 else 1

/-- The 128-byte health record of a bank of a physical array (R124). -/
def CoreSt.healthRecord (k : CoreSt) (pa b : Nat) : List Byte :=
  let r := Tbl.get {} k.banks (2 * pa + b)
  let position := match k.posOf pa with
    | some a => a % 8
    | none => 8
  withCheck ([1, BitVec.ofNat 8 (k.statusOf pa), BitVec.ofNat 8 position, 0] ++ toLe 4 r.wear ++ toLe 1 (min r.verMargin 255) ++ [0] ++
    toLe 2 (min r.stuckLo 0xFFFF) ++ toLe 2 (min r.stuckHi 0xFFFF) ++ toLe 2 (min r.outRange 0xFFFF) ++ List.replicate 44 0 ++ remapBytes r)

/-- The cells of a row that holds a record: K2, +1 for a bit of 1 and 0 for a bit of 0 (R124). -/
def recordCells (lo : Nat) (bs : List Byte) : Tbl (Nat × Nat) :=
  let n := leNat bs
  (List.range 1024).filterMap (fun i => if n.testBit i then some (lo + i, placeWeight 2 1) else none)

/-- Writes a record into a row of a bank of a physical array. -/
def writeRow (m : Tbl (Nat × Nat)) (pa b row : Nat) (bs : List Byte) : Tbl (Nat × Nat) :=
  let lo := cellKey pa b row 0
  m.filter (fun e => decide (e.1 < lo)) ++ (recordCells lo bs ++ m.filter (fun e => decide (lo + 1064 ≤ e.1)))

/-- The bytes that a row of a bank of a physical array holds. -/
def readRow (m : Tbl (Nat × Nat)) (pa b row : Nat) : List Byte :=
  let lo := cellKey pa b row 0
  toLe 128 (((m.filter (fun e => decide (lo ≤ e.1) && decide (e.1 < lo + 1024))).map (fun e =>
    if weightOf 2 e.2 = 1 then 2 ^ (e.1 - lo) else 0)).foldl (· + ·) 0)

/-- The weight engine rewrites the two health rows of a bank of a physical array: the primary, and after its verify the copy (R124). -/
def State.writeHealth (s : State) (c pa b : Nat) : State :=
  s.updCore c (fun k => { k with
    cells := writeRow (writeRow k.cells pa b 1040 (k.healthRecord pa b)) pa b 1041 (k.healthRecord pa b) })

/-- The health rows of the banks of positions. -/
def State.writeHealths (s : State) (c b : Nat) (arrays : List Nat) : State :=
  arrays.foldl (fun s a => s.writeHealth c ((s.core c).physArray a b) b) s

/-! ### Wear, defects and the array registers (R114, R126) -/

/-- Brings the array registers that are formed over the core's in-service arrays up to date: remaps in use, largest wear, least margin
among the banks that hold one (R126). -/
def State.syncArrays (s : State) (c : Nat) : State :=
  let per := fun b => ((List.range 64).filter (fun a => !Marks.has (s.core c).retired (a / 8))).map (fun a => s.bank c a b)
  let rem := fun b => min (((per b).map (fun k => (k.remap.filter (fun r => r.2 < 1024)).length)).foldl (· + ·) 0) 0xFFFF
  let wear := fun b => ((per b).map (·.wear)).foldl max 0
  let mar := fun b => ((per b).filter (·.sampled)).foldl (fun m k => min m k.margin) 0xFF
  (((((s.wr R.arr_REMAP_A (rem 0) c).wr R.arr_REMAP_B (rem 1) c).wr R.arr_WEAR_MAX_A (wear 0) c).wr R.arr_WEAR_MAX_B
    (wear 1) c).wr R.arr_MARGIN_A (mar 0) c).wr R.arr_MARGIN_B (mar 1) c

/-- A defect event: DEFECTS, which holds 16 bits and stays at 0xFFFF (DESIGN CHOICE, log entry 60), and NEW_DEFECT (R126). -/
def State.defectEvent (s : State) (c : Nat) : State :=
  (s.wr R.arr_DEFECTS (min (s.rd R.arr_DEFECTS c + 1) 0xFFFF) c).wr R.arr_NEW_DEFECT 1 c

/-- The spare columns of a bank that are neither in use, nor unusable, nor held by a repair, the lowest first (R116). Which free spare a defect
takes is open: the model takes the lowest (DESIGN CHOICE, log entry 60). -/
def BankSt.freeSpares (b : BankSt) : List Nat :=
  (List.range 32).filter (fun k => !b.remap.any (fun r => r.1 == k) && !b.fixes.any (fun r => r.spare == k))

/-- The first of them. -/
def BankSt.freeSpare (b : BankSt) : Option Nat := b.freeSpares.head?

/-- A user column is remapped to a spare; a spare that served it becomes unusable (R116, R117). -/
def BankSt.remapTo (b : BankSt) (k u : Nat) : BankSt :=
  { b with remap := b.remap.map (fun r => if r.2 = u then (r.1, 0xFFFF) else r) ++ [(k, u)] }

/-- The core temperature in 1/16 °C, two's complement, exceeds 85 °C (R114). -/
def State.coreHot (s : State) (c : Nat) : Bool := decide (sgn 16 (s.rd R.cal_T_CORE c) > 85 * 16)

/-- Adds a pass to a bank's wear count: 1, or 2 when it was hot (R114); a count that reaches WE_WARN sets WARN_HIT. -/
def State.addWear (s : State) (c a b : Nat) (hot : Bool) : State :=
  let s := s.updBank c a b (fun k => { k with wear := k.wear + (if hot then 2 else 1) })
  if s.rd R.we_WE_WARN c ≤ (s.bank c a b).wear then s.wr R.we_WARN_HIT 1 c else s

/-- The wear of every array's bank allows one more pass of 2 below a limit (R230). -/
def State.wearOk (s : State) (c b : Nat) (arrays : List Nat) (limit : Nat) : Bool :=
  arrays.all (fun a => decide ((s.bank c a b).wear + 2 ≤ limit))

/-- A bank's margin has fallen below REFR_THR (R227). -/
def State.belowThr (s : State) (c a b : Nat) : Bool :=
  (s.bank c a b).sampled && decide ((s.bank c a b).margin * 100 < s.rd R.we_REFR_THR c * 256)

/-- A bank's margin is below 0.10 (R108, R227). -/
def BankSt.floor (k : BankSt) : Bool := k.sampled && decide (k.margin * 10 < 256)

/-- REFRESH_DUE_ACT: an ACTIVE bank is below the refresh threshold (R227, R232). -/
def State.syncDue (s : State) (c : Nat) : State :=
  s.wr R.we_REFRESH_DUE_ACT (b2n ((List.range 64).any (fun a => s.belowThr c a (s.activeBank c a) &&
    (s.setsOn c [a]).any (fun e => e.2.st (s.activeBank c a) == 4)))) c

/-- A bank's margin is formed: the least of its reads, and of what it was where it has been sampled since it was last programmed (R111). An
ACTIVE bank that falls below the refresh threshold, or below 0.10, shows it, each with its WSET record (R227). -/
def State.takeMargin (s : State) (c a b m : Nat) (fresh verified : Bool) : State :=
  let old := s.bank c a b
  let wasDue := s.belowThr c a b
  let new := if old.sampled && !fresh then min old.margin m else m
  let s := s.updBank c a b (fun k => { k with margin := new, sampled := true, verMargin := if verified then m else k.verMargin
                                              unverified := k.unverified && !verified })
  let sets := (s.setsOn c [a]).filter (fun e => e.2.st b == 4)
  let act := s.activeBank c a == b && !sets.isEmpty
  let s := if act && s.belowThr c a b && !wasDue then
      sets.foldl (fun s e => s.trailWset c e.1 (e.2.ver b) 6 b e.2.progGen) s
    else s
  if act && (s.bank c a b).floor && !old.floor then
    sets.foldl (fun s e => s.trailWset c e.1 (e.2.ver b) 7 b e.2.progGen) (s.wr R.we_MARGIN_FLOOR 1 c)
  else s

/-- Records a weight engine error (R232). -/
def State.weErr (s : State) (c code set : Nat) : State :=
  ((s.wr R.we_ERR_CODE code c).wr R.we_ERR_WSID set c).wr R.we_ERR_VALID 1 c

/-! ### Passes -/

/-- Brings the pass counts up to date. -/
def State.syncPasses (s : State) (c : Nat) : State :=
  let ps := (s.core c).passes
  ((s.wr R.we_PASSES_RUN (min (ps.filter (fun p => p.running && p.code.isNone)).length 31) c).wr R.we_PASSES_QUEUED
    (min (ps.filter (fun p => !p.running && !p.suspended && p.code.isNone)).length 31) c).wr R.we_REFRESHING
    (b2n (ps.any (fun p => p.kind == .refresh && (p.running || p.suspended) && p.code.isNone))) c

/-- The passes that wait in the pass queue. -/
def State.queuedPasses (s : State) (c : Nat) : Nat :=
  ((s.core c).passes.filter (fun p => !p.running && !p.suspended && p.code.isNone)).length

/-- Changes the pass of a number. -/
def State.updPass (s : State) (c id : Nat) (f : Pass → Pass) : State :=
  (s.updCore c (fun k => { k with passes := k.passes.map (fun p => if p.id = id then f p else p) })).syncPasses c

/-- Accepts a pass into the pass queue (R208). -/
def State.addPass (s : State) (c : Nat) (p : Pass) : State :=
  (s.updCore c (fun k => { k with passes := k.passes ++ [{ p with id := k.weNext }], weNext := k.weNext + 1 })).syncPasses c

end Sys2Proof.Machine
end

