-- ==== Sys2Proof/Machine/CalMeasure.lean ====
section
/-! DEFINITION. What the calibration logic forms from measured codes (R238 to R241): offsets, gains, bank gains, needed trims and their
faults. A run forms them of every array, and the sweep of a programming pass of its bank (R214). -/

namespace Sys2Proof.Machine

/-- The sign of witness row r in Walsh pattern p (R238). -/
def walsh (p r : Nat) : Int := if popcount (Nat.land p r) 4 % 2 = 0 then 1 else -1

/-- e_p of a column position (R239). -/
def walshSum (p c : Nat) : Int := sumI ((List.range 16).map (fun r => walsh p r * witnessWeight r c))

/-- O of R239: 16 × the mean of the 16 codes of phase Z. -/
def measOffset (m : CalMeas) : Int := m.z

/-- 16 × m_p of R239. -/
def measM16 (m : CalMeas) (p : Nat) : Int := 4 * m.w.getD p 0 - m.z

/-- G of R239, the exact quotient rounded to nearest, ties to even; 0 where every m_p is 0. -/
def measGain (m : CalMeas) : Int :=
  let num := sumI ((List.range 16).map (fun p => walshSum p m.pos.toNat * measM16 m p))
  let den := sumI ((List.range 16).map (fun p => measM16 m p * measM16 m p))
  if den = 0 then 0 else rneDiv (32768 * 16 * num) den.toNat

/-- A column fault (R241): G or O outside its healthy band, or a saturated code. -/
def measFault (m : CalMeas) : Bool :=
  m.sat || decide ((measGain m) < 26214) || decide (40960 < (measGain m)) || decide ((measOffset m) < -128) || decide (128 < (measOffset m))

/-- The ratios b_1 to b_7 of an array as (k, 256 b_k × k) pairs brought to one denominator: 420 × 256 × b_k (R239 step 5). -/
def refRatio (m : CalMeas) : Int := (measM16 m 0) * (420 / (m.pos.toNat - 1056))

/-- The median of the ratios b_1 to b_7 of an array, times 420 × 256. -/
def refMedian (refs : List CalMeas) : Int :=
  let l := sortBy (fun x y => decide (x ≤ y)) ((refs.filter (fun m => decide (1056 < m.pos.toNat))).map refRatio)
  l.getD (l.length / 2) 0

/-- A reference column is faulty: its ratio leaves the median by more than 0.05 of it, or RC0 reads more than 2 weight units
(R241). -/
def refFault (med : Int) (m : CalMeas) : Bool :=
  if m.pos.toNat = 1056 then decide (32 < (measM16 m 0).natAbs)
  else decide (med.natAbs < 20 * (refRatio m - med).natAbs)

/-- The bank gain BG of an array (R239 step 5). -/
def bankGain (refs : List CalMeas) : Int := rneDiv (32768 * refMedian refs) (420 * 256)

/-- BG leaves its healthy band: the bank fails (R241). -/
def gainFault (refs : List CalMeas) : Bool := !refs.isEmpty && (decide (bankGain refs < 26214) || decide (40960 < bankGain refs))

/-! ### Trims (R239 step 6, R240) -/

/-- The injected values of phase I in their order, in weight units (R238). -/
def injected : List Int := [16, -16, 48, -48, 80, -80, 112, -112]

/-- The sums of the two codes of phase I where the converter is exact. -/
def injExact : List Int := injected.map (· * 2)

/-- The line through phase-I sums of `n` positions, by least squares (DESIGN CHOICE, log entry 64), as the steps by which the gain trim and the
offset trim must move: a gain step moves code 127 by 1/16 code, an offset step every code by 1/16 (R239 step 6). -/
def trimSteps (n : Nat) (sums : List (List Int)) : Int × Int :=
  let sxy := sumI (sums.map (fun l => sumI (List.zipWith (· * ·) injected l)))
  let sy := sumI (sums.map sumI)
  (rneDiv (((86016 * n : Nat) - sxy) * 2032) (86016 * n), -(rneDiv sy n))

/-- A trim as stored: gain in bits [3:0], offset in bits [7:4]. -/
def trimByte (g o : Int) : Nat := usg 4 g + 16 * usg 4 o

/-- The trims that a converter of an array needs, from the trims in force (R239 step 6): the line of its four positions. A position that is not
listed measured its injected values exactly. -/
def needTrim (cols : List CalMeas) (a v trim : Nat) : Int × Int :=
  let d := trimSteps 4 ((List.range 4).map (fun i =>
    ((cols.find? (fun m => m.array.toNat == a && m.pos.toNat == 4 * v + i)).map (·.inj)).getD injExact))
  (sgn 4 (trim % 16) + d.1, sgn 4 (trim / 16 % 16) + d.2)

/-- A trim lies outside −8 to +7 (R241). -/
def trimBad (t : Int × Int) : Bool := decide (t.1 < -8) || decide (7 < t.1) || decide (t.2 < -8) || decide (7 < t.2)

/-- A converter is faulty: the trim that one of its positions needs by itself lies outside −8 to +7 (R241). -/
def convFault (cols : List CalMeas) (a v trim : Nat) : Bool :=
  (cols.filter (fun m => m.array.toNat == a && m.pos.toNat / 4 == v)).any (fun m =>
    let d := trimSteps 1 [m.inj]
    trimBad (sgn 4 (trim % 16) + d.1, sgn 4 (trim / 16 % 16) + d.2))

/-- The converters of an array for which positions are listed. -/
def convsOf (cols : List CalMeas) (a : Nat) : List Nat :=
  (List.range 266).filter (fun v => cols.any (fun m => m.array.toNat == a && m.pos.toNat / 4 == v))

end Sys2Proof.Machine
end

