-- ==== Sys2Proof/Machine/WeightCmds.lean ====
section
/-! DEFINITION. The weight engine's commands (R207 to R225, R541, R542), from a core's own list or from the host slot. -/

namespace Sys2Proof.Machine

/-- For whom a weight command acts (R541, R542, R693): the tenant, the partition whose bushels it may read, whether it has the
right to act at all, whether it may name any tenant's set, and whether it comes from the host slot. -/
structure WCtx where
  tenant : Nat
  part : Nat
  right : Bool
  anyTenant : Bool
  host : Bool
  deriving DecidableEq, Repr

/-- The context of a command from the core's own list. -/
def State.listCtx (s : State) (c : Nat) : WCtx :=
  let p := (s.owner c).getD 64
  { tenant := s.tenant p, part := p, right := true, anyTenant := false, host := false }

/-- The context of a host-slot command (R542). -/
def State.hostCtx (s : State) (c : Nat) (cmd : Cmd) : WCtx :=
  let op := cmd.opcode
  match s.owner c with
  | none => { tenant := 0, part := 64, right := false, anyTenant := false, host := true }
  | some p =>
    if s.enabled p then
      let q := s.rd R.ctab_STAGE_FOR c
      { tenant := s.tenant q, part := q, anyTenant := false, host := true
        right := s.flag R.ctab_STAGE_EN c && (op == 0x40 || op == 0x44 || (op == 0x41 && cmd.fld 119 1 == 0)) }
    else { tenant := s.tenant p, part := p, right := true, anyTenant := op == 0x43 || op == 0x44 || op == 0x45, host := true }

/-- WSID of a weight command (R207). -/
def wsidOf (cmd : Cmd) : Nat := cmd.fld 80 12
/-- VERSION. -/
def versionOf (cmd : Cmd) : Nat := cmd.fld 96 16
/-- TALLY. -/
def wTally (cmd : Cmd) : Nat := cmd.fld 112 6
/-- TALLY_EN. -/
def wTallyEn (cmd : Cmd) : Bool := cmd.fld 118 1 == 1
/-- BANK. -/
def wBank (cmd : Cmd) : Nat := cmd.fld 119 1
/-- IMG. -/
def wImg (cmd : Cmd) : Nat := cmd.fld 128 32

/-- The refusal code among those that apply: 0x47 if it does, otherwise the lowest (R234); 0 for none. -/
def pickCode (codes : List (Bool × Nat)) : Nat :=
  let on := (codes.filter (·.1)).map (·.2)
  if on.contains 0x47 then 0x47 else on.foldl (fun m x => if m = 0 then x else min m x) 0

/-- The rights of a command fail: code 0x47 (R541, R542). -/
def State.noRight (s : State) (c : Nat) (x : WCtx) (set : Nat) : Bool :=
  !x.right || ((s.wset c set).valid && (s.wset c set).tenant != x.tenant && !x.anyTenant)

/-- A refused command: its error, and its tally at the next publication edge (R209, R234). -/
def State.refuseW (s : State) (c code : Nat) (cmd : Cmd) (tally : Bool) : State :=
  let s := s.weErr c code (wsidOf cmd)
  let s := if code = 0x46 then s.wr R.we_CEIL_HIT 1 c else s
  if tally then s.updCore c (fun k => { k with tallyDue := k.tallyDue ++ [(wTally cmd, s.owner c)] }) else s

/-- The bank that a WPROG or an adoption into the inactive bank targets, from the arrays of the set or of the image. -/
def State.inactiveOf (s : State) (c : Nat) (arrays : List Nat) : Nat :=
  match arrays.head? with
  | some a => 1 - s.nextBank c a
  | none => 1

/-- A pass or a switch holds the set's bank: PROGRAMMING, VERIFYING or SWITCHING (R200). -/
def State.busyBank (s : State) (c set bank : Nat) : Bool :=
  (s.wset c set).st bank == 1 || (s.wset c set).st bank == 2 || (s.wset c set).st bank == 5

/-- The refusal code of an image command into a bank (R692, R205, R206, R220, R230, R234). A WADOPT of a bank that is READY is refused with
0x45, as one that is neither EMPTY nor READY is (DESIGN CHOICE, log entry 62: the error table names no code for an event that R200 does not list). -/
def State.imageCode (s : State) (c : Nat) (x : WCtx) (cmd : Cmd) (adopt : Bool) : Nat :=
  let set := wsidOf cmd
  let w := s.wset c set
  let m := s.image (wImg cmd)
  let arrays := if w.valid then s.setArrays c w else m.arrays
  let inact := s.inactiveOf c arrays
  let bank := if adopt && wBank cmd == 1 then 1 - inact else inact
  let group := s.growGroup c arrays 64
  let mixed := group.any (fun a => s.nextBank c a != 1 - inact)
  let others := !adopt && s.busyBank c set bank
  pickCode [
    (s.noRight c x set || !s.imgAllowed x.part (wImg cmd) m, 0x47),
    (!m.ok set (versionOf cmd), 0x41),
    (!m.layoutOk || !s.layoutFree c set bank m, 0x42),
    (w.valid && (m.layout != w.layout || m.fmt != w.fmt || m.tiles != w.tiles || m.tileBase != w.tileBase ||
      m.npiece != w.nPiece || m.pieceBase != w.pieceBase), 0x43),
    (versionOf cmd == 0, 0x44),
    ((if adopt then w.st bank != 0 else w.st bank != 0 && w.st bank != 3) || mixed || others, 0x45),
    (!adopt && !s.wearOk c bank arrays (s.rd R.we_WE_CEIL c - s.rd R.we_WE_RESERVE c), 0x46)]

/-- Installs the tables of a set that is not VALID (R206), and takes the bank into the state of the pass. -/
def State.install (s : State) (c : Nat) (x : WCtx) (cmd : Cmd) (bank st : Nat) : State :=
  let set := wsidOf cmd
  let m := s.image (wImg cmd)
  let w := s.wset c set
  let s := if w.valid then s else
    s.updCore c (fun k => { k with
      tileStore := (m.tileWords.zipIdx).foldl (fun t e => Tbl.set 0 t (m.tileBase + e.2) e.1) k.tileStore
      pieceStore := (m.pieceWords.zipIdx).foldl (fun t e => Tbl.set 0 t (m.pieceBase + e.2) e.1) k.pieceStore })
  s.updSet c set (fun w =>
    let w := if w.valid then w else
      { w with
        valid := true, fmt := m.fmt, active := 1 - bank, tiles := m.tiles, tileBase := m.tileBase
        nPiece := m.npiece, pieceBase := m.pieceBase, layout := m.layout, tenant := x.tenant }
    ((w.setSt bank st).setVer bank 0).setImg bank (wImg cmd))

/-- A pass as a command describes it. -/
def passOf (s : State) (c : Nat) (x : WCtx) (cmd : Cmd) (kind : PassKind) (bank version : Nat) (arrays : List Nat) : Pass :=
  { id := 0, kind := kind, set := wsidOf cmd, bank := bank, version := version, img := wImg cmd, tally := wTally cmd
    tallyEn := wTallyEn cmd, part := s.owner c, tenant := x.tenant, arrays := arrays, running := false
    suspended := false, code := none, hot := false }

/-- A command's outcome: accepted with the state after it, refused with a code, or held because the pass queue is full. -/
inductive WRes where
  | accepted (s : State)
  | refused (code : Nat)
  | held

/-- WPROG (R200, R206, R207, R212). -/
def wprogAct (s : State) (c : Nat) (x : WCtx) (cmd : Cmd) : WRes :=
  let code := s.imageCode c x cmd false
  if code != 0 then .refused code
  else if 16 ≤ s.queuedPasses c then .held
  else
    let w := s.wset c (wsidOf cmd)
    let arrays := if w.valid then s.setArrays c w else (s.image (wImg cmd)).arrays
    let bank := s.inactiveOf c arrays
    .accepted ((s.install c x cmd bank 1).addPass c (passOf s c x cmd .prog bank (versionOf cmd) arrays))

/-- WADOPT (R218). -/
def wadoptAct (s : State) (c : Nat) (x : WCtx) (cmd : Cmd) : WRes :=
  let code := s.imageCode c x cmd true
  if code != 0 then .refused code
  else if 16 ≤ s.queuedPasses c then .held
  else
    let w := s.wset c (wsidOf cmd)
    let arrays := if w.valid then s.setArrays c w else (s.image (wImg cmd)).arrays
    let inact := s.inactiveOf c arrays
    let bank := if wBank cmd = 1 then 1 - inact else inact
    let s' := s.install c x cmd bank 2
    let s' := s'.updSet c (wsidOf cmd) (fun w => { w with active := 1 - inact })
    .accepted (s'.addPass c (passOf s c x cmd .adopt bank (versionOf cmd) arrays))

/-- WFLIP requests a flip (R221): `frame` is the FRAME_SEQ of the WFLIP's frame, none for the host slot. -/
def wflipAct (s : State) (c : Nat) (x : WCtx) (cmd : Cmd) : WRes :=
  let code := pickCode [(s.noRight c x (wsidOf cmd), 0x47), (versionOf cmd == 0, 0x44)]
  if code != 0 then .refused code
  else
    let frame := if x.host then none else (s.owner c).map (fun p => s.frameSeq p)
    let waits := !(s.core c).flipReqs.isEmpty
    let s := s.updCore c (fun k => { k with flipReqs := k.flipReqs ++
      [{ set := wsidOf cmd, version := versionOf cmd, tally := some (wTally cmd), frame := frame, fromEnable := false }] })
    .accepted ((s.wr R.we_FLIP_RES (if waits then 7 else 1) c).wr R.we_FLIP_WSID (wsidOf cmd) c)

/-- The bank of a set that a command names as its inactive or active one. -/
def State.setBank (s : State) (c set : Nat) (act : Bool) : Nat :=
  let a := s.inactiveOf c (s.setArrays c (s.wset c set))
  if act then 1 - a else a

/-- WREFR queues a refresh of the inactive bank of the set's flip group (R207, R691). -/
def wrefrAct (s : State) (c : Nat) (x : WCtx) (cmd : Cmd) : WRes :=
  let set := wsidOf cmd
  let w := s.wset c set
  let b := s.setBank c set false
  let code := pickCode [(s.noRight c x set, 0x47), (!w.valid || w.ver b == 0, 0x48),
    (w.valid && w.st b != 0 && w.st b != 3, 0x45),
    (w.valid && !s.wearOk c b (s.flipGroup c set) (s.rd R.we_WE_CEIL c), 0x46)]
  if code != 0 then .refused code
  else if 16 ≤ s.queuedPasses c then .held
  else .accepted (s.addPass c (passOf s c x cmd .refresh b (w.ver b) (s.flipGroup c set)))

/-- WERASE empties the set's READY inactive bank, abandoning a refresh that runs on it, whose wear stands (R200, R691). -/
def weraseAct (s : State) (c : Nat) (x : WCtx) (cmd : Cmd) : WRes :=
  let set := wsidOf cmd
  let w := s.wset c set
  let b := s.setBank c set false
  let code := pickCode [(s.noRight c x set, 0x47), (w.valid && w.st b != 0 && w.st b != 3, 0x45),
    (!w.valid || w.ver b == 0, 0x48)]
  if code != 0 then .refused code
  else
    let arrays := s.setArrays c w
    let hit := fun (p : Pass) => p.kind == .refresh && p.bank == b && p.running && p.code.isNone &&
      p.arrays.any (fun a => arrays.contains a)
    let s' := (s.core c).passes.foldl (fun s p => if hit p then
        ((p.arrays.foldl (fun s a => s.addWear c a b (p.hot || s.coreHot c)) s).writeHealths c b p.arrays).release c p.id true else s) s
    let s' := s'.syncArrays c
    let s' := s'.updCore c (fun k => { k with passes := k.passes.map (fun p =>
      if hit p then { p with running := false, code := some 0x100 } else p) })
    .accepted ((s'.updSet c set (fun w => (w.setSt b 0).setVer b 0)).syncPasses c)

/-- WVERIFY queues a margin sweep over one bank of the set, which no pass and no switch holds (R200, R207). -/
def wverifyAct (s : State) (c : Nat) (x : WCtx) (cmd : Cmd) : WRes :=
  let set := wsidOf cmd
  let w := s.wset c set
  let b := s.setBank c set (wBank cmd == 1)
  let code := pickCode [(s.noRight c x set, 0x47), (w.valid && s.busyBank c set b, 0x45), (!w.valid || w.ver b == 0, 0x48)]
  if code != 0 then .refused code
  else if 16 ≤ s.queuedPasses c then .held
  else .accepted (s.addPass c { passOf s c x cmd .verify b (w.ver b) (s.setArrays c w) with tallyEn := false })

/-- WPROG and WADOPT read an image as they are accepted (R692). -/
def imageCmd (cmd : Cmd) : Bool := cmd.opcode == 0x40 || cmd.opcode == 0x41

/-- The engine executes a weight command from its list: accepted or refused, the command retires (R207). -/
def State.weightRun (s : State) (c : Nat) (cmd : Cmd) (act : State → Nat → WCtx → Cmd → WRes) (tally : Bool) : State :=
  s.engRun c .weight cmd (fun s =>
    let s := if imageCmd cmd then s.eccImage (wImg cmd) else s
    match act s c (s.listCtx c) cmd with
    | .accepted s' => s'.retire c .weight cmd
    | .refused code => (s.refuseW c code cmd tally).retire c .weight cmd
    | .held => s)

/-- WPROG. -/
def execWprog (core : BitVec 9) (cmd : Cmd) (s : State) : Out := .next (s.weightRun core.toNat cmd wprogAct (wTallyEn cmd))

/-- WADOPT. -/
def execWadopt (core : BitVec 9) (cmd : Cmd) (s : State) : Out := .next (s.weightRun core.toNat cmd wadoptAct (wTallyEn cmd))

/-- WFLIP always raises its tally (R207). -/
def execWflip (core : BitVec 9) (cmd : Cmd) (s : State) : Out := .next (s.weightRun core.toNat cmd wflipAct true)

/-- WREFR. -/
def execWrefr (core : BitVec 9) (cmd : Cmd) (s : State) : Out := .next (s.weightRun core.toNat cmd wrefrAct (wTallyEn cmd))

/-- WERASE: no tally (R207). -/
def execWerase (core : BitVec 9) (cmd : Cmd) (s : State) : Out := .next (s.weightRun core.toNat cmd weraseAct false)

/-- WVERIFY: no tally (R207). -/
def execWverify (core : BitVec 9) (cmd : Cmd) (s : State) : Out := .next (s.weightRun core.toNat cmd wverifyAct false)

/-- The command in the host slot of a core (R210). -/
def State.hostSlot (s : State) (c : Nat) : Cmd :=
  BitVec.ofNat 256 (leNat ((List.range 8).flatMap (fun i => toLe 4 (s.rd R.we_WE_HCMD c i))))

/-- The result of a host command, with the signal (R210). -/
def State.hostDone (s : State) (c res code : Nat) : State :=
  (((s.updCore c (fun k => { k with hostCmd := false })).wr R.we_HRES res c).wr R.we_HRES_CODE code c).msix 0 4

/-- What a host command's acceptance comes to: accepted or refused it retires, with the signal of its header (R207). -/
def State.hostFinish (s : State) (c : Nat) (cmd : Cmd) (r : WRes) (tally : Bool) : State :=
  match r with
  | .accepted s' => (s'.signal c cmd).hostDone c 2 0
  | .refused code => ((s.refuseW c code cmd tally).signal c cmd).hostDone c 3 code
  | .held => s

/-- The acceptance of the host command that waits, by its opcode. -/
def State.hostAct (s : State) (c : Nat) (cmd : Cmd) : State :=
  let x := s.hostCtx c cmd
  match cmd.opcode with
  | 0x40 => s.hostFinish c cmd (wprogAct s c x cmd) (wTallyEn cmd)
  | 0x41 => s.hostFinish c cmd (wadoptAct s c x cmd) (wTallyEn cmd)
  | 0x42 => s.hostFinish c cmd (wflipAct s c x cmd) true
  | 0x43 => s.hostFinish c cmd (wrefrAct s c x cmd) (wTallyEn cmd)
  | 0x44 => s.hostFinish c cmd (weraseAct s c x cmd) false
  | 0x45 => s.hostFinish c cmd (wverifyAct s c x cmd) false
  | _ => s.hostDone c 3 0x4C

/-- The command in the host slot is taken at a tick edge (R210): executed ahead of the queue, or refused; an opcode outside
0x40 to 0x45 is not executed. PF vector 4 reports the result. A command held by a full pass queue stays in its slot. -/
def State.takeHostCmd (s : State) (c : Nat) : State :=
  if !(s.core c).hostCmd then s
  else
    let cmd := s.hostSlot c
    (if imageCmd cmd then s.eccImage (wImg cmd) else s).hostAct c cmd

end Sys2Proof.Machine
end

