-- ==== Sys2Proof/Machine/Passes.lean ====
section
/-! DEFINITION. Weight passes, flips, margins and defects: the events of the weight engine (R208 to R231, R111 to R122). -/

namespace Sys2Proof.Machine

/-- A pass holds the program drivers: it programs cells (R216). -/
def PassKind.programs : PassKind → Bool
  | .prog => true
  | .refresh => true
  | .repair => true
  | .replace => true
  | .adopt => false
  | .verify => false

/-- The pass of a number. -/
def State.pass (s : State) (c id : Nat) : Option Pass := (s.core c).passes.find? (fun p => p.id == id)

/-- A refresh that waits because its bank is active or switching: it goes on once the bank is inactive again (R223, R227; DESIGN CHOICE, log
entry 63). -/
def State.refreshWaits (s : State) (c : Nat) (p : Pass) : Bool :=
  p.kind == .refresh && p.arrays.any (fun a => s.activeBank c a == p.bank ||
    (match (s.core c).flip with
    | some f => f.arrays.contains a
    | none => false))

/-- No earlier pass that has not ended, other than a suspended refresh or one that waits for its bank, holds an array of this one, and fewer
than 16 passes run (R208). -/
def State.arraysFree (s : State) (c : Nat) (p : Pass) : Bool :=
  !(s.core c).passes.any (fun q => decide (q.id < p.id) && q.code.isNone && !q.suspended && (q.running || !s.refreshWaits c q) &&
    q.arrays.any (fun a => p.arrays.contains a)) &&
    decide (((s.core c).passes.filter (fun q => q.running && q.code.isNone)).length < 16)

/-- Asks for the program grants of a pass: 100 mW for each array (R216). -/
def State.askProgram (s : State) (c : Nat) (p : Pass) : State :=
  if (s.power.held ++ s.power.waiting).any (fun g => g.core == c && g.id == p.id && g.holder == .cap) then s.admitHolder .cap
    s.power.waiting.length
  else p.arrays.foldl (fun s _ => s.requestGrant { holder := .cap, core := c, id := p.id, mw := 100 }) s

/-- Ends a pass with a code, 0 for success: its grants are released; its state change and tally wait for the next publication
edge (R200, R209). -/
def State.endPass (s : State) (c id code : Nat) : State :=
  let s := { s with power := { s.power with
    waiting := s.power.waiting.filter (fun g => !(g.core == c && g.id == id && g.holder == Holder.cap)) } }
  (s.release c id true).updPass c id (fun p => { p with running := false, code := some code })

/-- The sets whose version a refresh re-programs: those with a READY bank on its arrays. -/
def State.refreshSets (s : State) (c : Nat) (p : Pass) : List (Nat × WSet) :=
  (s.setsOn c p.arrays).filter (fun e => e.2.st p.bank == 3)

/-- Reads the images of a refresh as it begins (R229, R426). -/
def State.readRefresh (s : State) (c : Nat) (p : Pass) : State :=
  (s.refreshSets c p).foldl (fun s e =>
    let s := s.eccImage (e.2.img p.bank)
    if (s.image (e.2.img p.bank)).ok e.1 (e.2.ver p.bank) then s.readBlocks (e.2.img p.bank) else s) s

/-- What refuses a refresh at its start: 0x48 for a bank that is EMPTY or holds no version (R691), 0x46 for wear (R230), 0x41
or 0x49 for its images (R229). -/
def State.refreshCode (s : State) (c : Nat) (p : Pass) : Nat :=
  let sets := s.refreshSets c p
  if sets.isEmpty then 0x48
  else if !s.wearOk c p.bank p.arrays (s.rd R.we_WE_CEIL c) then 0x46
  else if sets.any (fun e => !(s.image (e.2.img p.bank)).ok e.1 (e.2.ver p.bank)) then 0x41
  else if sets.any (fun e =>
    let m := s.image (e.2.img p.bank)
    (s.imgBlocks m).any (fun x => (goodBlock m.fmt x).isNone)) then 0x49
  else 0

/-- A queued pass begins once its arrays are free and it holds a program grant (R208, R216); no pass begins while HOLD is set
(R609). A refresh is checked as it begins and counts in PROG_GEN of every set in the bank (R228, R229); a program pass counts
in its own set's. A suspended refresh goes on with the flip that makes its bank inactive, not here (R223). -/
def execPassStart (core : BitVec 9) (id : Nat) (s : State) : Out :=
  let c := core.toNat
  .next (match s.pass c id with
    | none => s
    | some p =>
      if !s.alive || s.flag R.gov_HOLD || p.running || p.suspended || p.code.isSome || !s.arraysFree c p || s.refreshWaits c p then s
      else
        let s := if p.kind = .refresh then s.readRefresh c p else s
        let code := if p.kind = .refresh then s.refreshCode c p else 0
        if code != 0 then
          let s := (s.weErr c code p.set).endPass c id code
          if code = 0x46 then s.wr R.we_CEIL_HIT 1 c else s
        else
          let s := if p.kind.programs then s.askProgram c p else s
          if p.kind.programs && !s.holds c id true then s
          else
            let s' := s.updPass c id (fun q => { q with running := true, hot := q.hot || s.coreHot c })
            match p.kind with
            | .prog => s'.updSet c p.set (fun w => { w with progGen := (w.progGen + 1) % 2 ^ 32 })
            | .refresh => (s.refreshSets c p).foldl (fun s e =>
                (s.updSet c e.1 (fun w => { w with progGen := (w.progGen + 1) % 2 ^ 32 })).trailWset c e.1
                  (e.2.ver p.bank) 3 p.bank (e.2.progGen + 1)) s'
            | _ => s')

/-! ### What a sweep hands to calibration (R214, R237, R239) -/

/-- The first correction set of a bank of positions, formed from what the sweep of a pass measured as a run's set is formed (R214, R239): its
columns, its bank gain, the core's temperature and the second of the sweep. A column fault keeps the values it has. -/
def State.storeCorr (s : State) (c b : Nat) (arrays : List Nat) (cols refs : List CalMeas) (t : Int) (time : Nat) : State :=
  s.updCal c (fun k =>
    let k := (cols.filter (fun m => arrays.contains m.array.toNat && !measFault m)).foldl (fun k m =>
      k.setCol (calKey m.array.toNat b m.pos.toNat) ((measGain m).toNat, measOffset m)) k
    { k with
      bg := (arrays.filter (fun a => refs.any (fun m => m.array.toNat == a))).foldl (fun l a =>
        Tbl.put l (2 * a + b) (bankGain (refs.filter (fun m => m.array.toNat == a))).toNat) k.bg
      tMeas := arrays.foldl (fun l a => Tbl.put l (2 * a + b) t) k.tMeas
      time := arrays.foldl (fun l a => Tbl.put l (2 * a + b) time) k.time
      setRun := arrays.foldl (fun l a => Tbl.set 0xFFFFFFFF l (2 * a + b) 0xFFFFFFFF) k.setRun })

/-! ### Replacements (R118 to R120, R230, R237) -/

/-- The octet's spare array is in service, or is being brought in. -/
def State.spareTaken (s : State) (c o : Nat) : Bool :=
  (List.range 8).any (fun i => Marks.has (s.core c).replaced (8 * o + i) || Tbl.get 0 (s.core c).swap (8 * o + i) != 0)

/-- An octet whose spare array is in service is retired from the next publication edge (R119). -/
def State.retireOctet (s : State) (c o : Nat) : State :=
  if Marks.has (s.core c).retired o || Marks.has (s.core c).retireDue o then s
  else
    let s := s.updCore c (fun k => { k with retireDue := Marks.put k.retireDue o true })
    let s := (s.wr R.arr_ARRAYS_OK (s.rd R.arr_ARRAYS_OK c - 8) c).wr R.arr_DEGRADED 1 c
    (s.wr R.arr_OCTETS_RETIRED (s.rd R.arr_OCTETS_RETIRED c + 1) c).logCore 2 0x01 0x4B c 0xFFFF o

/-- The wear of both banks of an octet's spare array allows the replacement (R230). -/
def State.spareWearOk (s : State) (c o : Nat) : Bool :=
  s.wearOk c 0 [64 + o] (s.rd R.we_WE_CEIL c) && s.wearOk c 1 [64 + o] (s.rd R.we_WE_CEIL c)

/-- The contents of a position's bank are programmed into the octet's spare array, from the weight images (R118, R30). -/
def State.copyBank (s : State) (c a b : Nat) : State :=
  match s.arrayFill c a b with
  | none => s
  | some ls =>
    let sp := 64 + a / 8
    let bk := s.bank c sp b
    let lo := cellKey sp b 0 0
    let s := s.updCore c (fun k => { k with cells := k.cells.filter (fun e =>
      !(decide (lo ≤ e.1) && decide (e.1 < cellKey sp b 1024 0))) })
    s.setCells c sp b (ls.map (fun x => (x.1, bk.phys x.2.1, x.2.2)))

/-- A spare array takes a position for both banks (R118): its banks hold the contents of the failed array's, it counts in SPARES_USED, the sets of
its sweep come into store, and a calibration run becomes due with cause 5 (R237). -/
def State.takeSpare (s : State) (c a : Nat) : State :=
  let v := Tbl.get 0 (s.core c).swap a
  let s := if v = 4 then s.copyBank c a 1 else if v = 5 then s.copyBank c a 0 else (s.copyBank c a 0).copyBank c a 1
  let s := s.updCore c (fun k => { k with replaced := Marks.put k.replaced a true, swap := Tbl.set 0 k.swap a 0 })
  let s := match Tbl.find (s.core c).swapSet a with
    | some x =>
      let b := s.activeBank c a
      ((s.storeCorr c b [a] x.corr x.refs x.t x.time).storeCorr c (1 - b) [a] x.corr2 x.refs2 x.t x.time).updCore c
        (fun k => { k with swapSet := k.swapSet.del a })
    | none => s
  let s := s.wr R.arr_SPARES_USED (s.rd R.arr_SPARES_USED c + 1) c
  let s := [0, 1].foldl (fun s b => (s.writeHealth c a b).writeHealth c (64 + a / 8) b) s
  (s.syncArrays c).calDue c 5

/-- A pass on a bank finds that an array needs replacing (R118 to R120): the octet's spare array is programmed in its place, at the wear of a
pass for each of its banks, and takes the position with the bank's flip. The code under which the pass fails: 0x46 at the wear ceiling, 0x49
where an image no longer passes its checks, 0x4B where the octet is retired; 0 for none. -/
def State.replaceIn (s : State) (c a b : Nat) (hot : Bool) : State × Nat :=
  if s.spareTaken c (a / 8) then (s.retireOctet c (a / 8), 0x4B)
  else if !s.spareWearOk c (a / 8) then (s.wr R.we_CEIL_HIT 1 c, 0x46)
  else if (s.arrayFill c a b).isNone then (s, 0x49)
  else
    let s := s.copyBank c a b
    let s := s.updCore c (fun k => { k with swap := Tbl.set 0 k.swap a (4 + b) })
    let s := ((s.addWear c (64 + a / 8) 0 hot).addWear c (64 + a / 8) 1 hot).bump R.we_WE_REPAIRS 1 c
    (s.logCore 1 0x01 0 c 0xFFFF a, 0)

/-! ### Defects that a pass finds (R116, R117, R213 to R215) -/

/-- The column positions of a bank's arrays that the reads find defective, each with the kind of its first bad cell. -/
def State.badCols (s : State) (c b : Nat) (reads : List CellRead) : List (Nat × Nat) :=
  ((reads.filter (s.cellBad c b)).map (fun x => (x.array.toNat, x.col.toNat))).eraseDups

/-- The cells found stuck-low, stuck-high and out of range count in the health records (R124, R213). -/
def State.countCells (s : State) (c b : Nat) (reads : List CellRead) : State :=
  (reads.filter (s.cellBad c b)).foldl (fun s x =>
    let kind := defectKind (s.cellLevel c b x) x.cond.toNat
    s.updBank c x.array.toNat b (fun k =>
      if kind = 0 then { k with stuckLo := k.stuckLo + 1 }
      else if kind = 1 then { k with stuckHi := k.stuckHi + 1 } else { k with outRange := k.outRange + 1 })) s

/-- One defective column position of a bank that is not computing (R116, R117): a user column, or a spare in use, moves to a free spare that the
weight engine fills from the images; a free spare becomes unusable; a reference column is noted. True where the array needs a
replacement; and the code under which the pass fails. -/
def State.idleDefect (s : State) (c a b pos : Nat) : State × Bool × Nat :=
  let s := (s.defectEvent c).logCore 1 0x01 0 c 0xFFFF a
  if 1056 ≤ pos then
    let s := s.updBank c a b (fun k => { k with refBad := if k.refBad.contains pos then k.refBad else k.refBad ++ [pos] })
    (s, decide (2 < (s.bank c a b).refBad.length), 0)
  else match (s.bank c a b).serves pos with
    | none =>
      if pos < 1024 then (s, false, 0)
      else (s.updBank c a b (fun k => { k with remap := if k.remap.any (fun r => r.1 + 1024 == pos) then k.remap
                                                        else k.remap ++ [(pos - 1024, 0xFFFF)] }), false, 0)
    | some u =>
      match (s.bank c a b).freeSpare, s.arrayFill c a b with
      | none, _ => (s, true, 0)
      | some _, none => (s, false, 0x49)
      | some k, some ls => ((s.fillColumn c a b k ls u).updBank c a b (fun x => x.remapTo k u), false, 0)

/-- The defects and faulty row drivers that a programming pass finds: remaps within the pass, then the replacements, one for each array that
needs one. The code is 0, or that of the first failure. -/
def State.passDefects (s : State) (c b : Nat) (hot : Bool) (found : PassFindings) (arrays : List Nat) : State × Nat :=
  let cols := (s.badCols c b found.cells).filter (fun x => arrays.contains x.1)
  let s := s.countCells c b (found.cells.filter (fun x => arrays.contains x.array.toNat))
  let r := cols.foldl (fun (acc : State × List Nat × Nat) x =>
    let q := acc.1.idleDefect c x.1 b x.2
    (q.1, if q.2.1 then acc.2.1 ++ [x.1] else acc.2.1, if acc.2.2 = 0 then q.2.2 else acc.2.2)) (s, [], 0)
  let need := arrays.filter (fun a => r.2.1.contains a || found.drivers.any (fun d => d.toNat == a))
  need.foldl (fun (acc : State × Nat) a =>
    let q := acc.1.replaceIn c a b hot
    (q.1, if acc.2 = 0 then q.2 else acc.2)) (r.1, r.2.2)

/-- The repairs of a bank that a program pass over it makes unneeded: their columns are remapped within the pass (R215). -/
def BankSt.absorb (k : BankSt) : BankSt :=
  { k.fixes.foldl (fun k f => k.remapTo f.spare f.col) k with fixes := [], poisoned := [] }

/-- A pass over a bank, at its end, wears every array's bank (R114). -/
def State.passWear (s : State) (c : Nat) (p : Pass) : State :=
  p.arrays.foldl (fun s a => s.addWear c a p.bank (p.hot || s.coreHot c)) s

/-- The margins that a sweep forms over the arrays of a pass (R111, R214): over the cells that its reads find, those of columns found defective
left out (DESIGN CHOICE, log entry 59). `fresh` starts the bank's margin anew. -/
def State.passMargins (s : State) (c : Nat) (p : Pass) (reads : List CellRead) (fresh : Bool) : State :=
  let s := p.arrays.foldl (fun s a =>
    s.takeMargin c a p.bank (s.leastMargin c p.bank (reads.filter (fun x => x.array.toNat == a && !s.cellBad c p.bank x))) fresh true) s
  (s.syncArrays c).syncDue c

/-- A column repair or a replacement that runs finishes its verify (R121, R122, R215, R237): the spares are filled from the images, the pass costs
its wear, counts in WE_REPAIRS and rewrites the health rows; the remap or the spare array takes effect later. Where an image no longer
passes its checks it is abandoned with code 0x49 and the poison stays (log entry 59). A spare found defective is unusable, and its
column waits for another repair. -/
def State.endRepair (s : State) (c : Nat) (p : Pass) (found : PassFindings) : State :=
  let a := p.arrays.headD 0
  let hot := p.hot || s.coreHot c
  let sets := (s.setsOn c [a]).filter (fun e => e.2.st p.bank == 4)
  let rec_ := fun (s : State) => sets.foldl (fun s e => s.trailWset c e.1 (e.2.ver p.bank) 5 p.bank e.2.progGen) s
  if p.kind = .replace then
    if (s.arrayFill c a 0).isNone || (s.arrayFill c a 1).isNone then (s.weErr c 0x49 p.set).endPass c p.id 0x49
    else
      let s := (s.addWear c (64 + a / 8) 0 hot).addWear c (64 + a / 8) 1 hot
      let s := s.updCore c (fun k => { k with
        swap := if Tbl.get 0 k.swap a = 1 then Tbl.set 0 k.swap a 2 else k.swap
        swapSet := k.swapSet.put a ⟨found.corr, found.refs, found.corr2, found.refs2, s.coreTemp c, s.now⟩ })
      (rec_ (s.bump R.we_WE_REPAIRS 1 c)).endPass c p.id 0
  else match s.arrayFill c a p.bank with
    | none =>
      ((s.updBank c a p.bank (fun k => { k with fixes := k.fixes.filter (fun f => f.job != p.id) })).weErr c 0x49 p.set).endPass c p.id 0x49
    | some ls =>
      let mine := (s.bank c a p.bank).fixes.filter (fun f => f.job == p.id)
      let badSpare := fun (f : Fix) => found.cells.any (fun x => x.array.toNat == a && x.col.toNat == 1024 + f.spare &&
        !inWindow (let l := ((ls.find? (fun y => y.2.1 == f.col && y.1 == x.row.toNat)).map (·.2.2)).getD (0, 0)
                   if x.neg then l.2 else l.1) x.cond.toNat)
      let s := (mine.filter (fun f => !badSpare f)).foldl (fun s f => s.fillColumn c a p.bank f.spare ls f.col) s
      let s := s.addWear c a p.bank hot
      let s := s.updBank c a p.bank (fun k => { k with
        fixes := (k.fixes.filter (fun f => !(f.job == p.id && badSpare f))).map (fun f => if f.job = p.id then { f with done := true } else f)
        remap := k.remap ++ (mine.filter badSpare).map (fun f => (f.spare, 0xFFFF)) })
      let s := (s.writeHealth c ((s.core c).physArray a p.bank) p.bank).syncArrays c
      (rec_ (s.bump R.we_WE_REPAIRS 1 c)).endPass c p.id 0

/-- Arrays of a running pass still wait for their program grants (R216). -/
def State.waitsGrant (s : State) (c : Nat) (p : Pass) : Bool :=
  p.kind.programs && s.power.waiting.any (fun g => g.core == c && g.id == p.id && g.holder == .cap)

/-- The end of a pass by its kind (R209, R213 to R218, R228). -/
def State.passEnd (s : State) (c : Nat) (p : Pass) (found : PassFindings) : State :=
  let hot := p.hot || s.coreHot c
  match p.kind with
  | .prog =>
    let s := (s.readBlocks p.img).passWear c p
    let s := p.arrays.foldl (fun s a => s.updBank c a p.bank BankSt.absorb) s
    let m := s.image p.img
    let prog := s.programImage c p.bank m.fmt (s.imgBlocks m)
    if !prog.2 then
      (((prog.1.writeHealths c p.bank p.arrays).weErr c 0x49 p.set).logCore 1 0x03 0x49 c 0xFFFF p.set).endPass c p.id 0x49
    else
      let r := prog.1.passDefects c p.bank hot found p.arrays
      let s := ((r.1.passMargins c p found.cells true).writeHealths c p.bank p.arrays).storeCorr c p.bank p.arrays found.corr found.refs
        (r.1.coreTemp c) r.1.now
      if r.2 != 0 then (s.weErr c r.2 p.set).endPass c p.id r.2
      else ((s.updSet c p.set (fun w => w.setSt p.bank 2)).bump R.we_WE_PASSES 1 c).endPass c p.id 0
  | .adopt =>
    let s := s.readBlocks p.img
    let m := s.image p.img
    let mine := found.cells.filter (fun x => p.arrays.contains x.array.toNat)
    let low := mine.any (fun x => match s.readMargin c p.bank x with
      | some y => decide (y.2 * 100 < (s.rd R.we_REFR_THR c * (100 * unitOf y.1) : Nat))
      | none => false)
    let s := s.passMargins c p mine false
    (match s.matchesImage c p.bank m.fmt (s.imgBlocks m) with
    | none => ((s.weErr c 0x49 p.set).logCore 1 0x03 0x49 c 0xFFFF p.set).endPass c p.id 0x49
    | some same =>
      if same && !low then
        ((s.storeCorr c p.bank p.arrays found.corr found.refs (s.coreTemp c) s.now).bump R.we_WE_PASSES 1 c).endPass c p.id 0
      else (s.weErr c 0x4A p.set).endPass c p.id 0x4A)
  | .refresh =>
    let r := (s.passWear c p).passDefects c p.bank hot found p.arrays
    let s := (r.1.passMargins c p found.cells true).writeHealths c p.bank p.arrays
    if r.2 != 0 then (s.weErr c r.2 p.set).endPass c p.id r.2
    else (s.bump R.we_WE_REFRESHES 1 c).endPass c p.id 0
  | .verify => (s.passMargins c p (found.cells.filter (fun x => p.arrays.contains x.array.toNat)) false).endPass c p.id 0
  | .repair => s.endRepair c p found
  | .replace => s.endRepair c p found

/-- A pass ends or fails (R209, R213 to R218): its effect on cells, health rows and spares; its bank state and its tally change
at the next publication edge. While arrays of the pass still wait for their grants, the arrays that hold one have been programmed: their grants
are released to the next ones, and the pass goes on (R216; DESIGN CHOICE, log entry 63). -/
def execPassEnd (core : BitVec 9) (id : Nat) (found : PassFindings) (s : State) : Out :=
  let c := core.toNat
  .next (match s.pass c id with
    | none => s
    | some p =>
      if !s.alive || !p.running || p.code.isSome then s
      else if s.waitsGrant c p then
        let s := s.release c id true
        s.admitHolder .cap s.power.waiting.length
      else s.passEnd c p found)

/-- The state change and the tally of an ended pass, at c 0 of a publication edge of the core (R200, R201, R209, R211). -/
def State.settlePass (s : State) (c : Nat) (p : Pass) : State :=
  match p.code with
  | none => s
  | some code =>
    let act := s.setBank c p.set true
    let s := match p.kind with
      | .prog => s.updSet c p.set (fun w =>
          if code = 0 then (w.setSt p.bank 3).setVer p.bank p.version else (w.setSt p.bank 0).setVer p.bank 0)
      | .adopt => s.updSet c p.set (fun w =>
          if code = 0 then (w.setSt p.bank (if p.bank = act then 4 else 3)).setVer p.bank p.version
          else (w.setSt p.bank 0).setVer p.bank 0)
      | _ => s
    let s := if code = 0 then
        match p.kind with
        | .prog => s.trailWset c p.set p.version 4 p.bank (s.wset c p.set).progGen
        | .adopt => s.trailWset c p.set p.version 4 p.bank (s.wset c p.set).progGen
        | .refresh => s.trailWset c p.set p.version 4 p.bank (s.wset c p.set).progGen
        | _ => s
      else s
    let s := if p.tallyEn && s.owner c == p.part then s.raise c p.tally 1 else s
    s.updCore c (fun k => { k with passes := k.passes.filter (fun q => q.id != p.id) })

/-- Why a flip is refused at E c 0: 3 set not VALID, 4 bank not READY, 5 version differs, 6 group busy; 0 when it is
accepted (R222, R232). A bank whose health record start-up rebuilt is not ready until it has been verified (R125). -/
def State.flipCode (s : State) (c : Nat) (r : FlipReq) : Nat :=
  let w := s.wset c r.set
  let b := s.setBank c r.set false
  let group := s.flipGroup c r.set
  if !w.valid then 3
  else if w.st b != 3 || group.any (fun a => (s.bank c a b).unverified) then 4
  else if w.ver b != r.version then 5
  else if (s.setsOn c group).any (fun e => e.1 != r.set && e.2.st b != 3 && e.2.st b != 0) then 6
  else 0

/-- E c 0 of a flip (R194, R222, R223): the flip is accepted or refused, every READY or ACTIVE bank of the group's sets reads
SWITCHING, and a refresh on the inactive bank of an accepted group is suspended. While another request waits, FLIP_RES reads 7 and names its
set (R221). -/
def State.beginFlip (s : State) (c : Nat) (r : FlipReq) : State :=
  let code := s.flipCode c r
  let group := s.flipGroup c r.set
  let b := s.setBank c r.set false
  let sw := fun (v : Nat) => if v = 3 ∨ v = 4 then 5 else v
  let s := (s.setsOn c group).foldl (fun s e => s.updSet c e.1 (fun w =>
    { w with befA := w.stA, befB := w.stB, stA := sw w.stA, stB := sw w.stB })) s
  let s := s.updCore c (fun k => { k with
    flip := some { req := r, arrays := group, accepted := code == 0 }
    passes := if code = 0 then k.passes.map (fun p =>
      if p.kind = .refresh && p.bank == b && p.running && p.code.isNone && p.arrays.any (fun a => group.contains a) then
        { p with running := false, suspended := true } else p) else k.passes })
  let s := s.trailWset c r.set r.version (if code = 0 then 1 else 2) b (s.wset c r.set).progGen
  let s := (s.wr R.we_FLIP_RES (if code = 0 then 2 else code) c).wr R.we_FLIP_WSID r.set c
  let s := (s.bump (if code = 0 then R.we_WE_FLIPS else R.we_WE_FLIP_REF) 1 c).syncPasses c
  match (s.core c).flipReqs with
  | [] => s
  | n :: _ => (s.wr R.we_FLIP_RES 7 c).wr R.we_FLIP_WSID n.set c

/-- The verified repairs of a bank take effect: their columns are remapped, and their poison ends (R121, R122). -/
def BankSt.settle (k : BankSt) : BankSt :=
  let now := k.fixes.filter (·.done)
  { now.foldl (fun k f => k.remapTo f.spare f.col) k with
    fixes := k.fixes.filter (fun f => !f.done), poisoned := k.poisoned.filter (fun u => !now.any (fun f => f.col == u)) }

/-- Verified repairs and replacements of the active banks of arrays take effect (R121). -/
def State.settleRepairs (s : State) (c : Nat) (arrays : List Nat) : State :=
  let s := arrays.foldl (fun s a =>
    let b := s.activeBank c a
    let s := if (s.bank c a b).fixes.any (·.done) then s.updBank c a b BankSt.settle else s
    if Tbl.get 0 (s.core c).swap a = 2 then s.takeSpare c a else s) s
  s.syncArrays c

/-- What the weight engine does at c 0 of a publication edge of a core (R200, R202, R209, R119, R121, R221): ended passes
settle, tallies that are due rise, repairs and retirements take effect, and the first flip request is taken. -/
def State.weightEdge (s : State) (c : Nat) : State :=
  let k := s.core c
  if k.passes.isEmpty && k.tallyDue.isEmpty && k.flipReqs.isEmpty && k.retireDue.isEmpty && k.banks.isEmpty && k.swap.isEmpty then s
  else
    let s := k.passes.foldl (fun s p => s.settlePass c p) s
    let s := k.tallyDue.foldl (fun s t => if s.owner c == t.2 then s.raise c t.1 1 else s) s
    let s := s.updCore c (fun k => { k with
      tallyDue := []
      retired := k.retireDue.foldl (fun m e => Marks.put m e.1 e.2) k.retired
      retireDue := [] })
    let s := (((s.settleRepairs c (List.range 64)).syncPasses c).syncArrays c).syncDue c
    match (s.core c).flip, (s.core c).flipReqs with
    | none, r :: rest =>
      let s := (s.updCore c (fun k => { k with flipReqs := rest })).beginFlip c r
      s
    | _, _ => s

/-- A bank that is flipped out keeps only the poison of columns whose repair is under way (R231). -/
def BankSt.flippedOut (k : BankSt) : BankSt :=
  { k with poisoned := k.poisoned.filter (fun u => k.fixes.any (fun f => f.col == u)) }

/-- E c 1,536 of a flip (R194, R254, R122): the other bank becomes ACTIVE, or the original one again; the tally rises. With an accepted flip the
repairs and replacements of the incoming bank take effect (R120, R122), a refresh suspended on a bank that is now inactive goes on (R223), the
incoming bank's stored set comes into force whole, and the epoch advances. -/
def State.endFlip (s : State) (c : Nat) (f : Flip) : State :=
  let sets := s.setsOn c f.arrays
  let s := if f.accepted then
      let s := sets.foldl (fun s e => s.updSet c e.1 (fun w =>
        let b := 1 - w.active
        let w := (if w.st b = 5 then w.setSt b 4 else w)
        let w := (if w.st (1 - b) = 5 then w.setSt (1 - b) 3 else w)
        { w with active := b })) s
      let s := f.arrays.foldl (fun s a => s.updBank c a (s.activeBank c a) BankSt.flippedOut) s
      let s := f.arrays.foldl (fun s a => if Tbl.get 0 (s.core c).swap a = 4 + (1 - s.activeBank c a) then s.takeSpare c a else s) s
      let s := s.updCore c (fun k => { k with
        activeB := f.arrays.foldl (fun m a => Marks.put m a (!Marks.has k.activeB a)) k.activeB })
      let s := s.updCore c (fun k => { k with passes := k.passes.map (fun p =>
        if p.suspended && p.code.isNone && p.arrays.any (fun a => f.arrays.contains a) && p.arrays.all (fun a => s.activeBank c a != p.bank) then
          { p with running := true, suspended := false } else p) })
      let s := (s.settleRepairs c f.arrays).syncPasses c
      (s.calFlip c f.arrays).syncDue c
    else
      sets.foldl (fun s e => s.updSet c e.1 (fun w =>
        { w with stA := if w.stA = 5 then w.befA else w.stA, stB := if w.stB = 5 then w.befB else w.stB })) s
  let s := match f.req.tally with
    | some t => s.raise c t 1
    | none => s
  s.updCore c (fun k => { k with flip := none })

/-- FLIP_SWITCH_END. -/
def execFlipSwitchEnd (core : BitVec 9) (s : State) : Out :=
  let c := core.toNat
  .next (match (s.core c).flip with
    | none => s
    | some f => s.endFlip c f)

/-- The read-verify path has read a row of a bank (R226, R227): the bank's margin is the least seen since it was programmed. A row in which
no cell of the bank is programmed is not among those it cycles through. -/
def execMarginSample (core : BitVec 9) (array : BitVec 6) (bank : BitVec 1) (reads : List CellRead) (s : State) : Out :=
  let c := core.toNat
  let a := array.toNat
  let b := bank.toNat
  .next (if s.alive then
    let mine := reads.filter (fun x => x.array == array && !s.cellBad c b x)
    ((s.takeMargin c a b (s.leastMargin c b mine) false false).syncArrays c).syncDue c
  else s)

/-- An inactive READY bank below the threshold is refreshed automatically if AUTO_REFR is 1 (R227, R228): the refresh pass is
queued, once for a flip group. -/
def execAutoRefresh (core : BitVec 9) (array : BitVec 6) (s : State) : Out :=
  let c := core.toNat
  let a := array.toNat
  .next (
    let b := 1 - s.activeBank c a
    match (s.setsOn c [a]).find? (fun e => e.2.st b == 3) with
    | none => s
    | some e =>
      if s.alive && s.flag R.we_AUTO_REFR c && s.belowThr c a b && decide (s.queuedPasses c < 16) &&
          !(s.core c).passes.any (fun p => p.kind == .refresh && p.bank == b && p.arrays.contains a && p.code.isNone) then
        s.addPass c (Pass.mk 0 .refresh e.1 b (e.2.ver b) (e.2.img b) 0 false (s.owner c) e.2.tenant
          (s.flipGroup c e.1) false false none false)
      else s)

/-- A repair of user columns of a bank: their free spares, at most 8 columns to a pass (R215). -/
def State.addRepair (s : State) (c a b : Nat) : List (Nat × Nat) → Nat → State
  | [], _ => s
  | _, 0 => s
  | x :: r, n + 1 =>
    let job := (s.core c).weNext
    let s := s.updBank c a b (fun k => { k with fixes := k.fixes ++ ((x :: r).take 8).map (fun y => ⟨y.1, y.2, job, false⟩) })
    let s := s.addPass c (Pass.mk 0 .repair 0 b 0 0 0 false (s.owner c) 0 [a] false false none false)
    s.addRepair c a b ((x :: r).drop 8) n

/-- What a defect of column positions, or of a row driver, does to a bank (R116 to R121): the user columns it affects, those that a defective
spare supplies among them, are repaired, or the array is replaced, or the octet retired (R119); a free spare becomes unusable. In the
active bank (`act`) the affected columns are poisoned from the next pulse. Refused at the wear ceiling, with code 0x46, the repair leaves them
poisoned until the bank is flipped out (R230, R231). -/
def State.defectIn (s : State) (c a b : Nat) (cols : List Nat) (driver act : Bool) : State :=
  let bk := s.bank c a b
  let us := if driver then List.range 1024 else ((cols.filterMap bk.serves).eraseDups).filter (fun u => !bk.fixes.any (fun f => f.col == u))
  let idle := (cols.filter (fun p => decide (1024 ≤ p) && decide (p < 1056) && (bk.serves p).isNone && !bk.remap.any (fun r => r.1 + 1024 == p))).eraseDups
  let refs := (bk.refBad ++ cols.filter (fun p => decide (1056 ≤ p))).eraseDups
  let s := s.updBank c a b (fun k => { k with
    poisoned := if act then (k.poisoned ++ us).eraseDups else k.poisoned
    remap := k.remap ++ idle.map (fun p => (p - 1024, 0xFFFF)), refBad := refs })
  let free := (s.bank c a b).freeSpares
  if driver || decide (2 < refs.length) || decide (free.length < us.length) then
    if Tbl.get 0 (s.core c).swap a != 0 then s
    else if s.spareTaken c (a / 8) then s.retireOctet c (a / 8)
    else if !s.spareWearOk c (a / 8) then (s.weErr c 0x46 0).wr R.we_CEIL_HIT 1 c
    else
      let s := s.updCore c (fun k => { k with swap := Tbl.set 0 k.swap a 1 })
      (s.addPass c (Pass.mk 0 .replace 0 b 0 0 0 false (s.owner c) 0 [a] false false none false)).logCore 2 0x01 0 c 0xFFFF a
  else if us.isEmpty then s
  else if !s.wearOk c b [a] (s.rd R.we_WE_CEIL c) then (s.weErr c 0x46 0).wr R.we_CEIL_HIT 1 c
  else s.addRepair c a b (free.zip us) us.length

/-- A defect in the active bank (R121): NEW_DEFECT, a deferred error, and what the defect does. -/
def State.defectActive (s : State) (c a : Nat) (cols : List Nat) (driver : Bool) : State :=
  ((s.defectEvent c).logCore 2 0x01 0 c 0xFFFF a).defectIn c a (s.activeBank c a) cols driver true

/-- The correction table of an octet is spoilt (R633): the octet's products are poisoned until a run rewrites it, and a run falls due with
cause 4. -/
def State.tableBad (s : State) (c o : Nat) : State :=
  (s.updCal c (fun k => { k with badTable := Marks.put k.badTable o true })).calDue c 4

/-- DEFECT_ACTIVE: in the cells of an array, or in the correction table of the array's octet. -/
def execDefectActive (core : BitVec 9) (array : BitVec 6) (cols : List (BitVec 11)) (driver table : Bool) (s : State) : Out :=
  .next (if !s.alive then s
  else if table then s.tableBad core.toNat (array.toNat / 8)
  else s.defectActive core.toNat array.toNat (cols.map (·.toNat)) driver)

/-- The column repair or replacement that runs on a position finishes its verify (R121, R122): the oldest one that runs there. -/
def execRepairDone (core : BitVec 9) (done : RepairFindings) (s : State) : Out :=
  let c := core.toNat
  .next (match (s.core c).passes.find? (fun p => (p.kind == .repair || p.kind == .replace) && p.running && p.code.isNone &&
      p.arrays == [done.array.toNat]) with
    | none => s
    | some p => if s.alive && !s.waitsGrant c p then s.endRepair c p done.found else s)

end Sys2Proof.Machine
end

