-- ==== Sys2Proof/Machine/Calibration.lean ====
section
/-! DEFINITION. Calibration runs (R238 to R249): their causes, start, end and faults. -/

namespace Sys2Proof.Machine

/-- Writing 1 to CAL_FORCE makes a run due with cause 3 (R243). -/
def execCalForce (core : BitVec 9) (s : State) : Out :=
  .next (if s.hostOk then s.calDue core.toNat 3 else s)

/-- CAL_AGE hours have passed since the most recent run: a run becomes due with cause 2 if CAL_AUTO is 1 (R243). -/
def execCalAgeExpiry (core : BitVec 9) (s : State) : Out :=
  let c := core.toNat
  .next (if s.alive && s.flag R.cal_CAL_AUTO c &&
      decide ((s.core c).cal.lastTime + 3600 * s.rd R.cal_CAL_AGE c ≤ s.now) then s.calDue c 2 else s)

/-- A product is loaded or pulsing on the core, its repeat included, or the matrix queue head waits for its octets or its grant (R245). -/
def State.matrixBusy (s : State) (c : Nat) : Bool :=
  (s.core c).products.any (fun p => decide (p.stage ≤ 2)) || decide (3 ≤ s.rd R.mx_HEAD_WAIT c)

/-- The cycle at which the core's slot begins in the tick in progress (R244, R247): c CAL_AT of the first tick of a frame that has a slot; in a
maintenance frame the moment itself (R647; DESIGN CHOICE, log entry 65); c 256 of any tick on a core of no enabled partition. -/
def State.slotAt (s : State) (c : Nat) : Option Nat :=
  match s.enabledOwner c with
  | none => some 256
  | some p => match (s.part p).frame with
    | some f => if f.maint then some s.cyc else if f.calSlot && f.admitTick == s.tickNum then some (s.rd R.cslot_CAL_AT p) else none
    | none => none

/-- The slot of the core begins now or later in this tick, and has not been tried: the cycle. -/
def State.slotOpen (s : State) (c : Nat) : Option Nat :=
  match s.slotAt c with
  | some at_ => if decide (s.cyc ≤ at_) && (s.core c).cal.tried != s.tickNum + 1 then some at_ else none
  | none => none

/-- A due run starts at c CAL_AT of a slot, unless the matrix engine is busy, an array of the core is SWITCHING or firmware is handing over: then
CAL_WAIT rises, once for the slot (R245, R248, R570). No run starts while HOLD is set (R609). The cycle offset stands at the slot's beginning after it. -/
def execCalRunStart (core : BitVec 9) (s : State) : Out :=
  let c := core.toNat
  .next (match s.slotOpen c with
    | none => s
    | some at_ =>
      if s.alive && s.flag R.cal_DUE c && !s.flag R.cal_RUNNING c && !(s.core c).cal.formed && !s.inReplay c then
        let s := (s.wr R.tick_CYCLE at_).updCal c (fun k => { k with tried := s.tickNum + 1 })
        if s.matrixBusy c || (s.core c).flip.isSome || s.rd R.mgmt_FW_STATE == 6 then s.bump R.cal_CAL_WAIT 1 c
        else if s.flag R.gov_HOLD then s
        else ((s.wr R.cal_RUNNING 1 c).skipWitness c true).updCal c (fun k => { k with
          formedT := s.coreTemp c, formedTime := s.now, startTick := s.tickNum, startCyc := at_ })
      else s)

/-- The faults that a run declares on one array (R241, R117, R118): the positions at fault, whose set keeps the values in force; whether its bank
fails; how many faults there are, and how many columns are at fault. -/
structure ArrayFaults where
  cols : List Nat
  bank : Bool
  faults : Nat
  columns : Nat
  deriving DecidableEq, Repr

/-- The faults of an array. A bank whose BG leaves its band has every user column at fault. -/
def State.arrayFaults (s : State) (c : Nat) (found : CalFindings) (a : Nat) : ArrayFaults :=
  let cols := found.cols.filter (fun m => m.array.toNat == a)
  let refs := found.refs.filter (fun m => m.array.toNat == a)
  let colF := (cols.filter measFault).map (·.pos.toNat)
  let conv := (convsOf (cols ++ refs) a).filter (fun v => convFault (cols ++ refs) a v (Tbl.get 0 (s.core c).cal.trims (a * 266 + v)))
  let convF := conv.flatMap (fun v => (List.range 4).map (4 * v + ·))
  let refF := (refs.filter (refFault (refMedian refs))).map (·.pos.toNat)
  let bankF := gainFault refs
  let user := if bankF then List.range 1024 else []
  { cols := (colF ++ convF ++ refF ++ user).eraseDups, bank := bankF
    faults := (colF ++ user).eraseDups.length + conv.length + refF.length
    columns := ((colF ++ convF ++ user).filter (· < 1056)).eraseDups.length }

/-- The target set of a run (R239, R241, R250): the columns measured sound, those of faulty positions left at the values in force, the bank gains
of the banks that did not fail, and on a core of no enabled partition the trims of sound converters (R240). -/
def State.calTarget (s : State) (c : Nat) (found : CalFindings) : State :=
  let arrays := (List.range 64).filter (fun a => found.cols.any (fun m => m.array.toNat == a) || found.refs.any (fun m => m.array.toNat == a))
  let fs := arrays.map (fun a => (a, s.arrayFaults c found a))
  let good := found.cols.filter (fun m => !fs.any (fun f => f.1 == m.array.toNat && f.2.cols.contains m.pos.toNat))
  let banks := fs.filter (fun f => !f.2.bank && found.refs.any (fun m => m.array.toNat == f.1))
  s.updCal c (fun k =>
    let frm := good.foldl (fun m x => Tbl.put m (calKey x.array.toNat (s.activeBank c x.array.toNat) x.pos.toNat)
      ((measGain x).toNat, measOffset x)) ([] : Tbl (Nat × Int))
    { k with
      formed := true, lastT := k.formedT, lastTime := k.formedTime, formedRun := k.runs + 1, runs := k.runs + 1
      formedCause := s.rd R.cal_DUE_CAUSE c, dueFrames := 0
      frm := frm.filter (fun e => (k.gain e.1, k.offs e.1) != e.2)
      bgF := banks.map (fun f => (2 * f.1 + s.activeBank c f.1, (bankGain (found.refs.filter (fun m => m.array.toNat == f.1))).toNat))
      trimsF := if (s.enabledOwner c).isSome then [] else arrays.foldl (fun m a =>
        ((convsOf (found.cols ++ found.refs) a)).foldl (fun m v =>
          let t := needTrim (found.cols ++ found.refs) a v (Tbl.get 0 k.trims (a * 266 + v))
          if convFault (found.cols ++ found.refs) a v (Tbl.get 0 k.trims (a * 266 + v)) || trimBad t then m
          else Tbl.put m (a * 266 + v) (trimByte t.1 t.2)) m) [] })

/-- The faults of an array are declared (R241): CAL_FAULT and CAL_COLFAULT, the columns at fault of its bank (R261), and the defects, which count
in both banks (R117). -/
def State.declareFaults (s : State) (c : Nat) (found : CalFindings) (a : Nat) : State :=
  let f := s.arrayFaults c found a
  if f.faults = 0 then s
  else
    let b := s.activeBank c a
    let s := (s.wr R.cal_CAL_FAULT 1 c).bump R.cal_CAL_COLFAULT f.faults c
    let s := s.updCal c (fun k => { k with faulty := Tbl.upd 0 k.faulty (2 * a + b) (· + f.columns) })
    let s := s.defectActive c a f.cols false
    s.defectIn c a (1 - b) (f.cols.filter (· < 1056)) false false

/-- The end of a run (R239 to R241, R250): it forms the target set, declares its faults and waits for its adoption. The pulses of a run do not
count in PULSES (DESIGN CHOICE, log entry 60). -/
def State.calFinish (s : State) (c : Nat) (found : CalFindings) : State :=
  let s' := s.calTarget c found
  let s' := ((s'.wr R.cal_RUNNING 0 c).wr R.cal_DUE 0 c).wr R.cal_DUE_CAUSE 0 c
  let s' := s'.bump R.cal_CAL_RUNS 1 c
  (List.range 64).foldl (fun t a => t.declareFaults c found a) s'

/-- A run ends (R239 to R241, R250). -/
def execCalRunEnd (core : BitVec 9) (found : CalFindings) (s : State) : Out :=
  .next (if s.alive && s.flag R.cal_RUNNING core.toNat then s.calFinish core.toNat found else s)

end Sys2Proof.Machine
end

