-- ==== Sys2Proof/Machine/Coding.lean ====
section
/-! DEFINITION. The coding of a link's flit stream: the flit's bytes, the PRBS31 scrambler, the RS(544,514) code over GF(2^10), and the
lanes that carry its symbols as PAM4 levels (R442 to R446; log entry 68). -/

namespace Sys2Proof.Machine

/-! ### The field GF(2^10) -/

/-- A symbol times alpha, a root of x^10 + x^3 + 1 (R443). -/
def gfTwice (a : Nat) : Nat := if a < 512 then 2 * a else Nat.xor (2 * a) 0x409

/-- The product of two symbols, by the bits of the second from bit `k - 1` down. -/
def gfMulBits (a b : Nat) : Nat → Nat
  | 0 => 0
  | k + 1 => Nat.xor (if b.testBit 0 then a else 0) (gfMulBits (gfTwice a) (b / 2) k)

/-- The product of two symbols. -/
def gfMul (a b : Nat) : Nat := gfMulBits a b 10

/-- A power of a symbol. -/
def gfPow (a : Nat) : Nat → Nat
  | 0 => 1
  | n + 1 => gfMul a (gfPow a n)

/-- The inverse of a symbol: its power 1,022. -/
def gfInv (a : Nat) : Nat := gfPow a 1022

/-- A polynomial, its constant term first, at a symbol. -/
def gfEval (p : List Nat) (x : Nat) : Nat := p.foldr (fun c v => Nat.xor c (gfMul x v)) 0

/-- The sum of two polynomials. -/
def gfAdd : List Nat → List Nat → List Nat
  | [], b => b
  | a, [] => a
  | x :: a, y :: b => Nat.xor x y :: gfAdd a b

/-- A polynomial times a symbol. -/
def gfScale (c : Nat) (p : List Nat) : List Nat := p.map (gfMul c)

/-- The product of two polynomials. -/
def gfPolyMul : List Nat → List Nat → List Nat
  | [], _ => []
  | a :: p, q => gfAdd (gfScale a q) (0 :: gfPolyMul p q)

/-! ### RS(544,514) (R443) -/

/-- The generator: the product of (x - alpha^i) for i = 0 to 29, its constant term first. -/
def rsGenerator : List Nat := (List.range 30).foldl (fun p i => gfPolyMul [gfPow 2 i, 1] p) [1]

/-- One message symbol enters the division by the generator: `r` holds the remainder, its highest coefficient first. -/
def rsDivide (g r : List Nat) (m : Nat) : List Nat :=
  let f := Nat.xor m (r.headD 0)
  gfAdd (r.drop 1 ++ [0]) (gfScale f g)

/-- The codeword of a message of 514 symbols: the message, then the 30 check symbols. Symbol 0 is the highest coefficient (log
entry 68). -/
def rsEncode (m : List Nat) : List Nat :=
  m ++ m.foldl (rsDivide ((rsGenerator.take 30).reverse)) (List.replicate 30 0)

/-- The 30 syndromes of a received word. -/
def rsSyndromes (w : List Nat) : List Nat := (List.range 30).map (fun i => gfEval w.reverse (gfPow 2 i))

/-- The state of the search for the error locator: the locator, the one before its last change of length, its discrepancy, the
number of errors and the steps since that change. -/
structure RsSearch where
  loc : List Nat
  old : List Nat
  disc : Nat
  errs : Nat
  gap : Nat

/-- One step of the Berlekamp-Massey search: syndrome `n` is met. -/
def RsSearch.next (syn : List Nat) (k : RsSearch) (n : Nat) : RsSearch :=
  let d := (List.range (min (n + 1) k.loc.length)).foldl (fun v i => Nat.xor v (gfMul (k.loc.getD i 0) (syn.getD (n - i) 0))) 0
  if d = 0 then { k with gap := k.gap + 1 }
  else
    let loc := gfAdd k.loc (gfScale (gfMul d (gfInv k.disc)) (List.replicate k.gap 0 ++ k.old))
    if 2 * k.errs ≤ n then { loc := loc, old := k.loc, disc := d, errs := n + 1 - k.errs, gap := 1 }
    else { k with loc := loc, gap := k.gap + 1 }

/-- The shortest error locator that the syndromes allow, and its length. -/
def rsLocator (syn : List Nat) : RsSearch :=
  (List.range 30).foldl (RsSearch.next syn) { loc := [1], old := [1], disc := 1, errs := 0, gap := 1 }

/-- The error value at the coefficient whose locator is `x`. -/
def rsValue (omega loc : List Nat) (x : Nat) : Nat :=
  let i := gfInv x
  let slope := (loc.zipIdx).foldl (fun v c => if c.2 % 2 = 1 then Nat.xor v (gfMul c.1 (gfPow i (c.2 - 1))) else v) 0
  gfMul x (gfMul (gfEval omega i) (gfInv slope))

/-- The decoder: the codeword within 15 symbols of a received word, and the indexes of the symbols it corrects; none where there is no
such codeword (R446). -/
def rsDecode (w : List Nat) : Option (List Nat × List Nat) :=
  let syn := rsSyndromes w
  if syn.all (· == 0) then some (w, [])
  else
    let k := rsLocator syn
    let omega := (gfPolyMul syn k.loc).take 30
    let hit := (List.range 544).filter (fun i => gfEval k.loc (gfInv (gfPow 2 (543 - i))) == 0)
    let v := (w.zipIdx).map (fun x => if hit.contains x.2 then Nat.xor x.1 (rsValue omega k.loc (gfPow 2 (543 - x.2))) else x.1)
    if 15 < k.errs ∨ hit.length ≠ k.errs ∨ (rsSyndromes v).any (· != 0) then none else some (v, hit)

/-! ### Bits and symbols -/

/-- The bits of a byte, bit 0 first (R18). -/
def byteBits (b : Byte) : List Bool := (List.range 8).map (fun i => b.toNat.testBit i)

/-- The number that a list of bits spells, its first bit the lowest. -/
def bitsNat : List Bool → Nat
  | [] => 0
  | b :: r => b2n b + 2 * bitsNat r

/-- A list cut into `n` pieces of `k`. -/
def cutInto {α : Type} (k : Nat) : Nat → List α → List (List α)
  | 0, _ => []
  | n + 1, l => l.take k :: cutInto k n (l.drop k)

/-- The 514 symbols of a message of 5,140 bits; the first bit of a symbol is its lowest (log entry 68). -/
def messageSymbols (bits : List Bool) : List Nat := (cutInto 10 514 bits).map bitsNat

/-- The bits of a run of symbols. -/
def symbolBits (l : List Nat) : List Bool := l.flatMap (fun x => (List.range 10).map (fun i => x.testBit i))

/-- One step of the PRBS31 sequence x^31 + x^28 + 1 (R443): the register after it, whose bit 0 is the bit put out. -/
def prbsNext (r : Nat) : Nat := (2 * r + b2n (Nat.testBit r 30 != Nat.testBit r 27)) % 2 ^ 31

/-- A run of bits scrambled, or unscrambled, from a register: the register after it and the bits. -/
def scramble (r : Nat) : List Bool → Nat × List Bool
  | [] => (r, [])
  | b :: l =>
    let t := prbsNext r
    let u := scramble t l
    (u.1, (b != t.testBit 0) :: u.2)

/-! ### Lanes (R442, R444) -/

/-- The PAM4 level of two bits, the more significant first: 00, 01, 11, 10 are -3, -1, 1, 3 (R442). -/
def pam4 (hi lo : Bool) : Int :=
  match hi, lo with
  | false, false => -3
  | false, true => -1
  | true, true => 1
  | true, false => 3

/-- The five PAM4 symbols of an RS symbol, consecutive on one lane, its most significant bits first (R442, R444). -/
def symbolLevels (x : Nat) : List Int := (List.range 5).map (fun i => pam4 (x.testBit (9 - 2 * i)) (x.testBit (8 - 2 * i)))

/-- The logical lane of codeword symbol `i` at a width (R444). -/
def laneOf (width i : Nat) : Nat := i % width

/-- The symbols of a codeword that a logical lane carries, in order. -/
def laneSymbols (width lane : Nat) (w : List Nat) : List Nat := ((w.zipIdx).filter (fun x => laneOf width x.2 == lane)).map (·.1)

/-- What the lanes carry of a run of codewords: for each logical lane its levels. -/
def laneLevels (width : Nat) (ws : List (List Nat)) : List (List Int) :=
  (List.range width).map (fun l => ws.flatMap (fun w => (laneSymbols width l w).flatMap symbolLevels))

/-- The alignment codeword at a width: the logical lane number in the first symbol of each lane, the rest a fixed pattern of which the
manual gives no bits, free values (R445). -/
def alignWord (width : Nat) : List Nat :=
  (List.range 544).map (fun i => if i < width then i else Config.freeValue 10 i % 1024)

/-- The physical lanes that a link of a width uses: the usable ones by R448. -/
def chosenLanes (usable width : Nat) : List Nat :=
  let l := (List.range 4).filter (fun i => usable.testBit i)
  if width = 4 then [0, 1, 2, 3]
  else if width = 2 then (if usable % 4 = 3 then [0, 1] else [2, 3])
  else l.take width

/-- The physical lane at which a logical lane is received: the chosen lanes ascending, or descending where the lane order is reversed
(R448, R449). -/
def physicalLane (usable width : Nat) (reversed : Bool) (lane : Nat) : Nat :=
  let l := chosenLanes usable width
  (if reversed then l.reverse else l).getD lane 0

/-! ### Flits as bytes -/

/-- The 252 bytes of a flit before its CRC (chapter 14, Flits). -/
def flitBody (f : Flit) : List Byte :=
  toLe 10 (f.seq.toNat + 2 ^ 16 * f.ack.toNat + 2 ^ 32 * f.type.toNat + 2 ^ 36 * b2n f.ackV + 2 ^ 37 * b2n f.nak +
    2 ^ 38 * b2n f.replay + 2 ^ 40 * f.cred.toNat + 2 ^ 56 * f.stamp.toNat) ++ f.payload

/-- The 256 bytes of a flit. -/
def flitBytes (f : Flit) : List Byte := flitBody f ++ toLe 4 (crc32c (flitBody f))

/-- A flit from its bytes, and whether its CRC matches. -/
def readFlit (b : List Byte) : Flit × Bool :=
  let h := leNat (b.take 10)
  ({ seq := BitVec.ofNat 16 h, ack := BitVec.ofNat 16 (h / 2 ^ 16), type := BitVec.ofNat 4 (h / 2 ^ 32), ackV := h.testBit 36
     nak := h.testBit 37, replay := h.testBit 38, cred := BitVec.ofNat 11 (h / 2 ^ 40), stamp := BitVec.ofNat 24 (h / 2 ^ 56)
     payload := (b.drop 10).take 242 },
   leNat (b.drop 252) == crc32c (b.take 252))

/-- A byte from its bits. -/
def bitsByte (l : List Bool) : Byte := BitVec.ofNat 8 (bitsNat l)

/-! ### The transmitter's coder and the receiver's -/

/-- Whole messages leave the coder as codewords. -/
def TxCoder.cut (k : TxCoder) : Nat → TxCoder
  | 0 => k
  | n + 1 =>
    if 5140 ≤ k.bits.length then
      ({ k with bits := k.bits.drop 5140, out := k.out ++ [rsEncode (messageSymbols (k.bits.take 5140))] } : TxCoder).cut n
    else k

/-- A run of bits enters the scrambled stream, and the messages it completes leave as codewords (R443). -/
def TxCoder.push (k : TxCoder) (bits : List Bool) : TxCoder :=
  let u := scramble k.reg bits
  ({ k with reg := u.1, bits := k.bits ++ u.2 } : TxCoder).cut 2

/-- A flit goes to the lanes: with the 10,277th since an alignment codeword the 1,004 zero bits follow, then the next alignment
codeword, at which the scrambler starts again at all ones (R443, R445). -/
def TxCoder.send (k : TxCoder) (width : Nat) (f : Flit) : TxCoder :=
  let k := ({ k with out := [] } : TxCoder).push ((flitBytes f).flatMap byteBits)
  if k.flits + 1 < 10277 then { k with flits := k.flits + 1, lanes := laneLevels width k.out }
  else
    let k := k.push (List.replicate 1004 false)
    { reg := 2 ^ 31 - 1, bits := [], flits := 0, out := k.out ++ [alignWord width]
      lanes := laneLevels width (k.out ++ [alignWord width]) }

/-- What a received codeword is to the decoder: the bits of its message, whether they are good, and the indexes of the symbols it
corrected. -/
def readWord (w : List Nat) : List Bool × Bool × List Nat :=
  match rsDecode w with
  | some (v, hit) => (symbolBits (v.take 514), true, hit)
  | none => (symbolBits (w.take 514), false, [])

/-- A codeword enters the receiver: its message is unscrambled, each bit marked by whether its codeword is good (R443, R446). -/
def RxCoder.take (k : RxCoder) (w : List Nat) : RxCoder :=
  let r := readWord w
  let u := scramble k.reg r.1
  { reg := u.1, bits := k.bits ++ u.2.map (fun b => (b, r.2.1)) }

/-- The next whole flit of the received bits: its fields, whether all its codeword bits are good and whether its CRC matches. -/
def RxCoder.flit (k : RxCoder) : Option (Flit × Bool × Bool) :=
  if k.bits.length < 2048 then none
  else
    let l := k.bits.take 2048
    let r := readFlit ((cutInto 8 256 (l.map (·.1))).map bitsByte)
    some (r.1, l.all (·.2), r.2)

end Sys2Proof.Machine
end

