-- ==== Sys2Proof/Machine/Messages.lean ====
section
/-! DEFINITION. The messages of the Ewebo Link and the commands that send them (chapter 15). A message command takes the message that the
world supplies, or with none the oldest message of its type that waits in this module. -/

namespace Sys2Proof.Machine

/-- A message command: the message is taken, and delivered here or passed on (R471). -/
def State.onMsg (s : State) (type : Nat) (m : Option LinkMsg) (go : LinkMsg → State → State) : State :=
  if s.alive then
    match s.takeMsg type m with
    | (s', some m) => if m.type.toNat = type then s'.deliverOr m (go m) else s
    | (_, none) => s
  else s

/-! ### WOPEN, WCLOSE, WSEND (R473, R476, R480) -/

/-- WIN of a WOPEN or WCLOSE. -/
def wopWin (cmd : Cmd) : Nat := cmd.fld 80 4

/-- The code under which a WOPEN is refused, 0 where it opens its window (R473). -/
def State.wopenCode (s : State) (c : Nat) (cmd : Cmd) : Nat :=
  let b := cmd.fld 84 11
  let n := cmd.fld 95 11 + 1
  if s.flag R.wdw_OPEN c (wopWin cmd) then 0x90
  else if 2048 < b + n || (List.range 16).any (fun v => s.flag R.wdw_OPEN c v &&
      decide (s.rd R.wdw_BASE c v < b + n) && decide (b < s.rd R.wdw_BASE c v + (s.rd R.wdw_LEN c v + 1))) then 0x91
  else if cmd.fld 106 12 = 0 ∨ n < cmd.fld 106 12 ∨ 2 ≤ cmd.fld 126 2 then 0x92
  else 0

/-- A window opened (R473). -/
def State.openWindow (s : State) (c : Nat) (cmd : Cmd) : State :=
  let v := wopWin cmd
  let s := ((((s.wr R.wdw_OPEN 1 c v).wr R.wdw_GEN ((s.rd R.wdw_GEN c v + 1) % 256) c v).wr R.wdw_AVAIL (cmd.fld 95 11 + 1) c v).wr
    R.wdw_BASE (cmd.fld 84 11) c v).wr R.wdw_LEN (cmd.fld 95 11) c v
  s.updWindow c v (fun _ => {
    outstanding := 0, grant := cmd.fld 106 12, release := cmd.fld 118 2, tally := cmd.fld 120 6, pmask := cmd.fld 192 64
    hkind := cmd.fld 126 2, hmod := cmd.fld 128 12, hst := cmd.fld 140 10, closing := false, ret := [0, 0, 0, 0] })

/-- A refused WOPEN (R473). -/
def State.refuseWindow (s : State) (c code : Nat) : State :=
  ((((s.wr R.msg_MSG_ERR code).wr R.msg_MSG_ERR_ST c).wr R.msg_MSG_ERR_VALID 1).bump R.core_XFER_ERR 1 c).logCore 2 0x0B code c

/-- WOPEN (R473). -/
def execWopen (core : BitVec 9) (cmd : Cmd) (s : State) : Out :=
  let c := core.toNat
  .next (s.engRun c .transfer cmd (fun s =>
    (if s.wopenCode c cmd = 0 then s.openWindow c cmd else s.refuseWindow c (s.wopenCode c cmd)).retire c .transfer cmd))

/-- WCLOSE: the window closes at c 64 of the owner's next publication edge (R480). -/
def execWclose (core : BitVec 9) (cmd : Cmd) (s : State) : Out :=
  let c := core.toNat
  .next (s.engRun c .transfer cmd (fun s =>
    (if s.flag R.wdw_OPEN c (wopWin cmd) then s.updWindow c (wopWin cmd) (fun w => { w with closing := true }) else s).retire
      c .transfer cmd))

/-- Granules of a WSEND. -/
def wsendLen (cmd : Cmd) : Nat := cmd.fld 97 16 + 1

/-- The credit entry that a WSEND uses, where it holds enough credits (R476). -/
def State.wsendEntry (s : State) (c : Nat) (cmd : Cmd) : Option CreditEnt :=
  match s.credit c (cmd.fld 113 12) (cmd.fld 125 9) (cmd.fld 134 4) with
  | some e => if ceilDiv (wsendLen cmd) 64 ≤ e.credits then some e else none
  | none => none

/-- WSEND: waits for its credits, takes them all and is placed in its store queue (R476). -/
def execWsend (core : BitVec 9) (cmd : Cmd) (s : State) : Out :=
  let c := core.toNat
  let q := cmd.fld 156 3
  .next (s.engRun c .transfer cmd (fun s => s.guarded c .transfer cmd [(cmd.fld 80 17, wsendLen cmd)] [] (fun s =>
    match s.wsendEntry c cmd with
    | none => s.wr R.core_T_STATE 3 c
    | some e =>
      if 32 ≤ (Tbl.get [] (s.core c).sqs q).length then s.wr R.core_T_STATE 3 c
      else (s.takeCredit c e.mod_ e.core e.win (ceilDiv (wsendLen cmd) 64)).placeSq c q 0xA3 cmd e.gen)))

/-! ### WWRITE and WACK (R476, R477) -/

/-- The data granules of a message with their poison bits (R468). -/
def msgData (m : LinkMsg) : List (List Byte × Bool) :=
  (m.data.zipIdx).map (fun x => (x.1, if x.2 < 64 then m.pmask.toNat.testBit x.2 else m.arg1.toNat.testBit 0))

/-- What a WWRITE, or the POISON note that replaces one, asks of a window. -/
def winReq (m : LinkMsg) (ngran : Nat) : WinReq where
  core := msgDstSt m
  win := msgWin m
  gen := m.arg0.toNat / 2 ^ 24
  part := msgPart m
  hkind := 0
  hmod := msgSrcMod m
  hst := msgSrcSt m
  woff := m.arg0.toNat % 2 ^ 17
  ngran := ngran
  units := 1

/-- The admission block that the lead of a spanning partition sends to a member under device-held credits, to station 561 (R514, log entry
48): the entries wait for the coming edge. -/
def State.takeBlock (s : State) (p : Nat) (m : LinkMsg) : State :=
  if s.span p && !s.isLead p then
    s.updPart p (fun q => { q with taken := (m.data.drop 1).map (fun b => ⟨0, 0, b, 0, 0⟩) })
  else s

/-- A WWRITE at its window: checked, landed or discarded, and acknowledged (R477). -/
def State.takeWrite (s : State) (m : LinkMsg) : State :=
  if 512 ≤ msgDstSt m then (if msgDstSt m = 561 then s.takeBlock (msgPart m) m else s)
  else
    let r := s.landWrite (winReq m m.data.length) (msgData m) (msgRaise m)
    r.1.sendMsg (r.1.mkMsg 0x02 0 (msgPart m) (msgDstSt m) (msgSrcMod m) (msgSrcSt m) (m.arg1.toNat % 65536 + 65536 * r.2))

/-- WWRITE. -/
def execWwrite (m : Option LinkMsg) (s : State) : Out := .next (s.onMsg 0x01 m (fun m s => s.takeWrite m))

/-- The command of a store queue that waits for a write's acknowledgement. -/
def awaits (num : Nat) (x : SqEnt) : Bool := x.read && !x.done && x.wait.any (fun w => w.1 == num)

/-- A WACK takes its write off the command that waits for it: a multicast marks the target unless the write landed clean, and a WSEND
is done with its last write (R351, R476, R486). -/
def SqEnt.acked (x : SqEnt) (num st tick : Nat) : SqEnt :=
  let i := ((x.wait.find? (fun w => w.1 == num)).map (·.2)).getD 0
  let left := x.wait.filter (fun w => w.1 != num)
  { x with wait := left, ackTick := tick, poisMask := if x.op = 0xA6 ∧ st ≠ 0 then x.poisMask ||| 2 ^ i else x.poisMask
           done := x.op == 0xA3 && left.isEmpty }

/-- A WACK at the sender (R476, R477): a write that did not land counts in WS_FAIL with a deferred error. -/
def State.takeAck (s : State) (c num st : Nat) : State :=
  match (List.range 8).find? (fun q => (s.findSq c q (awaits num)).isSome) with
  | none => s
  | some q =>
    let s := if 2 ≤ st then (s.bump R.wdw_WS_FAIL 1 c).logCore 2 0x0B 0 c 0xFFFF st else s
    (s.updSq c q (awaits num) (fun x => x.acked num st s.tickNum)).drainSq c q

/-- WACK. -/
def execWack (m : Option LinkMsg) (s : State) : Out :=
  .next (s.onMsg 0x02 m (fun m s =>
    if msgDstSt m < 512 then s.takeAck (msgDstSt m) (m.arg0.toNat % 65536) (m.arg0.toNat / 65536 % 256) else s))

/-! ### CGRANT (R474, R475, R481) -/

/-- A grant to a core's credit table (R475). -/
def State.grantCore (s : State) (c : Nat) (e : CreditEnt) (closed : Bool) : State :=
  let same := fun (x : CreditEnt) => x.mod_ == e.mod_ && x.core == e.core && x.win == e.win
  match s.credit c e.mod_ e.core e.win with
  | some old =>
    let upd := fun (x : CreditEnt) =>
      if same x then (if old.gen = e.gen then { x with credits := x.credits + e.credits } else e) else x
    (s.updCore c (fun k => { k with credits := if closed then k.credits.filter (fun x => !same x) else k.credits.map upd })).syncCred c
  | none =>
    if closed then s
    else if 64 ≤ (s.core c).credits.length then s.bump R.wdw_GRANT_DROP 1 c
    else (s.updCore c (fun k => { k with credits := k.credits ++ [e] })).syncCred c

/-- A grant to a circuit (R475, R481): slab credits where its root is a link port, window credits at its root router otherwise. -/
def State.grantCirc (s : State) (k gen n : Nat) (closed : Bool) : State :=
  if 536 ≤ s.circRoot k then s.updNet (fun x => { x with slabCred := Tbl.set 0 x.slabCred k (Tbl.get 0 x.slabCred k + n) })
  else if closed then s.updNet (fun x => { x with circCred := Tbl.set 0 x.circCred k 0, circGen := Tbl.set 0 x.circGen k 0 })
  else if Tbl.get 0 s.net.circGen k = gen then
    s.updNet (fun x => { x with circCred := Tbl.set 0 x.circCred k (Tbl.get 0 x.circCred k + n) })
  else s.updNet (fun x => { x with circCred := Tbl.set 0 x.circCred k n, circGen := Tbl.set 0 x.circGen k gen })

/-- A CGRANT where it arrives. -/
def State.takeGrant (s : State) (m : LinkMsg) : State :=
  let a := m.arg0.toNat
  let gen := bitsOf a 8 8
  let n := bitsOf a 16 12
  if msgRed m then
    if s.circValid (a % 256) && s.circOwner (a % 256) == msgPart m then s.grantCirc (a % 256) gen n (msgClosed m) else s
  else if msgDstSt m < 512 && (s.enabledOwner (msgDstSt m)).isSome then
    s.grantCore (msgDstSt m) ⟨msgSrcMod m, msgSrcSt m, a % 16, gen, n⟩ (msgClosed m)
  else s

/-- CGRANT. -/
def execCgrant (m : Option LinkMsg) (s : State) : Out := .next (s.onMsg 0x03 m (fun m s => s.takeGrant m))

/-- The message by which a window grants `n` credits to its holder (R474, R480). -/
def State.grantMsg (s : State) (c v n : Nat) (closed : Bool) : LinkMsg :=
  let w := s.window c v
  let p := (s.owner c).getD 0
  let gen := s.rd R.wdw_GEN c v
  if w.hkind = 0 then s.mkMsg 0x03 (if closed then 4 else 0) p c w.hmod w.hst (v + 256 * gen + 65536 * n)
  else s.mkMsg 0x03 (2 + (if closed then 4 else 0)) p c s.selfMod c (w.hst + 256 * gen + 65536 * n)

/-- c 64 of a publication edge: consumed units return (R478), and windows being closed close (R480). -/
def State.windowReturn (s : State) (c v : Nat) : State :=
  if !s.flag R.wdw_OPEN c v then s
  else
    let w := s.window c v
    let s := s.wr R.wdw_AVAIL (s.rd R.wdw_AVAIL c v + w.ret.headD 0) c v
    let s := s.updWindow c v (fun w => { w with ret := w.ret.drop 1 ++ [0] })
    if w.closing then
      let m := s.grantMsg c v 0 true
      (((s.sendMsg m).wr R.wdw_OPEN 0 c v).wr R.wdw_AVAIL 0 c v).updWindow c v (fun w => { w with outstanding := 0, closing := false })
    else s

/-- c 128 of a publication edge: the window grants what it may (R474). -/
def State.windowGrant (s : State) (c v : Nat) : State :=
  let g := min (s.window c v).grant (s.rd R.wdw_AVAIL c v)
  if !s.flag R.wdw_OPEN c v || g == 0 then s
  else
    let m := s.grantMsg c v g false
    ((s.wr R.wdw_AVAIL (s.rd R.wdw_AVAIL c v - g) c v).updWindow c v (fun w => { w with outstanding := w.outstanding + g })).sendMsg m

/-! ### RADD, SNAP, POISON -/

/-- The circuit input of a port's LCIRC entry with DIR 1 (R481): router, circuit, input. -/
def State.portInput (s : State) (n k p : Nat) : Option (Nat × Nat × Nat) :=
  if (List.range 16).any (fun i => s.flag R.port_VALID n i && s.flag R.port_DIR n i && s.rd R.port_LOCAL n i == k) &&
      s.circValid k && s.circOwner k == p && s.enabled p then
    (s.inputOf (edgeCluster n) k (portCode n)).map (fun i => (edgeCluster n, k, i))
  else none

/-- A slab that arrives at a port enters its circuit's input, if the buffer has room; otherwise nothing happens yet. -/
def State.slabIn (s : State) (n : Nat) (m : LinkMsg) (x : Slab) : Option State :=
  match s.portInput n (m.arg0.toNat % 256) (msgPart m) with
  | none => some s
  | some (r, k, i) => s.feedNode r k i x

/-- A message command whose message stays where it is while its slab finds no room. -/
def State.onSlab (s : State) (type : Nat) (m : Option LinkMsg) (go : LinkMsg → State → Option State) : State :=
  if s.alive then
    match s.takeMsg type m with
    | (s', some m) =>
      if m.type.toNat ≠ type then s
      else if msgDstMod m = s.selfMod then (go m s').getD s
      else (s'.bump R.msg_MSG_FWD).sendMsg m
    | (_, none) => s
  else s

/-- RADD: the slab enters the input of the bound circuit at the port's router (R481). -/
def execRadd (m : Option LinkMsg) (s : State) : Out :=
  .next (s.onSlab 0x04 m (fun m s =>
    if 536 ≤ msgDstSt m ∧ msgDstSt m < 560 then
      s.slabIn (msgDstSt m - 536) m (slabOf (bitsOf m.arg0.toNat 8 16) (bitsOf m.arg0.toNat 24 5) (msgData m))
    else some s))

/-- The bytes of a granule whose content is lost: a free value. -/
def State.lostGran (s : State) (i : Nat) : List Byte := toLe 64 (Config.freeValue 6 (s.fresh + i))

/-- A POISON note in place of a WWRITE (R486). -/
def State.takePoison (s : State) (m : LinkMsg) : State :=
  let n := m.arg1.toNat % 65536
  let q := winReq m n
  if msgDstSt m < 512 ∧ s.winStatus q = 0 then
    let s := ((s.landGrans q.core q.win q.woff ((List.range n).map (fun i => (s.lostGran i, true)))).drawn n).consume q.core q.win 1
    if msgRaise m then s.raise q.core (s.window q.core q.win).tally 1 else s
  else s

/-- A slab poisoned in every granule. -/
def lostSlab (seq grp : Nat) : Slab where
  seq := seq
  grp := grp
  hdr := true
  groups := List.replicate (grp + 1) { exp := 0, flag := 0, vals := List.replicate 32 0, bad := [true, true] }

/-- POISON. -/
def execPoison (m : Option LinkMsg) (s : State) : Out :=
  .next (s.onSlab 0x07 m (fun m s =>
    if msgRed m then
      if 536 ≤ msgDstSt m ∧ msgDstSt m < 560 then
        s.slabIn (msgDstSt m - 536) m (lostSlab (bitsOf m.arg0.toNat 8 16) (bitsOf m.arg0.toNat 24 5))
      else some s
    else some (s.takePoison m)))

/-- The tick number that a TICK, SNAP or PUBLISH carries. -/
def msgTick (m : LinkMsg) : Nat := m.arg0.toNat + 2 ^ 32 * (m.arg1.toNat % 65536)

/-- SNAP: the first copy is passed on by every other up port and, in time, latches a snapshot (R485). -/
def execSnap (port : BitVec 5) (m : Option LinkMsg) (s : State) : Out :=
  .next (if s.alive then
    match s.takeMsg 0x06 m with
    | (s', some m) =>
      let num := m.arg1.toNat / 65536 % 65536
      if m.type.toNat ≠ 0x06 then s
      else if s'.net.snaps.contains (msgSrcMod m, num) ∨ msgSrcMod m = s.selfMod then s'
      else
        let s := s'.updNet (fun k => { k with snaps := k.snaps ++ [(msgSrcMod m, num)] })
        let s := (List.range 24).foldl (fun s n => if n ≠ port.toNat ∧ s.portUp n then s.queueMsg n m else s) s
        if msgTick m ≤ s.tickNum then s.bump R.msg_SNAP_LATE
        else ({ s with snaps := s.snaps ++ [{ at_ := msgTick m, num := num }] } : State).wr R.snap_PENDING (min (s.snaps.length + 1) 7)
    | (_, none) => s
  else s)

/-! ### CSET, CSET_ACK (R482) -/

/-- The LCIRC entry of a port that matches: LOCAL, REMOTE, DIR and the partition of its circuit. -/
def State.lcirc (s : State) (n loc rem dir p : Nat) : Option Nat :=
  (List.range 16).find? (fun i => s.flag R.port_VALID n i && s.rd R.port_LOCAL n i == loc && s.rd R.port_REMOTE n i == rem &&
    s.rd R.port_DIR n i == dir && s.circValid loc && s.circOwner loc == p)

/-- An entry becomes confirmed; its receiving side grants 2 slab credits (R481, R482). -/
def State.confirm (s : State) (n i : Nat) : State :=
  if s.flag R.port_CONFIRMED n i then s
  else
    let s := s.wr R.port_CONFIRMED 1 n i
    if s.flag R.port_DIR n i then
      s.queueMsg n (s.mkMsg 0x03 2 (s.circOwner (s.rd R.port_LOCAL n i)) (536 + n) (64 * s.rd R.port_NBLK n + s.rd R.port_NPOS n)
        (536 + s.rd R.port_NPORT n) (s.rd R.port_REMOTE n i + 2 * 65536))
    else s

/-- A CSET at the partner: matched, confirmed and answered (R482). -/
def State.takeCset (s : State) (n : Nat) (m : LinkMsg) : State :=
  let a := m.arg0.toNat
  let hit := s.lcirc n (bitsOf a 8 8) (bitsOf a 0 8) (1 - bitsOf a 16 1) (msgPart m)
  let s := match hit with
    | some i => s.confirm n i
    | none => s
  s.queueMsg n (s.mkMsg 0x09 0 (msgPart m) (536 + n) (msgSrcMod m) (msgSrcSt m) a (b2n hit.isSome))

/-- CSET. -/
def execCset (m : Option LinkMsg) (s : State) : Out :=
  .next (s.onMsg 0x08 m (fun m s => if 536 ≤ msgDstSt m ∧ msgDstSt m < 560 then s.takeCset (msgDstSt m - 536) m else s))

/-- CSET_ACK: a match confirms the entry (R482). -/
def execCsetAck (m : Option LinkMsg) (s : State) : Out :=
  .next (s.onMsg 0x09 m (fun m s =>
    let a := m.arg0.toNat
    let n := msgDstSt m - 536
    if 536 ≤ msgDstSt m ∧ msgDstSt m < 560 ∧ m.arg1.toNat % 2 = 1 then
      match s.lcirc n (bitsOf a 0 8) (bitsOf a 8 8) (bitsOf a 16 1) (msgPart m) with
      | some i => s.confirm n i
      | none => s
    else s))

/-! ### COMMIT, NOTE_ACK, MGMT -/

/-- COMMIT: the note waits for the edge that the frame's PUBLISH names, and is acknowledged (R411, R483). -/
def execCommit (m : Option LinkMsg) (s : State) : Out :=
  .next (s.onMsg 0x0C m (fun m s =>
    let a := m.arg0.toNat
    let p := msgPart m
    if s.enabled p then
      let s := s.updPart p (fun q => { q with notesIn := q.notesIn ++ [(a % 65536, bitsOf a 16 3, m.arg1.toNat % 2 ^ 32, m.arg1.toNat / 2 ^ 32)] })
      s.sendMsg (s.mkMsg 0x0D 0 p (msgDstSt m) (msgSrcMod m) (msgSrcSt m) (a % 65536))
    else s))

/-- NOTE_ACK: one acknowledgement less is awaited (R411, R483). -/
def execNoteAck (m : Option LinkMsg) (s : State) : Out :=
  .next (s.onMsg 0x0D m (fun m s => s.updPart (msgPart m) (fun q => { q with frame := q.frame.map (fun f => { f with notes := f.notes - 1 }) })))

/-- The publication edge's first edge at which a named maintenance frame may lie (R648): a multiple of MAINT_EVERY at least 64 frames on. -/
def State.maintFrame (s : State) (p : Nat) : Nat :=
  let e := max (s.maintEvery p) 1
  ceilDiv ((s.part p).frames + 64) e * e

/-- What firmware does with a management message: results, go notes and refusals of a spanning enable (R540), overdue-item notes and the
frames named for them (R648; their codes 0x44 and 0x45 are the model's, log entry 28). -/
def State.takeMgmt (s : State) (m : LinkMsg) : State :=
  let a := m.arg0.toNat
  let p := bitsOf a 8 6
  let code := a % 256
  if code = 0x41 then
    s.updPart p (fun q => { q with members := q.members.filter (fun x => x.1 != msgSrcMod m) ++ [(msgSrcMod m, bitsOf a 16 8)] })
  else if code = 0x42 then s.updPart p (fun q => { q with goNote := some true })
  else if code = 0x43 then
    if s.pstate p = 1 ∨ s.pstate p = 2 then s.refuse p 0x70 (m.arg1.toNat % 2 ^ 32) else s
  else if code = 0x44 then
    if s.enabled p && s.isLead p && (s.part p).maintAt.isNone then
      let f := s.maintFrame p
      (s.peers p).foldl (fun s k => s.sendMsg (s.mkMsg 0x0E 0 0 561 k 561 (0x45 + 256 * p) f))
        (s.updPart p (fun q => { q with maintAt := some f }))
    else s
  else if code = 0x45 then
    let f := m.arg1.toNat % 2 ^ 32
    if !s.enabled p then s
    else if f ≤ (s.part p).frames then s.partFatal 0x11 0 p 561
    else s.updPart p (fun q => { q with maintAt := some f })
  else s

/-- MGMT: delivered to station 561 in order, or discarded where the management complex cannot take it (R483). -/
def execMgmt (m : Option LinkMsg) (taken : Bool) (s : State) : Out :=
  .next (s.onMsg 0x0E m (fun m s =>
    if taken then (s.updNet (fun k => { k with mgmt := k.mgmt ++ [m] })).takeMgmt m else s.bump R.msg_MGMT_DROP))

end Sys2Proof.Machine
end

