-- ==== Sys2Proof/Machine/Link.lean ====
section
/-! DEFINITION. The link ports: training, the flit layer with its acknowledgements and replays, the message stream and its protection, the
circuit switch (chapter 14, R470, R488 to R497). -/

namespace Sys2Proof.Machine

/-! ### Down, failed, handed back (R461, R486) -/

/-- A port's link layer as it starts: nothing sent, nothing expected, 1,024 credits (R455; log entry 30). -/
def PortSt.fresh (q : PortSt) : PortSt :=
  { q with queue := [], txBytes := [], txSeq := 0, replay := [], sent := [], again := [], txCred := 1024, rxExp := 0, rxAny := false
           gap := false, gapNaked := false, nak := false, credOwed := 0, rxBytes := [], wire := none, tx := {}, rx := {} }

/-- Every message in a port's replay buffer and send queue is handed back as undeliverable (R461). -/
def State.handBack (s : State) (n : Nat) : State :=
  let l := (s.port n).sent.map (·.1) ++ (s.port n).queue
  let s := (s.updPort n PortSt.fresh).bump R.port_LOST l.length n
  l.foldl (fun s m => s.undeliverable m) s

/-- A port leaves the up state: no lanes are in use, and the width in force is remembered. -/
def State.unUp (s : State) (n st : Nat) : State :=
  let w := s.rd R.port_WIDTH n
  let s := (s.wr R.port_STATE st n).wr R.port_WIDTH 0 n
  s.updPort n (fun q => { q with lastWidth := if w = 0 then q.lastWidth else w })

/-- A train or a malformed message fails the port (R447, R470). -/
def State.failPort (s : State) (n code : Nat) : State :=
  ((s.unUp n 6).wr R.port_FAIL_CODE code n).logErr 1 0x0B code 0xFF (536 + n)

/-- PORT_FAIL: a failed port hands its messages back (R461). -/
def execPortFail (port : BitVec 5) (s : State) : Out :=
  .next (if s.alive ∧ port.toNat < 24 ∧ s.rd R.port_STATE port.toNat = 6 then s.handBack port.toNat else s)

/-! ### Training (R447 to R453) -/

/-- No strap fault keeps the ports in state 0 (R492). -/
def State.strapsLet (s : State) : Bool := s.flag R.msg_STRAP_OK || s.flag R.msg_STRAP_POLICY

/-- A port may train: it exists, is enabled and not switched, and no strap fault keeps it down (R492). -/
def State.mayTrain (s : State) (n : Nat) : Bool :=
  s.alive && decide (n < 24) && s.flag R.port_ENABLE n && s.rd R.port_STATE n != 7 && s.strapsLet

/-- A train starts (R447): a quick one only where a full one has succeeded with this partner. The port reads STATE 1 until the train ends
(log entry 29). -/
def State.startTrain (s : State) (n : Nat) (full : Bool) : State :=
  let s := if (s.port n).trained then s.bump R.port_RETRAINS 1 n else s
  (s.unUp n 1).updPort n (fun q => { q with quick := !full && q.fullDone, trained := true })

/-- A write of ENABLE: setting it starts training; clearing it takes the port down and hands its messages back (R447, R467). -/
def State.portEnable (s : State) (n : Nat) (en : Bool) : State :=
  if en then
    if s.flag R.port_ENABLE n then s
    else
      let s := s.wr R.port_ENABLE 1 n
      if s.mayTrain n then s.startTrain n true else s
  else if !s.flag R.port_ENABLE n then s
  else
    let s := s.wr R.port_ENABLE 0 n
    if s.rd R.port_STATE n = 7 then s else (s.unUp n 0).handBack n

/-- PORT_ENABLE. -/
def execPortEnable (port : BitVec 5) (en : Bool) (s : State) : Out :=
  .next (if s.hostOk && decide (port.toNat < 24) then s.portEnable port.toNat en else s)

/-- 1 written to RETRAIN: a full train starts (R452). -/
def State.retrain (s : State) (n : Nat) : State := if s.mayTrain n then s.startTrain n true else s

/-- RETRAIN. -/
def execRetrain (port : BitVec 5) (s : State) : Out := .next (if s.hostOk then s.retrain port.toNat else s)

/-- PARTNER_TRAIN: the partner's training starts one here (R447). -/
def execPartnerTrain (port : BitVec 5) (full : Bool) (s : State) : Out :=
  .next (if s.mayTrain port.toNat && (s.rd R.port_STATE port.toNat == 0 || s.rd R.port_STATE port.toNat == 5) then
    s.startTrain port.toNat full else s)

/-- Protection is on: PROT_EN of an outer port (R495). -/
def State.protected (s : State) (n : Nat) : Bool := s.flag R.port_PROT_EN n && s.flag R.port_MODE n

/-- The one-way latency in cycles (R451, R495), the path delay rounded up to a cycle. -/
def State.oneWay (s : State) (n : Nat) : Nat :=
  ceilDiv (s.rd R.port_PATH_DELAY n) 8 + 80 + (if s.protected n then 48 else 0)

/-- The round trip in cycles (R451). -/
def State.roundTrip (s : State) (n : Nat) : Nat := 2 * s.oneWay n + 16

/-- The round-trip limit of a port's mode (R462). -/
def State.rtLimit (s : State) (n : Nat) : Nat := if s.flag R.port_MODE n then 8192 else 1024

/-- The width that usable lanes allow, 0 for none (R448). -/
def laneWidth (lanes : BitVec 4) (wmin : Nat) : Nat :=
  let l := lanes.toNat
  let best := if l = 15 then 4 else if l % 4 = 3 ∨ l / 4 = 3 then 2 else if l = 0 then 0 else 1
  if best < 2 ^ wmin then 0 else best

/-- The code under which a complete train fails, 0 where it succeeds (R448, R449, R451, R494). -/
def State.trainCode (s : State) (n : Nat) (f : TrainFindings) (full : Bool) : Nat :=
  if f.order.isNone then 0x8A
  else if laneWidth f.lanes (s.rd R.port_WIDTH_MIN n) = 0 then 0x85
  else if full ∧ s.rtLimit n < s.roundTrip n then 0x86
  else if !s.flag R.port_MODE n ∧ f.nblk.toNat ≠ s.rd R.msg_BLK then 0x87
  else if f.nblk.toNat = s.rd R.msg_BLK ∧ f.npos.toNat = s.rd R.msg_POS then 0x89
  else 0

/-- The neighbour register's value, laid out as port register 0x400. -/
def neighbourWord (f : TrainFindings) : Nat := f.npos.toNat + 256 * f.nblk.toNat + 65536 * f.nport.toNat

/-- What a train measured is shown (R448 to R451). -/
def State.showTrain (s : State) (n : Nat) (f : TrainFindings) (full : Bool) : State :=
  let s := (((s.wr R.port_LANES_OK f.lanes.toNat n).wr R.port_REVERSED (b2n (f.order == some true)) n).wr R.port_POL f.pol.toNat n).wr
    R.port_PATH_DELAY f.delay.toNat n
  let s := s.wr R.port_RT (s.roundTrip n) n
  if full then (f.taps.take 4).zipIdx.foldl (fun s x => s.wr R.port_TX_TAPS x.1.toNat n x.2) s else s

/-- The neighbour agreed in phase 8 (R494): a partner that differs from EXPECT is reported. -/
def State.showNeighbour (s : State) (n : Nat) (f : TrainFindings) : State :=
  let s := (((s.wr R.port_NPOS f.npos.toNat n).wr R.port_NBLK f.nblk.toNat n).wr R.port_NPORT f.nport.toNat n).wr R.port_NVALID 1 n
  if s.rd R.port_EXPECT n &&& 0x1F3F3F = neighbourWord f then s
  else (s.wr R.port_MISMATCH 1 n).logErr 1 0x0B 0 0xFF (536 + n) 0xFFFF (neighbourWord f)

/-- TRAIN_DONE: the checks of a complete train, and the link comes up with its width, path delay and neighbour; unacknowledged flits are
sent again, and messages that waited for the port leave (R447 to R453, R486, R494). -/
def execTrainDone (port : BitVec 5) (found : TrainFindings) (s : State) : Out :=
  let n := port.toNat
  .next (if !(s.mayTrain n && s.rd R.port_STATE n == 1) then s
  else
    let full := !(s.port n).quick
    let s := s.showTrain n found full
    let code := s.trainCode n found full
    if code ≠ 0 then s.failPort n code
    else
      let old := (s.port n).lastWidth
      let best := laneWidth found.lanes (s.rd R.port_WIDTH_MIN n)
      let w := if full then best else min best old
      let s := ((s.showNeighbour n found).wr R.port_STATE 5 n).wr R.port_WIDTH w n
      let s := if !full ∧ w < old then (s.bump R.port_DEGRADES 1 n).logErr 1 0x0B 0 0xFF (536 + n) else s
      let s := s.updPort n (fun q => {
        q with fullDone := full || (q.fullDone && q.partner == neighbourWord found), partner := neighbourWord found, lastWidth := w
               quick := false, again := q.replay.map (·.seq), tx := {}, rx := {} })
      s.flushNotes)

/-- TRAIN_FAIL: a phase passed its limit (codes 0x80 to 0x84), or the lane order fits neither way (R447, R449). -/
def execTrainFail (port : BitVec 5) (code : BitVec 8) (s : State) : Out :=
  .next (if s.mayTrain port.toNat && s.rd R.port_STATE port.toNat == 1 then s.failPort port.toNat code.toNat else s)

/-- TRAIN_RETRY: 100 ms after a failure a full train starts (R447). -/
def execTrainRetry (port : BitVec 5) (s : State) : Out :=
  .next (if s.mayTrain port.toNat && s.rd R.port_STATE port.toNat == 6 then s.startTrain port.toNat true else s)

/-- QUICK_TRAIN: an event of R452 on an up link starts a quick train, or a full one where none has succeeded with this partner. -/
def execQuickTrain (port : BitVec 5) (cause : BitVec 2) (s : State) : Out :=
  let n := port.toNat
  .next (if s.mayTrain n && s.portUp n && (cause != 2 || (s.port n).replay.any (fun h => decide (16 ≤ h.sends))) then
    (s.logErr 1 0x0B 0 0xFF (536 + n) 0xFFFF cause.toNat).startTrain n false
  else s)

/-- TIMING_EXCHANGE: PATH_DELAY moves towards the measured value by at most 1/16 ns (R450). -/
def execTimingExchange (port : BitVec 5) (delay : BitVec 20) (s : State) : Out :=
  let n := port.toNat
  .next (if s.alive && s.portUp n then
    let d := s.rd R.port_PATH_DELAY n
    let s := s.wr R.port_PATH_DELAY (if d < delay.toNat then d + 1 else if delay.toNat < d then d - 1 else d) n
    s.wr R.port_RT (s.roundTrip n) n
  else s)

/-! ### Messages as bytes (R468, R495) -/

/-- A message type that carries a partition and is protected on an outer port (R495). -/
def protType (t : Nat) : Bool := decide (1 ≤ t) && decide (t ≤ 0x0D) && t != 5 && t != 6

/-- Data granules a type may carry: least and most (R468, R470). -/
def granLimits (t : Nat) : Option (Nat × Nat) :=
  if t = 1 then some (1, 64) else if t = 4 then some (1, 65) else if t = 0x0E then some (0, 1)
  else if 1 ≤ t ∧ t ≤ 0x0D then some (0, 0) else none

/-- The nonce of a protected message: the salt, then the count (R495). -/
def nonce (salt count : Nat) : Nat := salt + 2 ^ 32 * count

/-- A message's bytes as a port sends them, protected where it must be (R468, R495). -/
def State.encodeMsg (s : State) (n : Nat) (m : LinkMsg) : List Byte :=
  let h := msgHeader m
  let body := h.drop 16 ++ m.data.flatten
  let q := s.port n
  if s.protected n && protType m.type.toNat then h.take 16 ++ Config.aesGcm q.key (nonce q.saltTx q.cntTx) (h.take 16) body
  else h.take 16 ++ body

/-- A message from a complete run of bytes. -/
def decodeMsg (bs : List Byte) : LinkMsg :=
  let f := fun o k => leNat ((bs.drop o).take k)
  { type := BitVec.ofNat 8 (f 0 1), flags := BitVec.ofNat 8 (f 1 1), srcMod := BitVec.ofNat 16 (f 4 2), srcSt := BitVec.ofNat 16 (f 6 2)
    dstMod := BitVec.ofNat 16 (f 8 2), dstSt := BitVec.ofNat 16 (f 10 2), arg0 := BitVec.ofNat 32 (f 12 4)
    pmask := BitVec.ofNat 64 (f 16 8), arg1 := BitVec.ofNat 64 (f 24 8)
    data := (List.range (f 2 2)).map (fun i => (bs.drop (32 + 64 * i)).take 64) }

/-! ### Transmission (R454, R455, R457, R464, R465) -/

/-- The slots of a port that a partition owns. -/
def State.slotsOf (s : State) (n p : Nat) : List Nat :=
  (List.range 64).filter (fun i => s.flag R.port_SLOT_VALID n i && s.rd R.port_SLOT_OWNER n i == p)

/-- The slot of a port that the present cycle lies in. -/
def State.slotNow (s : State) (n : Nat) : Option Nat :=
  (List.range 64).find? (fun i => s.flag R.port_SLOT_VALID n i && decide (s.rd R.port_SLOT_START n i ≤ s.cyc) &&
    decide (s.cyc < s.rd R.port_SLOT_START n i + s.rd R.port_SLOT_LEN n i))

/-- A message may leave now: its partition owns no slot on the port, or one of its slots is the present one or has been begun in this
tick (R464, R465). -/
def State.maySend (s : State) (n : Nat) (m : LinkMsg) : Bool :=
  let own := s.slotsOf n (msgPart m)
  !protType m.type.toNat || own.isEmpty || own.any (fun i => s.slotNow n == some i || (s.port n).begun.contains i)

/-- The message that leaves next: a tick mark, else within a slot its owner's, else the oldest that may leave (R464). -/
def State.pickMsg (s : State) (n : Nat) : Option LinkMsg :=
  let l := (s.port n).queue.filter (s.maySend n)
  match l.find? (fun m => m.type == 0x05) with
  | some m => some m
  | none =>
    match s.slotNow n with
    | none => l.head?
    | some i => (l.find? (fun m => protType m.type.toNat && msgPart m == s.rd R.port_SLOT_OWNER n i)).or l.head?

/-- One more message enters the byte stream: it is numbered by the flit that will carry its last byte. -/
def State.beginMsg (s : State) (n : Nat) (m : LinkMsg) : State :=
  let q := s.port n
  let bs := q.txBytes ++ s.encodeMsg n m
  let slot := (s.slotNow n).filter (fun i => protType m.type.toNat && s.rd R.port_SLOT_OWNER n i == msgPart m)
  (s.updPort n (fun q => { q with
    queue := q.queue.erase m
    txBytes := bs
    sent := q.sent ++ [(m, (q.txSeq + (bs.length - 1) / 242) % 65536)]
    begun := match slot with
      | some i => if q.begun.contains i then q.begun else q.begun ++ [i]
      | none => q.begun
    cntTx := if s.protected n && protType m.type.toNat then q.cntTx + 1 else q.cntTx })).bump R.port_MSG_TX 1 n

/-- Messages enter the byte stream until a payload is full or none may leave. -/
def State.fillPayload (s : State) (n : Nat) : Nat → State
  | 0 => s
  | k + 1 =>
    if 242 ≤ (s.port n).txBytes.length then s
    else match s.pickMsg n with
      | none => s
      | some m => (s.beginMsg n m).fillPayload n k

/-- TXSTAMP of now. -/
def State.stampNow (s : State) : Nat := (s.tickNum % 128) * 2 ^ 17 + s.cyc

/-- A flit leaves: it carries the acknowledgement, a NAK that is due and the credits owed, and goes to the lanes by way of the coder (R443,
R444). -/
def State.putWire (s : State) (n seq type : Nat) (replay : Bool) (stamp : Nat) (payload : List Byte) : State :=
  let q := s.port n
  let c := min q.credOwed 2047
  let f : Flit := { seq := BitVec.ofNat 16 seq, ack := BitVec.ofNat 16 (q.rxExp + 65535), type := BitVec.ofNat 4 type, ackV := q.rxAny
                    nak := q.nak, replay := replay, cred := BitVec.ofNat 11 c, stamp := BitVec.ofNat 24 stamp, payload := payload }
  s.updPort n (fun q => { q with wire := some f, tx := q.tx.send (s.rd R.port_WIDTH n) f, nak := false, credOwed := q.credOwed - c })

/-- A new data flit. -/
def State.sendNew (s : State) (n : Nat) : State :=
  let q := s.port n
  let pay := q.txBytes.take 242
  let pay := pay ++ List.replicate (242 - pay.length) 0
  let s := s.putWire n q.txSeq 1 false s.stampNow pay
  s.updPort n (fun q => { q with
    txBytes := q.txBytes.drop 242
    replay := q.replay ++ [⟨q.txSeq, pay, s.stampNow, 1⟩]
    txCred := q.txCred - 1
    txSeq := (q.txSeq + 1) % 65536 })

/-- A flit of the replay buffer is sent again, with its first TXSTAMP (R457). -/
def State.sendAgain (s : State) (n : Nat) (h : Held) : State :=
  let s := (s.putWire n h.seq 1 true h.stamp h.payload).bump R.port_REPLAYED 1 n
  s.updPort n (fun q => { q with
    again := q.again.drop 1
    replay := q.replay.map (fun x => if x.seq = h.seq then { x with sends := x.sends + 1 } else x) })

/-- A tick mark waits in a port's queue. -/
def State.tickWaits (s : State) (n : Nat) : Bool := (s.port n).queue.any (fun m => m.type == 0x05)

/-- FLIT_TX: a repeat while a replay runs (a waiting tick mark goes before it), else a data flit where there are bytes, a credit and room in
the replay buffer, else an idle flit (R454, R455, R457, R464). -/
def execFlitTx (port : BitVec 5) (s : State) : Out :=
  let n := port.toNat
  .next (if !(s.alive && s.portUp n) then s
  else
    let q := s.port n
    let room := decide (0 < q.txCred) && decide (q.replay.length < 4096)
    match (q.again.head?).bind (fun i => q.replay.find? (fun h => h.seq == i)) with
    | some h => if s.tickWaits n && room then (s.fillPayload n 64).sendNew n else s.sendAgain n h
    | none =>
      let t := if room then s.fillPayload n 64 else s
      if room && !(t.port n).txBytes.isEmpty then t.sendNew n
      else s.putWire n q.txSeq 0 false s.stampNow (List.replicate 242 0))

/-! ### Reception (R446, R455 to R458, R470, R497) -/

/-- The physical lane of a port on which a symbol of a codeword is received (R444, R448, R449). -/
def State.symbolLane (s : State) (n i : Nat) : Nat :=
  let w := s.rd R.port_WIDTH n
  physicalLane (s.rd R.port_LANES_OK n) w (s.flag R.port_REVERSED n) (laneOf w i)

/-- What the decoder counted (R446, R467): codewords, uncorrectable ones, and corrected symbols, in all and by physical lane. -/
def State.countFec (s : State) (n : Nat) (f : FecCounts) : State :=
  let left := (s.port n).cwLeft + f.words
  let s := (((s.bump R.port_FEC_CW (left / 2 ^ 20) n).bump R.port_FEC_UNCORR f.uncorr n).bump R.port_FEC_CORR
    f.corr.flatten.length n).updPort n (fun q => { q with cwLeft := left % 2 ^ 20 })
  (List.range 4).foldl (fun s l => s.bump R.port_LANE_SER (f.corr.flatten.filter (fun i => s.symbolLane n i == l)).length n l) s

/-- ACK, NAK and CRED of a good flit (R455, R457): acknowledged flits and the messages that end in them are forgotten; a NAK starts the
replay from ACK + 1, again if one runs. -/
def State.takeAckNak (s : State) (n : Nat) (f : Flit) : State :=
  s.updPort n (fun q =>
    let seqs := q.replay.map (·.seq)
    let acked := if f.ackV && seqs.contains f.ack.toNat then (seqs.takeWhile (· != f.ack.toNat)) ++ [f.ack.toNat] else []
    let replay := q.replay.filter (fun h => !acked.contains h.seq)
    { q with
      replay := replay
      sent := q.sent.filter (fun x => !acked.contains x.2)
      again := if f.nak then replay.map (·.seq) else q.again.filter (fun i => !acked.contains i)
      txCred := min 1024 (q.txCred + f.cred.toNat) })

/-- The age of a flit in cycles, modulo 128 ticks (R458). -/
def State.flitAge (s : State) (stamp : Nat) : Nat :=
  let w := 128 * s.period
  (((s.tickNum % 128) * s.period + s.cyc) + w - ((stamp / 2 ^ 17) * s.period + stamp % 2 ^ 17) % w) % w

/-- A message with the poison of its late granules (R458). -/
def lateMsg (m : LinkMsg) (late : List Bool) : LinkMsg :=
  let bad := (List.range m.data.length).filter (fun i => ((late.drop (32 + 64 * i)).take 64).any id)
  { m with
    pmask := BitVec.ofNat 64 (m.pmask.toNat ||| sumN ((bad.filter (· < 64)).map (2 ^ ·)))
    arg1 := if bad.contains 64 then BitVec.ofNat 64 (m.arg1.toNat ||| 1) else m.arg1 }

/-- A message received by a port: for this module it waits for its delivery, for another it is passed on (R471). -/
def State.routeIn (s : State) (n : Nat) (m : LinkMsg) : State :=
  let s := s.bump R.port_MSG_RX 1 n
  if m.type = 0x05 ∨ m.type = 0x06 then s.updNet (fun k => { k with inbox := k.inbox ++ [m] })
  else if msgDstMod m = s.selfMod then (s.traverse (536 + n) (msgDstSt m) 5 (msgGrans m)).updNet (fun k => { k with inbox := k.inbox ++ [m] })
  else
    let s := s.bump R.msg_MSG_FWD
    match s.routePort m with
    | some o => (s.traverse (536 + n) (536 + o) 5 (msgGrans m)).putPort o m
    | none => (s.bump R.msg_UNREACH).undeliverable m

/-- A complete message of a protected port is opened; one whose tag fails resets the key's owner (R495, R497). -/
def State.openMsg (s : State) (n : Nat) (bs : List Byte) : State × Option (List Byte) :=
  let q := s.port n
  let s := s.updPort n (fun q => { q with cntRx := q.cntRx + 1 })
  match Config.aesGcmOpen q.key (nonce q.saltRx q.cntRx) (bs.take 16) (bs.drop 16) with
  | some pl => (s, some (bs.take 16 ++ pl))
  | none => ((s.bump R.port_AUTH_FAIL 1 n).partFatal 0x0B 0 (s.rd R.port_KEY_OWNER n) (536 + n), none)

/-- A malformed message: the port fails with code 0x88 and hands its messages back (R470). -/
def State.badStream (s : State) (n : Nat) : State :=
  ((s.bump R.msg_MSG_BAD).failPort n 0x88).handBack n

/-- The bytes of a message as they are, or opened where the port protects its type. -/
def State.unseal (s : State) (n : Nat) (prot : Bool) (b : List Byte) : State × Option (List Byte) :=
  if prot then s.openMsg n b else (s, some b)

/-- The messages of a port's received bytes, one after another. -/
def State.parseRx (s : State) (n : Nat) : Nat → State
  | 0 => s
  | k + 1 =>
    let rx := (s.port n).rxBytes
    let bs := rx.map (·.1)
    let t := (bs.headD 0).toNat
    let g := leNat ((bs.drop 2).take 2)
    if rx.isEmpty then s
    else if t = 0 then s.updPort n (fun q => { q with rxBytes := [] })
    else if bs.length < 32 then s
    else match granLimits t with
      | none => s.badStream n
      | some (lo, hi) =>
        if g < lo ∨ hi < g then s.badStream n
        else
          let prot := s.protected n && protType t
          let len := 32 + 64 * g + (if prot then 16 else 0)
          if bs.length < len then s
          else
            let late := (rx.take len).map (·.2)
            let s := s.updPort n (fun q => { q with rxBytes := q.rxBytes.drop len })
            let r := s.unseal n prot (bs.take len)
            let s := match r.2 with
              | some b => r.1.routeIn n (lateMsg (decodeMsg b) late)
              | none => r.1
            s.parseRx n k

/-- An accepted data flit: its age decides whether its data is late, and its payload goes to the message layer (R455, R458). -/
def State.acceptFlit (s : State) (n : Nat) (f : Flit) : State :=
  let late := decide (s.oneWay n + s.rd R.port_SLACK n < s.flitAge f.stamp.toNat)
  let s := if late then (s.bump R.port_LATE_FLITS 1 n).logErr 2 0x0B 0 0xFF (536 + n) else s
  (s.updPort n (fun q => { q with
    rxExp := (q.rxExp + 1) % 65536, rxAny := true, gap := false, gapNaked := false, credOwed := q.credOwed + 1
    rxBytes := q.rxBytes ++ f.payload.map (fun b => (b, late)) })).parseRx n 16

/-- A flit at the receiver: it is accepted, discarded or answered by a NAK (R456). -/
def State.rxFlit (s : State) (n : Nat) (f : Flit) (cwGood crcGood : Bool) : State :=
  if !(cwGood && crcGood) then
    let s := if cwGood then s.bump R.port_CRC_ERR 1 n else s
    s.updPort n (fun q => { q with nak := true, gapNaked := q.gap && q.gapNaked, gap := true })
  else
    let s := s.takeAckNak n f
    let q := s.port n
    let d := (f.seq.toNat + 65536 - q.rxExp) % 65536
    if f.type ≠ 1 then s
    else if d = 0 then
      if q.gap ∧ !f.replay then (s.bump R.port_PROTO_ERR 1 n).updPort n (fun q => { q with nak := true })
      else s.acceptFlit n f
    else if d < 32768 then
      s.updPort n (fun q => { q with nak := q.nak || !q.gapNaked, gap := true, gapNaked := true })
    else s

/-- The whole flits of the received bits, one after another, while the link is up. -/
def State.rxFlits (s : State) (n : Nat) : Nat → State
  | 0 => s
  | k + 1 =>
    match (s.port n).rx.flit with
    | some (f, cw, crc) =>
      if s.portUp n then
        ((s.updPort n (fun q => { q with rx := { q.rx with bits := q.rx.bits.drop 2048 } })).rxFlit n f cw crc).rxFlits n k
      else s
    | none => s

/-- A data codeword at the receiver: decoded and counted, and the flits that it completes are received (R443 to R446). -/
def State.rxWord (s : State) (n : Nat) (w : List Nat) : State :=
  let r := readWord w
  ((s.countFec n ⟨1, b2n (!r.2.1), [r.2.2]⟩).updPort n (fun q => { q with rx := q.rx.take w })).rxFlits n 3

/-- FLIT_RX: a flit as the decoder hands it up, or the codewords themselves; an alignment codeword starts the scrambler again and drops the
bits before it (R443, R445, R456). -/
def execFlitRx (port : BitVec 5) (u : RxUnit) (cwGood : Bool) (crcGood : Bool) (fec : FecCounts) (s : State) : Out :=
  let n := port.toNat
  .next (if !(s.alive && s.portUp n) then s
  else match u with
    | .flit f => (s.countFec n fec).rxFlit n f cwGood crcGood
    | .word w => s.rxWord n (w.map (·.toNat))
    | .align => s.updPort n (fun q => { q with rx := {} }))

/-- REPLAY_TIMEOUT: the transmitter sends again as if it had received a NAK (R457). -/
def execReplayTimeout (port : BitVec 5) (s : State) : Out :=
  .next (if s.alive && s.portUp port.toNat then s.updPort port.toNat (fun q => { q with again := q.replay.map (·.seq) }) else s)

/-! ### The circuit switch and the outer-port key (R488, R496) -/

/-- Two ports are bound to each other (R488). -/
def State.bound (s : State) (a b : Nat) : Bool :=
  a != b && decide (a < 24) && decide (b < 24) && s.flag R.port_SW_EN a && s.rd R.port_PEER a == b &&
    s.flag R.port_SW_EN b && s.rd R.port_PEER b == a

/-- A write of SW_EN and PEER, refused while an enabled partition uses either port (R488). A binding that is made or removed takes
both ports down; a bound port reads STATE 7, unless a strap fault keeps every port in state 0 (R492). -/
def State.switchWrite (s : State) (a b : Nat) (en : Bool) : State :=
  let off := 0x2000408 + 0x10000 * a
  if s.portBusy a || s.portBusy b then s.hae 0x02 0 0 true 4 off (b + 256 * b2n en)
  else
    let old := s.rd R.port_PEER a
    let was := s.bound a old
    let s := (s.wr R.port_PEER b a).wr R.port_SW_EN (b2n en) a
    let s := if was && !s.bound a old then ((s.unUp a 0).handBack a).unUp old 0 else s
    if s.bound a b && s.strapsLet && !(was && old == b) then ((((s.unUp a 7).handBack a).unUp b 7).handBack b) else s

/-- SW_EN. -/
def execSwEn (port peer : BitVec 5) (en : Bool) (s : State) : Out :=
  .next (if s.hostOk && decide (port.toNat < 24) then s.switchWrite port.toNat peer.toNat en else s)

/-- The outer-port key and salts are loaded while the owner is DISABLED, and both message counts start at 0 (R496). -/
def State.keyLoad (s : State) (n : Nat) : State :=
  if s.pstate (s.rd R.port_KEY_OWNER n) ≠ 0 then s.hae 0x02 0 0 true 4 (0x2000440 + 0x10000 * n) 1
  else
    let key := (List.range 8).flatMap (fun i => toLe 4 (s.rd R.port_KEY n i))
    let tx := s.rd R.port_SALT_TX n
    let rx := s.rd R.port_SALT_RX n
    (s.wr R.port_KEY_LOADED 1 n).updPort n (fun q => { q with key := key, saltTx := tx, saltRx := rx, cntTx := 0, cntRx := 0 })

/-- KEY_LOAD. -/
def execKeyLoad (port : BitVec 5) (s : State) : Out :=
  .next (if s.hostOk && decide (port.toNat < 24) then s.keyLoad port.toNat else s)

end Sys2Proof.Machine
end

