-- ==== Sys2Proof/Machine/Boot.lean ====
section
/-! DEFINITION. Start-up, configuration, calibration write-back and attestation (chapter 18 with R124, R125, R258 to R262, R491 to R493,
R591, R596, R618, R625 and R679). -/

namespace Sys2Proof.Machine

/-! ### The configuration block (R555, R625) -/

/-- Bytes of a configuration copy as a number. -/
def cfgAt (b : List Byte) (off n : Nat) : Nat := leNat ((b.drop off).take n)

/-- A value lies in a range. -/
def within (lo hi v : Nat) : Bool := decide (lo ≤ v) && decide (v ≤ hi)

/-- The LIMITS of a copy lie in their registers' ranges (R625, R626). -/
def limitsOk (b : List Byte) : Bool :=
  within 400 3600 (cfgAt b 256 2) && within 2 16 (cfgAt b 258 1) && within 25 100 (cfgAt b 259 1) && within 0 3600 (cfgAt b 260 2) &&
    within 0 4095 (cfgAt b 262 2) && within 6200 6400 (cfgAt b 264 2) && within 4000 4700 (cfgAt b 266 2) &&
    within 760 1000 (cfgAt b 268 2) && within 250 4000 (cfgAt b 270 2) && within 2 20 (cfgAt b 275 1) && within 0 1 (cfgAt b 279 1) &&
    within 5 120 (cfgAt b 280 1)

/-- A copy has the form of R555: magic number, format, check word, a key slot, an aperture size of R506 and limits in range. -/
def cfgForm (b : List Byte) : Bool :=
  cfgAt b 0 4 == 0x4B584346 && cfgAt b 4 1 == 1 && cfgAt b 65532 4 == crc32c (b.take 65532) && decide (cfgAt b 5 1 ≤ 3) &&
    within 28 36 (cfgAt b 15 1) && limitsOk b

/-- CFG_FLOOR: the fuse positions blown at manufacture or by R556 (R553). -/
def State.cfgFloor (s : State) : Nat := max (Config.fuse 0 % 65) s.mgmt.blown

/-- A copy is valid (R555); `key` tells whether its key digest and its signature hold. -/
def State.cfgValid (s : State) (b : List Byte) (key : Bool) : Bool := cfgForm b && key && decide (s.cfgFloor ≤ cfgAt b 12 2)

/-- Copy A or B of the configuration block in the flash. -/
def State.cfgCopy (s : State) (second : Bool) : List Byte := s.mem.flash.bytes (if second then 0x20000 else 0x10000) 65536

/-- The copy that start-up uses, or the code under which it stops (R555, *Start-up and firmware errors*). -/
def State.pickCopy (s : State) (keyA keyB : Bool) : Bool × Nat :=
  let a := s.cfgCopy false
  let b := s.cfgCopy true
  match s.cfgValid a keyA, s.cfgValid b keyB with
  | true, true => (decide (cfgAt a 8 4 < cfgAt b 8 4), 0)
  | true, false => (false, 0)
  | false, true => (true, 0)
  | false, false =>
    if !cfgForm a && !cfgForm b then (false, 0xB1)
    else if !(cfgForm a && keyA) && !(cfgForm b && keyB) then (false, 0xB2) else (false, 0xB3)

/-- Sets every instance of a field over its first index. -/
def State.wrAll (s : State) (f : Fld) (v : Nat) : State := (List.range f.n1).foldl (fun s i => s.wr f v i) s

/-- The per-port and per-position "cfg" fields. -/
def State.loadTables (s : State) (b : List Byte) : State :=
  let s := (List.range 24).foldl (fun s n =>
    (((s.wr R.port_ENABLE (bitsOf (cfgAt b 40 3) n 1) n).wr R.port_MODE (bitsOf (cfgAt b 44 3) n 1) n).wr R.port_SLACK (cfgAt b (48 + 2 * n) 2) n).wr
      R.port_EXPECT (cfgAt b (512 + 4 * n) 4) n) s
  (List.range 64).foldl (fun s i =>
    let p := cfgAt b (608 + 2 * i) 2
    let k := cfgAt b (736 + 2 * i) 2
    (((s.wr R.msg_ROUTE_POS (bitsOf p 0 5) 0 i).wr R.msg_ALT_POS (bitsOf p 8 5) 0 i).wr R.msg_ROUTE_BLK (bitsOf k 0 5) 0 i).wr R.msg_ALT_BLK
      (bitsOf k 8 5) 0 i) s

/-- The "cfg" fields of the limits (R625). -/
def State.loadLimits (s : State) (b : List Byte) : State :=
  let s := (((s.wr R.gov_CEIL_W (cfgAt b 256 2)).wr R.gov_SLEW (cfgAt b 258 1)).wr R.gov_THROT_FRAC (cfgAt b 259 1)).wr R.gov_OTHER_RES
    (cfgAt b 260 2)
  let s := ((((s.wr R.gov_COOL_FAULT_W (cfgAt b 262 2)).wr R.gov_VIN_OV (cfgAt b 264 2)).wr R.gov_VIN_UV (cfgAt b 266 2)).wr R.gov_IIN_TRIP
    (cfgAt b 268 2)).wr R.gov_IREV_TRIP (cfgAt b 270 2)
  let s := (((s.wr R.therm_WARN_C (cfgAt b 272 1)).wr R.therm_THROT_C (cfgAt b 273 1)).wr R.therm_SHUT_C (cfgAt b 274 1)).wr R.therm_CROSS_MARGIN
    (cfgAt b 275 1)
  ((((s.wr R.therm_COOL_WARN_C (cfgAt b 276 1)).wr R.therm_COOL_SHUT_C (cfgAt b 277 1)).wr R.therm_PST_SHUT_C (cfgAt b 278 1)).wr R.therm_SD_MODE
    (cfgAt b 279 1)).wr R.therm_ORD_MAX_S (cfgAt b 280 1)

/-- Every "cfg" field takes its value from a copy, CFG_FLOOR from the fuses (R555, R558, R625). -/
def State.loadFields (s : State) (b : List Byte) (second : Bool) (floor : Nat) : State :=
  let s := ((s.loadTables b).loadLimits b).wr R.bar2_SIZE_LOG2 (cfgAt b 15 1)
  let s := ((s.wrAll R.we_WE_CEIL (cfgAt b 24 4)).wrAll R.we_WE_WARN (cfgAt b 28 4)).wr R.cap_CAP_W (cfgAt b 32 2)
  let s := (((s.wr R.tm_RATE_GBS (cfgAt b 34 1)).wrAll R.hbm_WARN_C (cfgAt b 36 1)).wrAll R.hbm_THROT_C (cfgAt b 37 1)).wrAll R.hbm_SHUT_C
    (cfgAt b 38 1)
  let s := (((s.wr R.msg_STRAP_POLICY (bitsOf (cfgAt b 14 1) 2 1)).wr R.msg_FIELD_EN (bitsOf (cfgAt b 14 1) 3 1)).wr R.mgmt_MIN_FW_SVN
    (cfgAt b 16 2)).wr R.mgmt_CFG_SVN (cfgAt b 12 2)
  let s := (s.wr R.mgmt_CFG_COPY (b2n second)).wr R.mgmt_CFG_FLOOR floor
  let s := s.updHost (fun h => { h with ideReq := bitOf (cfgAt b 14 1) 1 })
  s.updMgmt (fun m => { m with wbMin := cfgAt b 18 2, burn := bitOf (cfgAt b 14 1) 0, cfgDigest := Config.shake256 (b.take 61440) 64 })

/-- The configuration copy in force is loaded. -/
def State.loadConfig (s : State) (b : List Byte) (second : Bool) : State := s.loadFields b second s.cfgFloor

/-! ### Straps (R491 to R493) -/

/-- The straps as sampled: POS in bits 5:0, BLK in 11:6, TICKSRC in 12, STRAP_PAR in 13. -/
def State.sampleStraps (s : State) (v : Nat) : State :=
  ((((s.wr R.msg_POS (bitsOf v 0 6)).wr R.msg_BLK (bitsOf v 6 6)).wr R.msg_TICKSRC (bitsOf v 12 1)).wr R.msg_STRAP_PAR (bitsOf v 13 1)).updMgmt
    (fun m => { m with straps := v })

/-- A strap set at fault: even parity, or TICKSRC with a position other than 0 (R491). -/
def strapFault (v : Nat) : Bool := popcount v 14 % 2 == 0 || (bitOf v 12 && bitsOf v 0 6 != 0)

/-- The check of the straps, with the position that STRAP_POLICY 1 takes from the configuration (R492), and ROLE (R493). -/
def State.checkStraps (s : State) (b : List Byte) : State :=
  let s := if strapFault s.mgmt.straps then
      let s := (s.wr R.msg_STRAP_OK 0).logErr 1 0x0B 0 0xFF 561
      if s.flag R.msg_STRAP_POLICY then
        (((s.wr R.msg_POS (cfgAt b 20 1)).wr R.msg_BLK (cfgAt b 21 1)).wr R.msg_TICKSRC (cfgAt b 22 1)).wr R.msg_POS_SRC 1
      else s
    else s.wr R.msg_STRAP_OK 1
  let role := if !s.flag R.msg_TICKSRC then 0
    else if s.rd R.msg_POS == 0 && s.rd R.msg_BLK == 0 && s.flag R.msg_FIELD_EN then 2 else 1
  s.wr R.tick_ROLE role

/-! ### Gauge at start-up (R591, R592, R596) -/

/-- ENTRY_LO of an entry: channel, order, notch, pull current and lock, VALID. -/
def entryLo (chan order notch ow : Nat) (lock : Bool) : Nat :=
  chan + 256 * (order - 1) + 1024 * notch + 8192 * ow + 2 ^ 30 * b2n lock + 2 ^ 31

/-- The default channel table (R596): entry, ENTRY_LO and DELAY. -/
def defaultTable : List (Nat × Nat × Nat) :=
  [(0, entryLo 17 2 0 0 true, 10), (10, entryLo 17 2 0 0 true, 10), (1, entryLo 18 1 0 0 false, 10)] ++
    (List.range 8).map (fun i => (2 + i, entryLo (19 + i) 1 0 0 false, 10)) ++
    (List.range 8).map (fun i => (11 + i, entryLo (27 + i) 2 0 0 false, 10)) ++
    [(19, entryLo 42 1 0 0 false, 10), (20, entryLo 43 1 0 0 false, 10), (21, entryLo 46 1 0 0 false, 10), (22, entryLo 39 1 0 0 false, 10),
     (23, entryLo 40 1 0 0 false, 10)] ++
    [(32, entryLo 0 2 1 0 true, 20), (42, entryLo 0 2 1 0 true, 20), (33, entryLo 0 1 0 2 true, 150), (34, entryLo 0 1 0 4 true, 150)] ++
    (List.range 7).map (fun i => (35 + i, entryLo (1 + i) 1 1 0 false, 10)) ++
    (List.range 4).map (fun i => (43 + i, entryLo (35 + i) 1 0 0 false, 10)) ++
    [(47, entryLo 41 1 0 0 false, 10), (48, entryLo 44 1 0 0 false, 10), (49, entryLo 45 1 0 0 false, 10), (50, entryLo 47 1 0 0 false, 10),
     (51, entryLo 39 1 0 0 false, 10), (52, entryLo 40 1 0 0 false, 10), (53, entryLo 1 1 0 2 false, 150), (54, entryLo 1 1 0 4 false, 150)]

/-- A converter fails (R592); where its partner has failed too the device stops. -/
def State.convFail (s : State) (g : Nat) : State :=
  if bitOf (s.rd R.gauge_CONV_FAIL) g then s
  else
    let s := (s.wr R.gauge_CONV_FAIL (s.rd R.gauge_CONV_FAIL ||| 2 ^ g)).logErr 1 0x0E 0 0xFF 561 0xFFFF g
    let f := s.rd R.gauge_CONV_FAIL
    let s := if g < 2 then s.wr R.gauge_INTLV_DEG 1 else s
    if (bitOf f 0 && bitOf f 1) || (bitOf f 2 && bitOf f 3) then s.devFatal 0x0E 0 561 g else s

/-- A start-up trim is out of limits: offset beyond ±32 LSB, or gain beyond ±2 % (R592). -/
def gaugeTrimBad (ofs gain : Nat) : Bool := decide (512 < (sgn 16 ofs).natAbs) || decide (81 < (sgn 8 gain).natAbs)

/-- The converters are trimmed and started (R591, R596). -/
def State.startGauge (s : State) (trims : List (BitVec 2 × BitVec 16 × BitVec 8 × BitVec 8)) : State :=
  let s := defaultTable.foldl (fun s e => (s.wr R.gauge_ENTRY_LO e.2.1 0 e.1).wr R.gauge_ENTRY_HI e.2.2 0 e.1) s
  let s := trims.foldl (fun s t =>
    let g := t.1.toNat
    let s := ((s.wr R.gauge_OFS_TRIM t.2.1.toNat 0 g).wr R.gauge_GAIN_TRIM t.2.2.1.toNat 0 g).wr R.gauge_SU t.2.2.2.toNat 0 g
    if gaugeTrimBad t.2.1.toNat t.2.2.1.toNat then s.convFail g else s) s
  (s.wr R.gauge_RUN 1).wr R.gauge_POWERED 15

/-! ### The start sequence (R558 to R560) -/

/-- The identity section is valid (*Identity section*). -/
def State.idOk (s : State) : Bool :=
  let b := s.mem.flash.bytes 0x1000 61440
  cfgAt b 0 4 == 0x4B584944 && cfgAt b 4 1 == 1 && cfgAt b 61436 4 == crc32c (b.take 61436)

/-- Start-up stops with STAGE = 15 and a FAIL_CODE (R558). -/
def State.bootFail (s : State) (code : Nat) : State := (s.wr R.mgmt_STAGE 15).wr R.mgmt_FAIL_CODE code

/-- Steps 1: straps, identity and configuration. True when start-up goes on. -/
def State.bootConfig (s : State) (f : BootFindings) : State × Bool :=
  let s := (s.wr R.mgmt_STAGE 1).wr R.mgmt_ID_OK (b2n s.idOk)
  let bad := fun (b : List Byte) (key : Bool) => cfgForm b && !key
  let s := if bad (s.cfgCopy false) f.keyA then s.logErr 1 0x12 0 0xFF 561 0xFFFF 0 else s
  let s := if bad (s.cfgCopy true) f.keyB then s.logErr 1 0x12 0 0xFF 561 0xFFFF 1 else s
  let p := s.pickCopy f.keyA f.keyB
  if p.2 ≠ 0 then (s.bootFail p.2, false)
  else
    let b := s.cfgCopy p.1
    ((s.loadConfig b p.1).checkStraps b, true)

/-- Step 2: clock, sensors, limits, gauge; link ports that are enabled begin training. True when start-up goes on. -/
def State.bootClock (s : State) (f : BootFindings) : State × Bool :=
  let s := (s.wr R.mgmt_STAGE 2).startGauge f.trims
  let s := f.temps.foldl (fun s t => s.wr R.therm_SENS_T t.2.toNat 0 t.1.toNat) s
  let s := s.syncTmax
  let s := (List.range 24).foldl (fun s n => if s.flag R.port_ENABLE n && s.mayTrain n then s.startTrain n true else s) s
  if s.power.fatal then (s, false)
  else if 16 * (s.rd R.therm_SHUT_C : Int) - 160 ≤ sgn 16 (s.rd R.therm_TMAX) then (s.bootFail 0xB7, false) else (s, true)

/-- A valid entry of the HBM repair list (R551): bits 39:34 zero, and bits 63:40 the low 24 bits of the CRC-32C of the 5 bytes before them. -/
def repairOk (b : List Byte) : Bool := leNat (b.take 5) < 2 ^ 34 && leNat (b.drop 5) == crc32c (b.take 5) % 2 ^ 24

/-- Entry i of the HBM repair list. -/
def State.repairEntry (s : State) (i : Nat) : List Byte := s.mem.flash.bytes (0x30000 + 8 * i) 8

/-- The valid entries of the HBM repair list, by their places. -/
def State.repairs (s : State) : List Nat := (List.range 8190).filter (fun i => repairOk (s.repairEntry i))

/-- Step 3: the stacks are trained (R417, R418), with post-package repair of the valid entries of the repair list; how many of
them the limit of a bank skips is the stacks' own (R551). True when start-up goes on. -/
def State.bootHbm (s : State) (f : BootFindings) : State × Bool :=
  let s := (s.wr R.mgmt_STAGE 3).wr R.mgmt_PPR_SKIP (min f.pprSkip.toNat s.repairs.length)
  let s := (List.range 24).foldl (fun s n =>
    if f.dead.contains (BitVec.ofNat 5 n) then s.wr R.hbm_RATE 3 n
    else if f.slow.contains (BitVec.ofNat 5 n) then
      ((s.wr R.hbm_RATE 2 n).wr R.hbm_DEGRADED 1 n).logErr 1 0x0A 0 0xFF (512 + n) 0xFFFF n
    else s.wr R.hbm_RATE 1 n) s
  match (List.range 24).find? (fun n => s.rd R.hbm_RATE n = 3) with
  | some n => ((s.bootFail 0xB5).devFatal 0x0A 0 (512 + n) n, false)
  | none => (s, true)

/-- Step 4: the flash image (R547, R576), then WAIT_FW. -/
def State.bootImage (s : State) : State :=
  let s := s.updMem (fun m => { m with granary := m.flash.foldl (fun g c => g.wr (imageAddr c.1) c.2) m.granary })
  (s.wr R.mgmt_STAGE 5).msix 0 7

/-- RESET_RELEASE: the start sequence runs as far as it gets (R558). `straps` are the pins; `made` is what manufacture has written into the
flash, taken where the flash holds nothing yet. -/
def execResetRelease (straps : BitVec 14) (made : List (BitVec 26 × List Byte)) (found : BootFindings) (s : State) : Out :=
  .next (if s.power.stages && !s.power.latched && !s.mgmt.released then
    let s := if s.mem.flash = [] then s.updMem (fun m => { m with flash := made.foldl (fun f x => f.write x.1.toNat x.2) m.flash }) else s
    let s := ((s.updMgmt (fun m => { m with released := true })).wr R.mgmt_STAGE 0).sampleStraps straps.toNat
    let stop := fun n => found.hang == some n
    if stop 1 then s.wr R.mgmt_STAGE 1
    else
      let c := s.bootConfig found
      if !c.2 then c.1 else if stop 2 then c.1.wr R.mgmt_STAGE 2
      else
        let k := c.1.bootClock found
        if !k.2 then k.1 else if stop 3 then k.1.wr R.mgmt_STAGE 3
        else
          let h := k.1.bootHbm found
          if !h.2 then h.1 else if stop 4 then h.1.wr R.mgmt_STAGE 4 else h.1.bootImage
  else s)

/-- BOOT_STEP_TIMEOUT: the step in force passes its limit (R558): a flash that does not respond 0xB6, a clock that does not lock 0xB4, a
stack that does not train 0xB5. -/
def execBootStepTimeout (s : State) : Out :=
  let st := s.rd R.mgmt_STAGE
  .next (if s.alive && s.mgmt.released && decide (1 ≤ st) && decide (st ≤ 4) then
    let code := if st = 2 then 0xB4 else if st = 3 then 0xB5 else 0xB6
    let s := s.bootFail code
    if st = 3 then s.devFatal 0x0A 0 561 else s
  else s)

/-- MOD_RST_N: the device is reset; the cells, with the health rows among them, the flash, the fuses and the host's memory keep what they hold
(R85, R124, R553, R679). -/
def State.deviceReset (s : State) : State :=
  let s := s.flashCut
  { fresh := s.fresh, pending := s.pending
    mem := { flash := s.mem.flash, host := s.mem.host }
    power := { input := s.power.input, stages := s.power.stages, vbulk := s.power.vbulk }
    mgmt := { blown := s.mgmt.blown }
    host := { sent := s.host.sent }
    cores := s.cores.foldl (fun t e => Tbl.set {} t e.1 { cells := e.2.cells }) [] }

/-- MOD_RST_N. -/
def execModRstN (s : State) : Out := .next (if s.power.input && s.power.stages && !s.power.latched then s.deviceReset else s)

/-- PERST_N: the host interface is reset as by a link-down, and partitions run on (R525, R679). -/
def execPerstN (s : State) : Out := .next (if s.power.stages && !s.power.latched && s.host.linkUp then s.linkDown else s)

/-! ### Calibration write-back and the wear summary (R261, R262, R548, R549) -/

/-- A core's calibration record (R261). -/
def State.calRecord (s : State) (c seq : Nat) : List Byte :=
  let k := (s.core c).cal
  let bank := fun (b : Nat) => toLe 2 (Tbl.get 32768 k.bg b) ++ toLe 2 (usg 16 (Tbl.get 0 k.tMeas b)) ++ toLe 2 (min (Tbl.get 0 k.faulty b) 0xFFFF) ++
    toLe 2 0
  withCheck (toLe 4 0x4B58434C ++ [1, 0] ++ toLe 2 c ++ toLe 4 (s.rd R.cal_CAL_EPOCH c) ++ toLe 4 seq ++ toLe 4 k.runs ++ List.replicate 44 0 ++
    (List.range 64).flatMap (fun a => (List.range 266).map (fun v => BitVec.ofNat 8 (Tbl.get 0 k.trims (a * 266 + v))) ++ List.replicate 6 0 ++
      bank (2 * a) ++ bank (2 * a + 1)) ++ List.replicate 60 0)

/-- Some core's epoch has advanced since the last write-back (R262). -/
def State.epochsAhead (s : State) : Bool :=
  (List.range 512).any (fun c => s.rd R.cal_CAL_EPOCH c != (s.core c).cal.wrote)

/-- A section of the flash image holds poison: its write-back stops until device reset, as a corrected error (R633). Sections: 0 the
calibration slots, 1 the summary copies. -/
def State.checkImage (s : State) (sec lo n : Nat) : State :=
  if Marks.has s.mem.flashStop sec then s
  else if s.mem.granPoison.any (fun e => decide (imageAddr lo / 64 ≤ e.1) && decide (e.1 < (imageAddr lo + n) / 64)) then
    (s.updMem (fun m => { m with flashStop := Marks.put m.flashStop sec true })).logErr 1 0x12 0 0xFF 561 0xFFFF sec
  else s

/-- The calibration write-back of R262 begins. -/
def State.writeBack (s : State) : State :=
  let s := s.checkImage 0 0x100000 19005440
  if s.mem.flashOp.isSome || Marks.has s.mem.flashStop 0 then s
  else
    let n := nextCopy (s.sectionSeq 0x100000 18560 0x4B58434C 12) (s.sectionSeq 0xB00000 18560 0x4B58434C 12)
    let s := s.updMgmt (fun m => { m with wbSeq := n.2 % 2 ^ 32, wbTick := s.tickNum, wbTime := s.now, wbDue := false, wbAdvance := false })
    s.flashStart 0 (if n.1 then 0xB00000 else 0x100000) ((List.range 512).flatMap (fun c => s.calRecord c n.2))

/-- The part of a core's summary that describes physical array 9k + j, j = 8 the octet's spare, as its health records do (R549). -/
def State.summaryArray (s : State) (c k j : Nat) : List Byte :=
  let q := s.core c
  let pa := if j < 8 then 8 * k + j else 64 + k
  let bank := fun b => Tbl.get {} q.banks (2 * pa + b)
  let position := match q.posOf pa with
    | some a => a % 8
    | none => 8
  toLe 4 (bank 0).wear ++ toLe 4 (bank 1).wear ++ toLe 1 (q.statusOf pa) ++ toLe 1 position ++ toLe 1 (min (bank 0).verMargin 255) ++
    toLe 1 (min (bank 1).verMargin 255) ++ toLe 4 0 ++ remapBytes (bank 0) ++ remapBytes (bank 1)

/-- The body of a core's summary record, bytes 64 to 10,431 (R549). -/
def State.summaryBody (s : State) (c : Nat) : List Byte :=
  (List.range 8).flatMap (fun k => (List.range 9).flatMap (fun j => s.summaryArray c k j))

/-- A core's summary record (R549). -/
def State.summaryRecord (s : State) (c seq : Nat) : List Byte :=
  withCheck (toLe 4 0x4B585753 ++ [1, 0] ++ toLe 2 c ++ toLe 4 seq ++ List.replicate 52 0 ++ s.summaryBody c ++ List.replicate 60 0)

/-- The offsets of the summary copies. -/
def sumOff (second : Bool) : Nat := if second then 0x1B00000 else 0x1500000

/-- Some health record differs from the newer valid summary, or there is none (R548). -/
def State.healthChanged (s : State) : Bool :=
  match s.sectionSeq (sumOff false) 10496 0x4B585753 8, s.sectionSeq (sumOff true) 10496 0x4B585753 8 with
  | none, none => true
  | a, b =>
    let newer := decide (a.getD 0 < b.getD 0)
    (List.range 512).any (fun c => s.mem.flash.bytes (sumOff newer + 10496 * c + 64) 10368 != s.summaryBody c)

/-- The summary write of R548 begins, if any health record has changed. -/
def State.writeSummary (s : State) : State :=
  let s := s.checkImage 1 0x1500000 10747904
  if s.mem.flashOp.isSome || Marks.has s.mem.flashStop 1 || !s.healthChanged then s
  else
    let n := nextCopy (s.sectionSeq (sumOff false) 10496 0x4B585753 8) (s.sectionSeq (sumOff true) 10496 0x4B585753 8)
    let s := s.updMgmt (fun m => { m with sumSeq := n.2 % 2 ^ 32, sumTick := s.tickNum })
    s.flashStart 1 (sumOff n.1) ((List.range 512).flatMap (fun c => s.summaryRecord c n.2))

/-- A row with 3 uncorrectable errors is appended to the HBM repair list when firmware runs and the flash is free (R548, R551): in the first place
that holds no valid entry; a row that the list holds, or one for which there is no place, is not (DESIGN CHOICE, log entry 72). -/
def State.repairEdge (s : State) : State :=
  match s.mgmt.repairDue with
  | [] => s
  | r :: rest =>
    if s.mem.flashOp.isSome || !s.fwRuns || s.power.orderly then s
    else
      let s := s.updMgmt (fun m => { m with repairDue := rest })
      let at_ := s.repairs
      match (List.range 8190).find? (fun i => !at_.contains i) with
      | some i => if at_.any (fun i => s.repairEntry i == toLe 5 r ++ toLe 3 (crc32c (toLe 5 r))) then s
          else s.flashStart 4 (0x30000 + 8 * i) (toLe 5 r ++ toLe 3 (crc32c (toLe 5 r)))
      | none => s

/-- CAL_WRITEBACK: an epoch has advanced after CAL_WB_MIN minutes had passed since the last write-back, or a pending swap asks for it
(R262, R569). An orderly stop makes its own (R621). -/
def execCalWriteback (s : State) : Out :=
  .next (if s.alive && s.fwRuns && !s.power.orderly && s.epochsAhead && (s.mgmt.wbDue || s.mgmt.wbAdvance) then s.writeBack else s)

/-- The staged configuration block is written to the copy that is not in force (R557): it waits for a flash write in progress and for firmware
to run. -/
def State.writeConfig (s : State) : State :=
  if s.mem.flashOp.isSome || !s.fwRuns then s.updMgmt (fun m => { m with cfgWait := true })
  else (s.updMgmt (fun m => { m with cfgWait := false })).flashStart 3 (if s.flag R.mgmt_CFG_COPY then 0x10000 else 0x20000)
    (s.mem.cfgStage.bytes 0 65536)

/-- Firmware that begins to run, or to run again, writes a configuration block that waited for it (R557, R565, R570). -/
def State.flashGoOn (s : State) : State := if s.mgmt.cfgWait then s.writeConfig else s

/-- FLASH_WRITE_DONE: the write in progress is complete and verified (R548); a calibration slot is followed by the summary, and a write that
waited begins. -/
def execFlashWriteDone (s : State) : Out :=
  .next (match s.mem.flashOp with
    | none => s
    | some op =>
      if !s.alive then s
      else
        let s := s.flashEnd
        let s := if op.kind = 0 then (List.range 512).foldl (fun t c => t.updCal c (fun k => { k with wrote := s.rd R.cal_CAL_EPOCH c })) s else s
        if s.power.orderly || !s.fwRuns then s
        else if s.mgmt.cfgWait then s.writeConfig
        else if op.kind = 0 then s.writeSummary else s)

/-- 1 written to CFG_GO: the staged block is verified under R555, with a CFG_SEQ above that of both copies, and written (R557); `key` is the outcome of its
key digest and signature. -/
def State.cfgGo (s : State) (key : Bool) : State :=
  let b := s.mem.cfgStage.bytes 0 65536
  let old := max (cfgAt (s.cfgCopy false) 8 4) (cfgAt (s.cfgCopy true) 8 4)
  if s.cfgValid b key && decide (old < cfgAt b 8 4) then s.writeConfig else s.wr R.mgmt_FW_RESULT 0xAC

/-- CFG_GO. -/
def execCfgGo (key : Bool) (s : State) : Out := .next (if s.hostOk then s.cfgGo key else s)

/-! ### Attestation (R573 to R575) -/

/-- The DIGEST of an image header, or zeros. -/
def headDigest (h : List Byte) : List Byte := if h = [] then List.replicate 64 0 else (h.drop 512).take 64

/-- The measurements, by index (R574). -/
def State.measurements (s : State) : List (Nat × List Byte) :=
  let st := s.rd R.mgmt_FW_STATE
  let staged := if st = 4 ∨ st = 5 ∨ (st = 6 ∧ s.mgmt.handPhase < 2) then s.mgmt.stageHead else []
  [(1, toLe 64 (Config.fuse 1)), (2, s.mgmt.cfgDigest), (3, headDigest s.mgmt.runHead), (4, headDigest staged),
   (5, Config.shake256 (s.mem.flash.bytes 0x1000 61440) 64),
   (6, Config.shake256 (toLe 1 s.cfgFloor ++ toLe 1 (Config.fuse 2 % 16) ++ toLe 4 0x2304B001 ++ toLe 2 s.mgmt.straps) 64)] ++
  (List.range 64).map (fun p => (16 + p, if s.pstate p = 3 then
      Config.shake256 (toLe 4 (s.tenant p) ++ (List.range 32).flatMap (fun i => toLe 1 (s.main p (68 + i) 1))) 64
    else List.replicate 64 0))

/-- SPDM_REQUEST: the DOE mailbox hands a request to the responder of the verification unit (R573, R574); `secured` are the streams that its
IDE key management has made secure, none for the link stream. With ID_OK at 0 every request gets an Unspecified error (R575). -/
def execSpdmRequest (req : List Byte) (secured : List (Option (BitVec 7))) (s : State) : Out :=
  .next (if s.alive && s.host.linkUp && decide (2 ≤ s.rd R.mgmt_STAGE) then
    let answer := fun (s : State) (a : List Byte) => s.updHost (fun h => { h with answer := a, answerBad := false, answerUr := false })
    if !s.flag R.mgmt_ID_OK then answer s [0x14, 0x7F, 0x05, 0x00]
    else
      let s := answer s (Config.spdmAnswer req s.measurements)
      (secured.foldl (fun s x => match x with
        | none => (s.wr R.host_IDE_UP 1).updHost (fun h => { h with linkSecure := true })
        | some f => s.updHost (fun h => { h with fnSecure := Marks.put h.fnSecure f.toNat true })) s).drainHeld
  else s)

end Sys2Proof.Machine
end

