-- ==== Sys2Proof/Machine/Control.lean ====
section
/-! DEFINITION. The opcodes of every engine, tallies written by the host, and the patrol scrub (chapter 8). -/

namespace Sys2Proof.Machine

/-- NOP waits as its header states, then retires (R273). -/
def execNop (core : BitVec 9) (e : Engine) (cmd : Cmd) (s : State) : Out :=
  let c := core.toNat
  .next (s.engRun c e cmd (fun s => if s.drained c e then s.retire c e cmd else s))

/-- EOFR retires after every earlier command, and the engine stops fetching until the next admission (R271). -/
def execEofr (core : BitVec 9) (e : Engine) (cmd : Cmd) (s : State) : Out :=
  let c := core.toNat
  .next (s.engRun c e cmd (fun s =>
    if s.drained c e then
      (((s.countRetired c e).signal c cmd).setEng c e 4).updCore c
        (fun k => { k with headRead := Marks.put k.headRead e.num false })
    else s))

/-- JUMP retires, and the engine goes on at TARGET (R273). -/
def execJump (core : BitVec 9) (e : Engine) (cmd : Cmd) (s : State) : Out :=
  let c := core.toNat
  .next (s.engRun c e cmd (fun s =>
    if s.drained c e then ((s.countRetired c e).signal c cmd).goTo c e (cmd.fld 80 18) else s))

/-- QWAIT retires when the named count has reached COUNT; one that names no queue is an unknown opcode (R273). -/
def execQwait (core : BitVec 9) (e : Engine) (cmd : Cmd) (s : State) : Out :=
  let c := core.toNat
  .next (match s.qcount c cmd with
    | none => if s.runnable c e then (s.readHead c e cmd).unknown c e else s
    | some n => s.engRun c e cmd (fun s =>
        if !reached n (cmd.fld 96 16) then (s.setEng c e 3).headWait c e 2
        else if s.drained c e then s.retire c e cmd else s))

/-- An unknown or reserved opcode stops the engine and resets the partition with code 0x10 (R266). -/
def execUnknownOpcode (core : BitVec 9) (e : Engine) (cmd : Cmd) (s : State) : Out :=
  .next (if s.runnable core.toNat e then (s.readHead core.toNat e cmd).unknown core.toNat e else s)

/-- A host write to a tally sets it, or is discarded and logged while the core's partition is enabled (R303). -/
def State.tallyPut (s : State) (fn c t v : Nat) : State :=
  match s.enabledOwner c with
  | some _ => s.hae 6 fn 0 true 4 (0x01007800 + 0x8000 * c + 4 * t) v
  | none => s.wr R.core_TALLY v c t

/-- TALLY_WRITE. -/
def execTallyWrite (fn : BitVec 7) (core : BitVec 9) (t : BitVec 6) (value : BitVec 16) (s : State) : Out :=
  .next (if s.hostOk fn.toNat then s.tallyPut fn.toNat core.toNat t.toNat value.toNat else s)

/-- The granule of a bank's present scrub row: bank = address bits [10:6], row = bits [22:11]. -/
def scrubGran (row bank : Nat) : Nat := row * 32 + bank

/-- The patrol scrub reads the present row's granule of each of the 32 banks, corrects and poisons under R281, and moves on to
the next row (R282). -/
def execPatrolScrub (core : BitVec 9) (found : List (BitVec 7 × Bool)) (s : State) : Out :=
  let c := core.toNat
  .next (if s.alive then
    let row := (s.core c).scrubRow
    let s := found.foldl (fun s x => s.updMem (fun m => { m with
      loftErr := Tbl.set 0 m.loftErr (loftKey c (scrubGran row (x.1.toNat / 4)) * 4 + x.1.toNat % 4) (if x.2 then 2 else 1) })) s
    let s := (List.range 32).foldl (fun s b => s.eccLoft c (scrubGran row b)) s
    s.updCore c (fun k => { k with scrubRow := (row + 1) % 4096 })
  else s)

end Sys2Proof.Machine
end

