-- ==== Sys2Proof/Machine/Products.lean ====
section
/-! DEFINITION. One attempt of an array product: the drives of its pieces, the conversions with their free deviation, the octet
sums and the slab (chapters 3 to 5). -/

namespace Sys2Proof.Machine

/-! ### The bound of R106, in units of 2^-128 -/

/-- ln of a positive number. -/
def lnFx (m : Nat) : Int := match lnRaw m 0 with
  | .fin n k e => toFx n k e
  | _ => 0

/-- γ of an array: 0.0010 + 0.0004 θ + 0.0005 log10 (1 + h) (R106, R107, R255). -/
def State.gammaFx (s : State) (c a : Nat) : Nat :=
  let lg := (lnFx (3600 + s.ageS c a) - lnFx 3600) * 2 ^ 128 / lnFx 10
  10 * 2 ^ 128 / 10000 + 4 * s.theta c a * 2 ^ 128 / 160000 + 5 * lg.toNat / 10000

/-- s_f of a weight format in hundredths (R106). -/
def noiseCoef (fmt : Nat) : Nat := if fmt = 0 then 24 else if fmt = 1 then 12 else 4

/-- One pulse's term: 0.75 Δ + s_f √n + γ S, and for a two-pass pulse 1.0 + 1.5 s_f √n + γ S (R106, R147). -/
def pulseTerm (fmt delta n sumW gamma : Nat) (twoPass : Bool) : Nat :=
  let root := isqrt (n * 2 ^ 256) 140
  if twoPass then 2 ^ 128 + 3 * noiseCoef fmt * root / 200 + gamma * sumW
  else 3 * delta * 2 ^ 128 / 4 + noiseCoef fmt * root / 100 + gamma * sumW

/-! ### Conversions (R101, R146, R690) -/

/-- The conditions of R108 that do not depend on a conversion hold for an array's active bank: θ at most 20 °C, h at most 8,760, margin at least
0.10, and wear at most 1,000,000. -/
def State.inBound (s : State) (c a : Nat) : Bool :=
  let k := s.bank c a (s.activeBank c a)
  decide (s.theta c a ≤ 320) && decide (s.ageS c a ≤ 8760 * 3600) && !k.floor && decide (k.wear ≤ 1000000)

/-- A free value of either sign. -/
def freeInt (n : Nat) : Int :=
  let v := Config.freeValue 1 n
  if v % 2 = 0 then (v / 2 : Nat) else -((v / 2 : Nat) : Int) - 1

/-- The deviation of a conversion in 1/256 weight units: a free value (R690, log entry 4), within ± `lim` where the conditions of R108 hold. -/
def deviation (lim : Option Nat) (n : Nat) : Int :=
  match lim with
  | some l => freeInt n % (2 * l + 1 : Nat) - l
  | none => freeInt n

/-- The largest deviation of a held column value in 1/256 weight units that keeps a corrected pulse value within its term of R106: `term` in units
of 2^-128, a step Δ and a gain G. Half a step of rounding and the rounding of the correction are taken off it. -/
def devLimit (term delta g : Nat) : Nat := (term / 2 ^ 120 - 16) * 32768 / g - 128 * delta

/-- The held value of a column in 1/256 weight units: the column value as its corrections g_c and o_c take it back (R103), with a deviation. A
column value at least 124 weight units inside the saturation limit stays inside it (R184). -/
def heldValue (x : Int) (g : Nat) (o : Int) (delta : Nat) (dev : Int) : Int :=
  let h := rneDiv (256 * x * 32768) g + 16 * o + dev
  let lim : Int := 32640 * delta - 1
  if 256 * (x.natAbs + 124) ≤ 32640 * delta then clampI (-lim) lim h else h

/-- A conversion of a held value in 1/256 weight units at a step Δ: the code and its saturation (R101). -/
def convert (h : Int) (delta : Nat) : Int × Bool :=
  (clampI (-127) 127 (rneDiv h (256 * delta)), decide (32640 * delta ≤ h.natAbs))

/-- The value of a pulse in weight units and its saturation: one pass at Δ, or two passes at 32 and 1 (R101, R146). The deviations of the two
passes differ by at most 96 weight units, so that the fine pass holds what the coarse one leaves (log entry 4). -/
def pulseValue (x : Int) (g : Nat) (o : Int) (delta : Nat) (twoPass : Bool) (lim : Option Nat) (n : Nat) : Int × Bool :=
  if twoPass then
    let d2 := deviation lim (n + 1)
    let d1 := clampI (d2 - 24576) (d2 + 24576) (deviation lim n)
    let c := convert (heldValue x g o 32 d1) 32
    let f := convert (heldValue x g o 32 d2 - 8192 * c.1) 1
    (32 * c.1 + f.1, c.2)
  else
    let c := convert (heldValue x g o delta (deviation lim n)) delta
    (c.1 * delta, c.2)

/-- A corrected pulse value in 1/16 weight units (R103 step 2). -/
def corrected (g : Nat) (o : Int) (v : Int) : Int := rneDiv (g * (16 * v - o)) 32768

/-- A row phase of one magnitude plane: the plane, the phase, and the driven rows with their polarity. -/
structure Plane where
  bit : Nat
  phase : Nat
  rows : List (Nat × Int)
  deriving DecidableEq, Repr

/-- The planes of a drive that begins at a physical row, with 2^split row phases (R96, R97, R182). -/
def planesOf (d : Drive) (row0 m split : Nat) : List Plane :=
  ((List.range (m + d.lam)).flatMap (fun b => (List.range (2 ^ split)).map (fun ph =>
    ({ bit := b, phase := ph
       rows := (d.vals.zipIdx).filterMap (fun x =>
        if x.1.natAbs.testBit b && (row0 + x.2) / (1024 / 2 ^ split) == ph then
          some (row0 + x.2, if x.1 < 0 then -1 else 1) else none) } : Plane)))).filter (fun p => !p.rows.isEmpty)

/-- How an attempt runs: the working format, RANGE, row split, two passes, reference mode. -/
structure Mode where
  fmt : Nat
  range : Nat
  split : Nat
  twoPass : Bool
  ref : Bool
  deriving DecidableEq, Repr

/-- How a product's present attempt runs. -/
def Product.mode (p : Product) : Mode :=
  { fmt := p.fmt, range := p.range, split := p.cmd.fld 190 2, twoPass := p.step == 2, ref := p.reference }

/-- The result of one piece: its array, its unit exponent (none when it drives no row), its columns, the saturated conversions
of each, the octet pulses it takes part in, its pulse count, and whether a column is poisoned: by a defect (R121), or by a spoilt correction
table (R633). -/
structure PieceOut where
  array : Nat
  unit : Option Int
  cols : List Int
  sat : List Nat
  slots : List (Nat × Nat)
  pulses : Nat
  lam : Nat
  clamped : Nat
  bad : List Bool
  spoilt : Bool
  deriving DecidableEq, Repr

/-- The converted blocks that a piece drives (R133, R134, R177). -/
def pieceBlks (cmd : Cmd) (input : List Byte) (fmt : Nat) (p : Piece) : List Blk :=
  let sf := cmd.fld 161 3
  let img := (input.drop (p.seg * segBytes sf)).take (segBytes sf)
  (List.range (p.nblk + 1)).map (fun i => (readBlk sf img (p.vblk0 + i)).convert (fmtM sf) (fmtM fmt))

/-- The result of a piece over `n` slab columns; free deviations are drawn from number `fresh` on. A reference product runs no pulse, and a defect
of the active bank poisons none of its columns (DESIGN CHOICE, log entry 60: R121 speaks of the next pulse). -/
def State.pieceOut (s : State) (c fmt : Nat) (cmd : Cmd) (input : List Byte) (md : Mode) (n fresh : Nat) (p : Piece) : PieceOut :=
  let blks := pieceBlks cmd input md.fmt p
  let d := alignBlks blks (cmd.fld 187 3)
  let b := s.activeBank c p.array
  let k := (s.core c).cal
  let bk := s.bank c p.array b
  let planes := planesOf d (32 * p.row0) (fmtM md.fmt) (if md.ref then 0 else md.split)
  let gamma := if md.ref then 0 else s.gammaFx c p.array
  let sound := s.inBound c p.array
  let cols := (List.range n).map (fun j =>
    let u := 32 * p.col0 + j
    let ws := fun (pl : Plane) => pl.rows.map (fun r => r.2 * s.weight c p.array b fmt r.1 u)
    if md.ref then (sumI (planes.map (fun pl => sumI (ws pl) * 2 ^ pl.bit)), 0)
    else
      let key := calKey p.array b (bk.phys u)
      let vs := planes.map (fun pl =>
        let sw := sumN ((ws pl).map Int.natAbs)
        let lim := if sound then some (devLimit (pulseTerm fmt (2 ^ md.range) pl.rows.length sw gamma md.twoPass)
          (if md.twoPass then 1 else 2 ^ md.range) (k.gain key)) else none
        let v := pulseValue (sumI (ws pl)) (k.gain key) (k.offs key) (2 ^ md.range) md.twoPass lim (fresh + 2 * ((j * 16 + pl.bit) * 8 + pl.phase))
        (corrected (k.gain key) (k.offs key) v.1 * 2 ^ pl.bit, v.2))
      (rneDiv (sumI (vs.map (·.1))) 16, (vs.filter (·.2)).length))
  { array := p.array
    unit := if planes.isEmpty then none else d.unit
    cols := cols.map (·.1), sat := cols.map (·.2)
    slots := planes.map (fun pl => (fmtM md.fmt + d.lam - 1 - pl.bit, pl.phase))
    pulses := if planes.isEmpty then 0 else (fmtM md.fmt + d.lam) * 2 ^ md.split
    lam := if planes.isEmpty then 0 else d.lam
    clamped := (blks.filter (·.clamp)).length
    bad := (List.range n).map (fun j => !md.ref && bk.poisoned.contains (32 * p.col0 + j))
    spoilt := !md.ref && Marks.has (s.core c).cal.badTable (p.array / 8) }

/-- The sum of an octet's pieces over `n` columns (R104): each is shifted to the largest unit exponent among those that drive a
row; −128 when none does. -/
def octetSum (n : Nat) (ps : List PieceOut) : Int × List Int :=
  match (ps.filterMap (·.unit)).foldl (fun m e => match m with
    | none => some e
    | some x => some (max x e)) (none : Option Int) with
  | none => (-128, List.replicate n 0)
  | some e => (e, ps.foldl (fun acc p => match p.unit with
      | none => acc
      | some u => List.zipWith (fun x v => x + rneShr v (e - u).toNat) acc p.cols) (List.replicate n 0))

/-- What an attempt gives: its groups before any addition to the slab at DST, the saturated conversions, the largest lag, the
clamped blocks, octet pulses run and skipped, arrays that drove nothing, renormalisations and overflows; and each octet's result. -/
structure TileOut where
  groups : List PsGroup
  octs : List (Nat × Int × List Int)
  sat : Nat
  lam : Nat
  clamped : Nat
  /-- blocks driven with entry_clamp set, those that their producer clamped among them (R132) -/
  entry : Nat
  run : Nat
  skip : Nat
  zero : Nat
  renorm : Nat
  ovf : Nat
  poisoned : Nat
  deriving DecidableEq, Repr

/-- Groups of 32 columns at one exponent, the poison by 16 columns. -/
def groupsOf (e : Int) (cols : List Int) (bad : List Bool) (n : Nat) : List PsGroup :=
  (List.range n).map (fun i => {
    exp := e, flag := 0, vals := (cols.drop (32 * i)).take 32
    bad := [((bad.drop (32 * i)).take 16).any id, ((bad.drop (32 * i + 16)).take 16).any id] })

/-- Adds two slabs group by group, counting renormalisations and overflows. -/
def addSlabs (a b : List PsGroup) : List PsGroup × Nat × Nat :=
  let rs := List.zipWith PsGroup.addR a b
  (rs.map (·.1), (rs.filter (·.2)).length, (rs.filter (fun r => r.2 && r.1.overflowed)).length)

/-- The octets of a list of pieces, ascending. -/
def octetsOf (ps : List Piece) : List Nat := (List.range 8).filter (fun o => ps.any (fun p => p.array / 8 == o))

/-- One attempt of a tile (R176 to R183, R160): pieces, octet sums, and the fold over octets in ascending order (R179). `extra` counts blocks that
were clamped when their producer stored them (R132). -/
def State.attempt (s : State) (c : Nat) (cmd : Cmd) (input : List Byte) (md : Mode) (flags : Nat) (extra : Nat := 0) : TileOut :=
  let w := s.wset c (cmd.fld 80 12)
  let tw := s.tileWord c w (cmd.fld 112 10)
  let ng := tileCols tw + 1
  let pieces := s.tilePieceList c tw
  let outs := (pieces.zipIdx).map (fun x => s.pieceOut c w.fmt cmd input md (32 * ng) (s.fresh + 262144 * x.2) x.1)
  let octs := (octetsOf pieces).map (fun o => outs.filter (fun p => p.array / 8 == o))
  let parts := octs.map (fun ps =>
    let r := octetSum (32 * ng) ps
    groupsOf r.1 r.2 ((List.range (32 * ng)).map (fun j => ps.any (fun p => p.spoilt || p.bad.getD j false))) ng)
  let sum := match parts with
    | [] => ([], 0, 0)
    | g :: rest => rest.foldl (fun (acc : List PsGroup × Nat × Nat) h =>
        let r := addSlabs acc.1 h
        (r.1, acc.2.1 + r.2.1, acc.2.2 + r.2.2)) (g, 0, 0)
  -- a tile none of whose arrays drives a row is 0 at exponent −128 (R104)
  let clamped := sumN (outs.map (·.clamped))
  let satIn := fun i => outs.any (fun p => ((p.sat.drop (32 * i)).take 32).any (· != 0))
  let groups := (sum.1.zipIdx).map (fun x => { x.1 with
    flag := Nat.lor x.1.flag (if md.ref then 0 else Nat.lor flags (b2n (satIn x.2 || clamped + extra != 0))) })
  let octRun := octs.map (fun ps => (ps.flatMap (·.slots)).eraseDups.length)
  let octAll := octs.map (fun ps => (ps.map (·.pulses)).foldl max 0)
  { groups := groups
    octs := (octetsOf pieces).map (fun o => (o, octetSum (32 * ng) (outs.filter (fun p => p.array / 8 == o))))
    sat := sumN (outs.map (fun p => sumN p.sat))
    lam := (outs.map (·.lam)).foldl max 0
    clamped := clamped, entry := clamped + extra
    run := sumN octRun, skip := sumN octAll - sumN octRun
    zero := (outs.filter (fun p => p.unit.isNone)).length
    renorm := sum.2.1, ovf := sum.2.2
    poisoned := sumN ((groupsOf 0 [] ((List.range (32 * ng)).map (fun j => outs.any (fun p => p.bad.getD j false))) ng).map
      (fun g => (g.bad.filter id).length)) }

end Sys2Proof.Machine
end

