-- ==== Sys2Proof/Machine/Audit.lean ====
section
/-! DEFINITION. Audits (R636 to R643): the sampled product, the bound of R106 and the outcome of an audit. -/

namespace Sys2Proof.Machine

/-- Cycles since the admission edge of a partition's frame. -/
def State.frameCycle (s : State) (f : FrameSt) : Nat := (s.tickNum - f.admitTick) * s.period + s.cyc

/-- Changes the audits of a core. -/
def State.updAudits (s : State) (c : Nat) (f : List AuditSt → List AuditSt) : State :=
  s.updCore c (fun k => { k with auditing := f k.auditing })

/-- The first product to issue at or after c CAL_AT + 3,584 of an audit frame is sampled (R639). -/
def State.sampleProd (s : State) (c id : Nat) : State :=
  s.updAudits c (fun l => l.map (fun a =>
    match (s.part a.part).frame with
    | some f => if a.tile = 0 ∧ f.seq.toNat = a.frame ∧ s.rd R.cslot_CAL_AT a.part + 3584 ≤ s.frameCycle f then
        { a with tile := 1, prod := id } else a
    | none => a))

/-- The audit buffer captures the final attempt of a sampled product; a clipped tile is skipped (R639, R640). -/
def State.captureProd (s : State) (c : Nat) (p : Product) (octs : List (Nat × Int × List Int)) (clipped : Bool) : State :=
  let mine := fun (a : AuditSt) => a.tile == 1 && a.prod == p.id
  if (s.core c).auditing.any mine then
    let s := s.updAudits c (fun l => l.map (fun a => if mine a then
      (if clipped then { a with tile := 4 } else { a with tile := 2, cap := some ({ p with groups := [] }, octs) }) else a))
    if clipped then s.bump R.aud_AUD_SKIP 1 c else s
  else s

/-! ### The bound of a column -/

/-- The bound of one column of a piece as driven (R106). -/
def State.pieceBound (s : State) (c fmt : Nat) (pr : Product) (p : Piece) (j : Nat) : Nat :=
  let blks := pieceBlks pr.cmd pr.input pr.fmt p
  let md := pr.mode
  let planes := planesOf (alignBlks blks (pr.cmd.fld 187 3)) (32 * p.row0) (fmtM pr.fmt) md.split
  let b := s.activeBank c p.array
  let g := s.gammaFx c p.array
  2 ^ 127 + (planes.map (fun pl =>
    2 ^ pl.bit * pulseTerm fmt (2 ^ md.range) pl.rows.length
      ((pl.rows.map (fun r => (s.weight c p.array b fmt r.1 (32 * p.col0 + j)).natAbs)).foldl (· + ·) 0) g md.twoPass)).foldl (· + ·) 0

/-- A comparison of a column: its place, y, r and the bound. -/
structure AuditCol where
  item : Nat
  col : Nat
  y : Int
  r : Int
  bound : Nat
  deriving DecidableEq, Repr

/-- The column lies outside its bound. -/
def AuditCol.bad (x : AuditCol) : Bool := decide (x.bound < (x.y - x.r).natAbs * 2 ^ 128)

/-- The columns of one octet of a captured product, compared with r and the bound of R109. -/
def State.octetCols (s : State) (c : Nat) (pr : Product) (o : Nat × Int × List Int) : List AuditCol :=
  let w := s.wset c (pr.cmd.fld 80 12)
  let tw := s.tileWord c w (pr.cmd.fld 112 10)
  let n := 32 * (tileCols tw + 1)
  let ps := (s.tilePieceList c tw).filter (fun p => p.array / 8 == o.1)
  let outs := ps.map (s.pieceOut c w.fmt pr.cmd pr.input { pr.mode with ref := true } n 0)
  let r := octetSum n outs
  let live := (ps.zip outs).filterMap (fun x => x.2.unit.map (fun u => (x.1, u)))
  (List.range n).map (fun j =>
    let bound := (live.map (fun x =>
      let d := (r.1 - x.2).toNat
      s.pieceBound c w.fmt pr x.1 j / 2 ^ d + (if d = 0 then 0 else 2 ^ 127))).foldl (· + ·) 0
    { item := o.1, col := j, y := o.2.2.getD j 0, r := r.2.getD j 0, bound := bound })

/-- The columns of a witness part: the corrected results `meas` of array and user column, others exactly e_p (R637). -/
def State.witnessCols (s : State) (c p : Nat) (meas : List (BitVec 6 × BitVec 10 × Int)) : List AuditCol :=
  meas.map (fun m =>
    let a := m.1.toNat
    let pos := (s.bank c a (s.activeBank c a)).phys m.2.1.toNat
    let sw := ((List.range 16).map (fun r => (witnessWeight r pos).natAbs)).foldl (· + ·) 0
    { item := a, col := m.2.1.toNat, y := m.2.2
      r := sumI ((List.range 16).map (fun r => walsh p r * witnessWeight r pos))
      bound := 2 ^ 127 + pulseTerm 0 1 16 sw (s.gammaFx c a) false })

/-- DETAIL of an audit failure (R643): `part` 1 witness, 2 tile. -/
def State.auditDetail (s : State) (c part : Nat) (bad : List AuditCol) : Option (List Byte) :=
  bad.head?.map (fun x => toLe 1 part ++ toLe 1 x.item ++ toLe 2 x.col ++ toLe 4 (usg 32 x.y) ++ toLe 4 (usg 32 x.r) ++
    toLe 4 (Fp.r32 (.fin false x.bound (-128))).bits ++ toLe 4 bad.length ++ toLe 4 (s.rd R.cal_CAL_EPOCH c))

/-- AUD_WORST after a part (R652). -/
def State.auditWorst (s : State) (c : Nat) (cols : List AuditCol) : State :=
  let w := (cols.map (fun x => if x.bound = 0 then 0 else min ((x.y - x.r).natAbs * 2 ^ 136 / x.bound) 0xFFFF)).foldl max 0
  s.wr R.aud_AUD_WORST (max (s.rd R.aud_AUD_WORST c) w) c

/-- An audit ends: it passes or fails (R641, R642). -/
def State.auditOutcome (s : State) (c : Nat) (a : AuditSt) : State :=
  let s := s.bump R.ptest_AUDITS 1 a.part
  let s := match a.fail with
    | none => s.bump R.aud_AUD_PASS 1 c
    | some d =>
      let s := ((s.bump R.aud_AUD_FAIL 1 c).bump R.ptest_AUDIT_FAILS 1 a.part).logCore 1 0x10 0 c 0xFFFF 0 0 d
      (s.trailCore c 0x0B 1 [(20, 2, c), (24, 24, leNat d)]).calDue c 4
  let hist := ((s.core c).audits ++ [a.fail.isSome])
  let s := s.updCore c (fun k => { k with audits := hist.drop (hist.length - 64) })
  if 3 ≤ ((s.core c).audits.filter id).length && !s.flag R.aud_SUSPECT c then (s.wr R.aud_SUSPECT 1 c).logCore 2 0x10 0 c else s

/-- The audits of a core whose parts have all ended are counted; one none of whose parts ran is not (R640, R641). -/
def State.endAudits (s : State) (c : Nat) : State :=
  let isOver := fun (a : AuditSt) => a.witness != 0 && decide (3 ≤ a.tile)
  let ended := (s.core c).auditing.filter isOver
  let s := s.updAudits c (fun l => l.filter (fun a => !isOver a))
  ended.foldl (fun s a => if a.witness = 2 ∧ a.tile = 4 then s else s.auditOutcome c a) s

/-- An audit frame begins on a core (R636, R640): the tile part is skipped in reference mode and while an earlier one runs. -/
def State.beginAudit (s : State) (c p seq : Nat) : State :=
  let skip := s.refMode p || !(s.core c).auditing.isEmpty
  let s := s.updAudits c (fun l => l.map (fun a => if a.witness = 0 then { a with witness := 2 } else a) ++
    [{ part := p, frame := seq, witness := 0, tile := if skip then 4 else 0, prod := 0, cap := none, fail := none }])
  if skip then s.bump R.aud_AUD_SKIP 1 c else s

/-- An audit frame is published: a witness part that has not run falls away, and a tile part without a product is skipped (R640). -/
def State.closeAudit (s : State) (c : Nat) : State :=
  let s := s.skipWitness c false
  let s := if (s.core c).auditing.any (fun a => a.tile == 0) then
      (s.updAudits c (fun l => l.map (fun a => if a.tile = 0 then { a with tile := 4 } else a))).bump R.aud_AUD_SKIP 1 c
    else s
  s.endAudits c

/-- A part of an audit has run: its failing columns decide it (R641). -/
def State.auditPart (s : State) (c frame part : Nat) (cols : List AuditCol) : State :=
  let d := s.auditDetail c part (cols.filter AuditCol.bad)
  ((s.auditWorst c cols).updAudits c (fun l => l.map (fun a => if a.frame = frame then
    { a with fail := a.fail.orElse (fun _ => d) } else a)))

end Sys2Proof.Machine
end

