-- ==== Sys2Proof/Machine/Matrix.lean ====
section
/-! DEFINITION. The matrix engine (chapter 5): MPROD and MFRAME, grants, decisions and fallback repeats (chapter 4), slabs and
retirement, reference products. -/

namespace Sys2Proof.Machine

/-- REQ of an MPROD. -/
def prodReq (cmd : Cmd) : Nat := cmd.fld 128 16

/-- Changes the product of a number. -/
def State.updProd (s : State) (c id : Nat) (f : Product → Product) : State :=
  s.updCore c (fun k => { k with products := k.products.map (fun p => if p.id = id then f p else p) })

/-- The state of the promotion class of a request: 0 BASE, 1 UP1, 2 UP2 (R155; the block of request n at byte 256 n of device
bushel 520). -/
def State.promo (s : State) (req cls : Nat) : Nat := s.granLe (520 * 2097152 + 256 * req + 4 * cls) 4 % 4

/-- The working format code of step 0 under promotion (R154). -/
def promFmt (f st : Nat) : Nat := if st = 0 then f else if st = 1 then (if f ≤ 2 then 3 else 4) else 4

/-- An MPROD with SRC_FMT as its producer stored the input: the store format that follows the promotion state of (REQ, PCLASS)
(R154, R314; log entry 55). A code that is no format stays. -/
def State.storedSrc (s : State) (cmd : Cmd) : Cmd :=
  let f := cmd.fld 161 3
  if 5 ≤ f then cmd
  else BitVec.ofNat 256 (cmd.toNat - f * 2 ^ 161 + promFmt f (s.promo (cmd.fld 128 16) (cmd.fld 122 6)) * 2 ^ 161)

/-- Groups of the slab of an MPROD: those of its tile's descriptor. Where the set is not VALID or TILE exceeds TILES, no descriptor is the command's;
the slab that R190 poisons is then taken from the descriptor at TILE_BASE + TILE all the same (DESIGN CHOICE, log entry 66). -/
def State.prodGroups (s : State) (c : Nat) (cmd : Cmd) : Nat :=
  tileCols (s.tileWord c (s.wset c (cmd.fld 80 12)) (cmd.fld 112 10)) + 1

/-- The pieces of an MPROD's tile. -/
def State.prodPieces (s : State) (c : Nat) (cmd : Cmd) : List Piece :=
  s.tilePieceList c (s.tileWord c (s.wset c (cmd.fld 80 12)) (cmd.fld 112 10))

/-- The segments that a tile reads (R168). -/
def State.prodSegs (s : State) (c : Nat) (cmd : Cmd) : List Nat :=
  (List.range 64).filter (fun k => (s.prodPieces c cmd).any (fun p => p.seg == k))

/-- The Loft run of a segment's image (R168). -/
def segRun (cmd : Cmd) (k : Nat) : Run := (cmd.fld 144 17 + k * (segBytes (cmd.fld 161 3) / 64), segBytes (cmd.fld 161 3) / 64)

/-- A flip in progress on the core holds an array of a set (R195). -/
def State.setSwitching (s : State) (c : Nat) (w : WSet) : Bool :=
  match (s.core c).flip with
  | some f => (s.setArrays c w).any (fun a => f.arrays.contains a)
  | none => false

/-- The weight-set check of R189 with R195 and R541: 1 not VALID or another tenant's, 2 version, 3 a set on arrays that are switching, whatever
the state of its banks; 0 passed. -/
def State.tagCode (s : State) (c : Nat) (cmd : Cmd) : Nat :=
  let w := s.wset c (cmd.fld 80 12)
  if !w.valid || w.tenant != s.tenant ((s.owner c).getD 64) then 1
  else if w.st w.active = 5 || s.setSwitching c w then 3
  else if w.st w.active != 4 || w.ver w.active != cmd.fld 96 16 then 2
  else 0

/-- The code under which an MPROD fails its checks, the lowest that applies (R199, log entry 12); 0 when it passes. -/
def State.prodCode (s : State) (c : Nat) (cmd : Cmd) : Nat :=
  let tag := s.tagCode c cmd
  if tag != 0 then tag
  else if (s.wset c (cmd.fld 80 12)).tiles < cmd.fld 112 10 then 4
  else if 5 ≤ cmd.fld 161 3 ∨ 5 ≤ cmd.fld 164 3 then 5
  else if 4 < cmd.fld 187 3 then 6
  else if (s.prodSegs c cmd).any (fun k => decide (131072 < (segRun cmd k).1 + (segRun cmd k).2)) then 7
  else if 131072 < cmd.fld 168 17 + 1 + 2 * s.prodGroups c cmd then 8
  else if (s.prodSegs c cmd).any (fun k => s.anyBad c (segRun cmd k).1 (segRun cmd k).2) then 9
  else if (s.prodPieces c cmd).any (fun p => Marks.has (s.core c).retired (p.array / 8)) then 10
  else 0

/-- An error of a matrix command: its registers, counters and deferred record (R190, R197). -/
def State.mxError (s : State) (c code : Nat) (cmd : Cmd) : State :=
  let s := (((s.wr R.mx_ERR_CODE code c).wr R.mx_ERR_WSID (cmd.fld 80 12) c).wr R.mx_ERR_TILE (cmd.fld 112 10) c).wr
    R.mx_ERR_VALID 1 c
  let s := s.bump (if code ≤ 3 then R.mx_MX_TAGMIS else R.mx_MX_CMDERR) 1 c
  let s := if code = 9 then (s.bump R.mx_MX_POISON_IN 1 c).consumePoison c (prodReq cmd) 2 9 (64 * cmd.fld 144 17) else s
  s.logCore 2 0x02 code c (prodReq cmd) (cmd.fld 80 12)

/-- A command that fails a check (R190): its slab is poisoned at once; it retires when every earlier command has (R191). The groups of a slab
poisoned because its octet is retired count in POISON_COLS, by granules (R119, R126). -/
def State.prodFail (s : State) (c code : Nat) (cmd : Cmd) : State :=
  let n := s.prodGroups c cmd
  let s := (s.serve c (prodReq cmd)).spoilSlab c (cmd.fld 168 17) n (cmd.fld 200 1 == 1)
  let s := if code = 10 then s.bump R.arr_POISON_COLS (2 * n) c else s
  let s := s.mxError c code cmd
  if (s.core c).products.isEmpty then s.retire c .matrix cmd
  else
    let s := s.updCore c (fun k => { k with
      nextId := k.nextId + 1
      products := k.products ++ [{ id := k.nextId, cmd := cmd, stage := 3, atHead := false, failed := true, step := 0, fmt := 0
                                   range := 0, promoted := false, input := [], groups := []
                                   reference := false }] })
    s.goNext c .matrix

/-- The octets of two products meet. -/
def State.shareOctet (s : State) (c : Nat) (a b : Product) : Bool :=
  (octetsOf (s.prodPieces c a.cmd)).any (fun o => (octetsOf (s.prodPieces c b.cmd)).contains o)

/-- The products that share an octet with `p` and meet a condition. -/
def State.sharing (s : State) (c : Nat) (p : Product) (f : Product → Bool) : List Product :=
  (s.core c).products.filter (fun q => q.id != p.id && !q.failed && !q.reference && f q && s.shareOctet c p q)

/-- The octets of `p` have not finished the product in flight (R149, R185 step 5): two attempts on them await their decision, one of them still
pulsing, or a repeat waits, which runs ahead of every later command. -/
def State.octetsBusy (s : State) (c : Nat) (p : Product) : Bool :=
  decide (2 ≤ (s.sharing c p (fun q => !q.atHead && q.stage == 1)).length) || !(s.sharing c p (fun q => q.stage == 2)).isEmpty

/-- An octet of the tile has no free input buffer: it holds the input of a product that pulses and of one that waits to (R100, R185 step 3). -/
def State.buffersFull (s : State) (c : Nat) (p : Product) : Bool :=
  decide (2 ≤ (s.sharing c p (fun q => decide (q.stage ≤ 1))).length)

/-- An attempt begins pulsing. -/
def State.beginPulse (s : State) (c id : Nat) (f : Product → Product) : State :=
  let n := (s.core c).nextStart
  (s.updProd c id (fun q => { f q with stage := 1, atHead := false, start := n })).updCore c (fun k => { k with nextStart := n + 1 })

/-- The product at the queue head begins pulsing once it holds its grant and its octets are free; no pulse begins while HOLD
is set (R185 step 5, R609). The queue then goes on. -/
def State.tryStart (s : State) (c : Nat) : State :=
  match (s.core c).products.find? (fun p => p.atHead) with
  | none => s
  | some p =>
    if s.holds c p.id false then
      let s := (s.updProd c p.id (fun q => { q with stage := 1 })).headWait c .matrix 0
      if s.octetsBusy c p || s.flag R.gov_HOLD then s
      else (s.beginPulse c p.id id).goNext c .matrix
    else (s.updProd c p.id (fun q => { q with deferred := true })).headWait c .matrix 4

/-- The input that an MPROD loads: the images of its segments, segment 0 first (R168). -/
def State.prodInput (s : State) (c : Nat) (cmd : Cmd) : List Byte :=
  s.loftBytes c (64 * cmd.fld 144 17) (segBytes (cmd.fld 161 3) * (((s.prodSegs c cmd).foldl max 0) + 1))

/-- Worst-case power of an array in mW (R186). -/
def arrayMw (fmt : Nat) : Nat := if fmt = 1 then 52 else 58

/-- The blocks of an MPROD's input whose producer clamped them, 32 × segment + block (R132). -/
def State.clampedIn (s : State) (c : Nat) (cmd : Cmd) : List Nat :=
  if s.mem.loftClamp.isEmpty then []
  else (s.prodSegs c cmd).flatMap (fun k => ((List.range 32).filter (fun b =>
    Marks.has s.mem.loftClamp (c * 8388608 + 64 * (segRun cmd k).1 + b))).map (32 * k + ·))

/-- A command that passed its checks is issued (R185 step 3): a calibration run that pulses is abandoned (R246), the input is loaded, and
the grant is asked for; in reference mode there is none (R192). PROMOTED is set whenever the promotion state is above BASE, also where the
working format stays what it was (DESIGN CHOICE, log entry 66). -/
def State.prodIssue (s : State) (c : Nat) (cmd : Cmd) (p : Nat) : State :=
  let req := prodReq cmd
  let st := s.promo req (cmd.fld 122 6)
  let id := (s.core c).nextId
  let ref := s.refMode p
  let s := (s.prodSegs c cmd).foldl (fun s k => s.eccLoftN c (segRun cmd k).1 (segRun cmd k).2) s
  let s := s.calAbandon c
  let prod : Product := {
    id := id, cmd := cmd, stage := if ref then 1 else 0, atHead := !ref, failed := false, step := 0
    fmt := if ref then 4 else promFmt (cmd.fld 164 3) st
    range := if ref then 0 else min 3 (cmd.fld 185 2 + st), promoted := decide (0 < st) && !ref
    input := s.prodInput c cmd, groups := [], clampIn := s.clampedIn c cmd, reference := ref
    pc := s.rd R.core_PC_M c, reads := (s.prodSegs c cmd).map (segRun cmd) }
  let s := (s.serve c req).useClass c req (cmd.fld 122 6)
  let s := (s.updCore c (fun k => { k with nextId := k.nextId + 1, products := k.products ++ [prod] })).sampleProd c id
  if ref then s.goNext c .matrix
  else
    (s.requestGrant { holder := .part p, core := c, id := id
                      mw := (s.prodPieces c cmd).length * arrayMw (s.wset c (cmd.fld 80 12)).fmt }).tryStart c

/-- MPROD (R185): wait, check, issue, grant, pulse. In debug mode a failed weight-set check stops the core (R193). -/
def execMprod (core : BitVec 9) (cmd : Cmd) (s : State) : Out :=
  let c := core.toNat
  .next ((s.engRun c .matrix cmd (fun s =>
    if (s.core c).products.any (fun p => p.atHead) then s.tryStart c
    else
      let p := (s.owner c).getD 64
      let src := s.storedSrc cmd
      let tag := s.tagCode c src
      let head : Product := { id := (s.core c).nextId, cmd := src, stage := 0, atHead := true, failed := false, step := 0, fmt := 0, range := 0
                              promoted := false, input := [], groups := [], reference := false }
      if s.flag R.core_DEBUG c && tag != 0 then
        s.hazStop c .matrix cmd { kind := 6, other := 0, run := (0, 0), write := false }
      else if tag != 0 then s.prodFail c tag cmd
      else s.guarded c .matrix cmd ((s.prodSegs c cmd).map (segRun src)) [(cmd.fld 168 17, 1 + 2 * s.prodGroups c cmd)] (fun s =>
        let s' := (s.prodSegs c cmd).foldl (fun s k => s.eccLoftN c (segRun src k).1 (segRun src k).2) s
        let code := s'.prodCode c src
        if code != 0 then s'.prodFail c code cmd
        else if s.refMode p then (if (s.core c).products.isEmpty then s'.prodIssue c src p else s)
        else if s.buffersFull c head then s.headWait c .matrix 3
        else s'.prodIssue c src p))).syncMx c)

/-- MFRAME sets ALLOW and ALLOW_LEFT as it retires; a second one in a frame is ignored with code 0x0B,
which names no set and no tile, and a deferred error (R172, R173, R199; log entry 66). -/
def execMframe (core : BitVec 9) (cmd : Cmd) (s : State) : Out :=
  let c := core.toNat
  .next ((s.engRun c .matrix cmd (fun s =>
    if !s.drained c .matrix then s
    else if (s.core c).mframe then
      ((((((s.wr R.mx_ERR_CODE 0x0B c).wr R.mx_ERR_WSID 0 c).wr R.mx_ERR_TILE 0 c).wr R.mx_ERR_VALID 1 c).bump R.mx_MX_CMDERR 1 c).logCore 2
        0x02 0x0B c).retire c .matrix cmd
    else
      let n := cmd.fld 80 16
      ((((s.wr R.fmt_ALLOW n c).wr R.fmt_ALLOW_LEFT n c).updCore c (fun k => { k with mframe := true })).retire c .matrix cmd))).syncMx
      c)

/-- A waiting grant request of a holder, none for the program cap, is admitted once it fits (R606). A product's wait in cycles
counts in MX_GOV_WAIT. -/
def execGrantAdmit (holder : Option (BitVec 6)) (cycles : BitVec 32) (s : State) : Out :=
  let h := match holder with
    | some p => Holder.part p.toNat
    | none => Holder.cap
  .next (match s.headOf h with
    | none => s
    | some g =>
      if s.alive && s.fits g then
        let s := s.admitHolder h 1
        match h with
        | .part _ => (((s.bump R.mx_MX_GOV_WAIT cycles.toNat g.core)).tryStart g.core).syncMx g.core
        | .cap => s
      else s)

/-- The Sillage record of a repeat or a clipped tile (R152, chapter 22). -/
def State.trailFallback (s : State) (c : Nat) (p : Product) (step outcome sat : Nat) : State :=
  s.trailCore c 0x07 1 [(20, 2, c), (22, 2, p.cmd.fld 80 12), (24, 2, p.cmd.fld 112 10), (26, 2, prodReq p.cmd),
    (28, 1, p.cmd.fld 122 6), (29, 1, step), (30, 1, outcome), (32, 2, min sat 0xFFFF)]

/-- The flag bits of a product's present attempt beside CLIPPED (R138). -/
def Product.flags (p : Product) : Nat :=
  (if p.step = 1 then 2 else 0) + (if p.step = 2 then 4 else 0) + (if p.promoted then 8 else 0)

/-- The attempt that a repeat runs: its step, working format code and RANGE (R145). -/
def Product.nextStep (p : Product) : Nat × Nat × Nat :=
  if p.step = 0 ∧ p.fmt ≤ 2 then (1, 3, min 3 (p.range + 1)) else (2, 4, 0)

/-- The pulses that a repeat is charged (R145, R175), its λ computed on its own conversion. -/
def State.repeatCharge (s : State) (c : Nat) (p : Product) : Nat :=
  let n := p.nextStep
  let lam := ((s.prodPieces c p.cmd).map (fun q =>
    (alignBlks (pieceBlks p.cmd p.input n.2.1 q) (p.cmd.fld 187 3)).lam)).foldl max 0
  (if n.1 = 1 then 5 + lam else 2 * (7 + lam)) * 2 ^ p.cmd.fld 190 2

/-- A product ran with θ above 20 °C or h above 8,760 hours (R108): CAL_STALE, a corrected record and an EVENT record. -/
def State.staleCheck (s : State) (c : Nat) (p : Product) : State :=
  if (s.prodPieces c p.cmd).any (fun q => decide (320 < s.theta c q.array) || decide (8760 * 3600 < s.ageS c q.array)) then
    let s := (s.wr R.arr_CAL_STALE 1 c).updCore c (fun k => { k with stale := true })
    (s.logCore 1 0x01 0 c (prodReq p.cmd)).trailCore c 0x0D 1 [(20, 2, prodReq p.cmd), (22, 2, c), (24, 1, 2)]
  else s

/-- The final attempt has delivered its last conversion: its grant is released and its slab is final (R187). -/
def State.finalise (s : State) (c : Nat) (p : Product) : State :=
  (((s.release c p.id false).updProd c p.id (fun q => { q with stage := 3 })).tryStart c)

/-- The blocks that a product drives and that their producer clamped (R132). -/
def State.clampDriven (s : State) (c : Nat) (p : Product) : Nat :=
  if p.clampIn.isEmpty then 0
  else sumN ((s.prodPieces c p.cmd).map (fun q => ((List.range (q.nblk + 1)).filter (fun i => p.clampIn.contains (32 * q.seg + q.vblk0 + i))).length))

/-- A product's last conversion has reached the octet adder (R143 to R152): the attempt's counters, and the decision to accept,
clip or repeat. Granules that a defect poisons count in POISON_COLS at every attempt, as saturations do (DESIGN CHOICE, log entry 60). -/
def State.decideProd (s : State) (c : Nat) (p : Product) : State :=
  let out := s.attempt c p.cmd p.input p.mode p.flags (s.clampDriven c p)
  let s := s.staleCheck c p
  let s := s.drawn 16777216
  let s := (((((s.bump R.arr_PULSES out.run c).bump R.arr_PULSES_SKIP out.skip c).bump R.arr_SAT_CONV out.sat c).bump
    R.arr_ZERO_PROD out.zero c).bump R.arr_POISON_COLS out.poisoned c)
  let s := ((s.bump R.fmt_ENTRY_CLAMP out.clamped c).bump R.fmt_RENORM out.renorm c).bump R.fmt_RENORM_OVF out.ovf c
  let s := if out.ovf = 0 then s else s.logCore 2 0x02 0 c (prodReq p.cmd) (p.cmd.fld 80 12)
  let s := s.updProd c p.id (fun q => { q with groups := out.groups })
  let spills := decide (p.cmd.fld 192 8 < out.sat)
  let s := if spills && p.step == 0 then
      s.updCore c (fun k => { k with fallbacks := countFallback k.fallbacks (prodReq p.cmd) (p.cmd.fld 122 6) 1 })
    else s
  let policy := s.rd R.fmtp_POLICY ((s.owner c).getD 64)
  if !spills then
    let s := if 0 < out.sat then ((s.bump R.fmt_SAT_ACCEPT 1 c).clipEvent c).trailFallback c p p.step 4 out.sat
      else if 0 < out.entry then (s.clipEvent c).trailFallback c p p.step 5 0 else s
    (s.captureProd c p out.octs (decide (0 < out.sat ∨ 0 < out.entry))).finalise c p
  else if p.step = 2 then (((s.clipEvent c).trailFallback c p 2 3 out.sat).captureProd c p [] true).finalise c p
  else
    let charge := s.repeatCharge c p
    let left := s.rd R.fmt_ALLOW_LEFT c
    let step := p.nextStep.1
    if charge ≤ left then
      ((s.wr R.fmt_ALLOW_LEFT (left - charge) c).trailFallback c p step 0 out.sat).updProd c p.id (fun q => { q with stage := 2 })
    else if policy = 0 then
      ((s.bump R.fmt_FB_EXCESS 1 c).trailFallback c p step 1 out.sat).updProd c p.id
        (fun q => { q with stage := 2 })
    else (((s.clipEvent c).trailFallback c p p.step 2 out.sat).captureProd c p [] true).finalise c p

/-- PRODUCT_DECIDE: the named product, pulsing, has delivered its last conversion; nothing pulses while HOLD is set. On octets that it shares,
attempts reach the octet adder in the order in which they began (R149, R150). -/
def execProductDecide (core : BitVec 9) (id : Nat) (s : State) : Out :=
  let c := core.toNat
  .next (match (s.core c).products.find? (fun p => p.id == id && p.stage == 1 && !p.atHead && !p.reference) with
    | none => s
    | some p =>
      if s.goesOn c && !s.flag R.gov_HOLD && (s.sharing c p (fun q => !q.atHead && q.stage == 1 && decide (q.start < p.start))).isEmpty then
        (s.decideProd c p).syncMx c
      else s)

/-- A repeat begins on the tile's octets after the product in flight there (R148, R149). -/
def execFallbackRepeat (core : BitVec 9) (id : Nat) (s : State) : Out :=
  let c := core.toNat
  .next (match (s.core c).products.find? (fun p => p.id == id && p.stage == 2) with
    | none => s
    | some p =>
      let busy := decide (2 ≤ (s.sharing c p (fun q => !q.atHead && q.stage == 1)).length) ||
        !(s.sharing c p (fun q => q.stage == 2 && decide (q.start < p.start))).isEmpty
      if s.goesOn c && !s.flag R.gov_HOLD && !busy then
        let n := p.nextStep
        (((s.bump (if n.1 = 1 then R.fmt_FB_STEP1 else R.fmt_FB_STEP2) 1 c).beginPulse c id
          (fun q => { q with step := n.1, fmt := n.2.1, range := n.2.2 })).tryStart c).syncMx c
      else s)

/-- The commands that failed their checks retire once no earlier product is left (R191); `n` bounds their number. -/
def State.retireFailed (s : State) (c : Nat) : Nat → State
  | 0 => s
  | n + 1 =>
    match (s.core c).products with
    | p :: rest =>
      if p.failed then
        (((s.updCore c (fun k => { k with products := rest })).countRetired c .matrix).signal c p.cmd).retireFailed c n
      else s
    | [] => s

/-- The oldest product's slab is written, with the slab at DST added under ACCUM, and the command retires (R171, R179, R191). -/
def State.slabOut (s : State) (c : Nat) (p : Product) (rest : List Product) : State :=
  let dst := p.cmd.fld 168 17
  let ng := s.prodGroups c p.cmd
  let acc := p.cmd.fld 200 1 == 1
  let s := if acc then s.eccLoftN c dst (1 + 2 * ng) else s
  let s := if acc && (List.range (1 + 2 * ng)).any (fun i => s.loftBad c (dst + i)) then
      s.consumePoison c (prodReq p.cmd) 0x02 0 (64 * dst)
    else s
  let sum := if acc then addSlabs (s.readSlab c dst ng) p.groups else (p.groups, 0, 0)
  let s := (s.bump R.fmt_RENORM sum.2.1 c).bump R.fmt_RENORM_OVF sum.2.2 c
  let s := if sum.2.2 = 0 then s else s.logCore 2 0x02 0 c (prodReq p.cmd) (p.cmd.fld 80 12)
  let s := s.writeSlab c dst sum.1
  let s := ((s.updCore c (fun k => { k with products := rest })).countRetired c .matrix).signal c p.cmd
  (s.retireFailed c rest.length).tryStart c

/-- SLAB_WRITE. -/
def execSlabWrite (core : BitVec 9) (s : State) : Out :=
  let c := core.toNat
  .next (match (s.core c).products with
    | p :: rest =>
      if s.goesOn c && p.stage == 3 && !p.failed then
        match s.hazLate c [s.slabRun c p] with
        | some h => s.hazStop c .matrix p.cmd { h with pc := some p.pc }
        | none => (s.slabOut c p rest).syncMx c
      else s
    | [] => s)

/-- The cycles of a reference product (R327). -/
def State.refCycles (s : State) (c : Nat) (cmd : Cmd) : Nat :=
  let ps := s.prodPieces c cmd
  let cols := 32 * s.prodGroups c cmd
  64 + max (ceilDiv (sumN (ps.map (fun p => 32 * (p.nblk + 1))) * cols) 2048)
    (ceilDiv ((ps.map (fun p => 32 * (p.nblk + 1))).foldl max 0 * cols) 32)

/-- A reference product has been formed by the integer lanes (R159, R160, R327, R328). -/
def execRefProduct (core : BitVec 9) (id : Nat) (s : State) : Out :=
  let c := core.toNat
  .next (match (s.core c).products.find? (fun p => p.id == id && p.reference && p.stage == 1) with
    | none => s
    | some p =>
      if s.goesOn c then
        let out := s.attempt c p.cmd p.input p.mode 0
        (((s.bump R.vec_REF_PROD 1 c).bump R.vec_REF_CYC (s.refCycles c p.cmd) c).updProd c id
          (fun q => { q with stage := 3, groups := out.groups })).syncMx c
      else s)

/-- Writing WS_SEL copies the selected entry into WS_DATA0 to WS_DATA3, and its tenant into WS_TENANT (R198, R541). -/
def State.wsSelect (s : State) (c sel : Nat) : State :=
  let w := s.wset c sel
  let s := (s.wr R.mx_WS_SEL sel c).wr R.mx_WS_TENANT w.tenant c
  (w.words.zipIdx).foldl (fun s x => s.wr R.mx_WS_DATA x.1 c x.2) s

/-- WS_SEL. -/
def execWsSel (core : BitVec 9) (sel : BitVec 12) (s : State) : Out :=
  .next (if s.hostOk then s.wsSelect core.toNat sel.toNat else s)

end Sys2Proof.Machine
end

