-- ==== Sys2Proof/Machine/Testing.lean ====
section
/-! DEFINITION. Field testing (chapter 21): the witness and tile parts of audits, glean requests and their kernels. -/

namespace Sys2Proof.Machine

/-! ### Audits (R636 to R642) -/

/-- The witness window of a core's frame in flight, in the tick in progress (R637): the cycle at which it begins, in the first tick of an audit
frame whose witness part has neither run nor fallen away. -/
def State.windowAt (s : State) (c : Nat) : Option Nat :=
  match s.enabledOwner c with
  | none => none
  | some p => match (s.part p).frame with
    | none => none
    | some f => if f.audit && f.admitTick == s.tickNum && (s.core c).auditing.any (fun a => a.witness == 0 && a.frame == f.seq.toNat) then
        some (s.rd R.cslot_CAL_AT p) else none

/-- Nothing stands in the way of pulses that a test makes in a slot (R245, R248, R609). -/
def State.slotIdle (s : State) (c : Nat) : Bool :=
  !s.matrixBusy c && (s.core c).flip.isNone && !s.flag R.cal_RUNNING c && !s.flag R.gov_HOLD

/-- AUDIT_WITNESS: the witness part has run in its 512 cycles from c CAL_AT on, with the corrected results of the columns that do not read e_p
exactly (R637). It starts under the rules of a calibration run and is abandoned under them (R245, R246, R609): one that has started later, or
that a product has met, has not run. The cycle offset stands at its end. -/
def execAuditWitness (core : BitVec 9) (meas : List (BitVec 6 × BitVec 10 × Int)) (s : State) : Out :=
  let c := core.toNat
  .next (match s.windowAt c, (s.core c).auditing.find? (fun a => a.witness == 0) with
    | some at_, some a =>
      if s.alive && decide (s.cyc ≤ at_ + 512) && s.slotIdle c then
        let p := 1 + (s.rd R.aud_AUD_PASS c + s.rd R.aud_AUD_FAIL c) % 15
        let s := (s.wr R.tick_CYCLE (at_ + 512)).updAudits c (fun l => l.map (fun x => if x.witness = 0 then { x with witness := 1 } else x))
        (s.auditPart c a.frame 1 (s.witnessCols c p meas)).endAudits c
      else s
    | _, _ => s)

/-- AUDIT_TILE: the integer lanes have formed r for the captured product, and every column is compared (R639, R109). -/
def execAuditTile (core : BitVec 9) (s : State) : Out :=
  let c := core.toNat
  .next (match (s.core c).auditing.find? (fun a => a.tile == 2) with
    | none => s
    | some a => match a.cap with
      | none => s
      | some (pr, octs) =>
        if !s.alive then s
        else
          let cols := octs.flatMap (s.octetCols c pr)
          let s := s.updAudits c (fun l => l.map (fun x => if x.tile = 2 then { x with tile := 3, cap := none } else x))
          (s.auditPart c a.frame 2 cols).endAudits c)

/-! ### Gleaning (R644 to R649) -/

/-- The glean request of a core. -/
def State.glean (s : State) (c : Nat) : Option Glean := s.gleans.find? (fun g => g.core == c)

/-- GL_STATE, GL_FAIL and GL_DETAIL show the request of GL_CORE (R651). -/
def State.syncGlean (s : State) : State :=
  match s.glean (s.rd R.glean_GL_CORE) with
  | none => ((s.wr R.glean_GL_STATE 0).wr R.glean_GL_FAIL 0).wr R.glean_GL_DETAIL 0
  | some g =>
    let s := if g.dropped then s.wr R.glean_GL_RES 4 else s
    ((s.wr R.glean_GL_STATE (if g.dropped then 0 else if g.done then 3 else if g.started then 2 else 1)).wr R.glean_GL_FAIL g.fail).wr
      R.glean_GL_DETAIL g.detail

/-- Changes the request of a core. -/
def State.updGlean (s : State) (c : Nat) (f : Glean → Glean) : State :=
  ({ s with gleans := s.gleans.map (fun g => if g.core = c then f g else g) } : State).syncGlean

/-- A request that is neither done nor dropped. -/
def Glean.open_ (g : Glean) : Bool := !g.done && !g.dropped

/-- The queued requests of the cores a predicate names are dropped with GL_RES 4 (*Test events that meet*). -/
def State.dropGleans (s : State) (which : Nat → Bool) : State :=
  ({ s with gleans := s.gleans.map (fun g => if g.open_ && which g.core then { g with dropped := true } else g) } : State).syncGlean

/-- GL_GO: a request is queued or refused (R644, R645). -/
def State.gleanGo (s : State) : State :=
  let c := s.rd R.glean_GL_CORE
  let suite := s.rd R.glean_GL_SUITE
  let live := s.gleans.filter Glean.open_
  if live.any (fun g => g.core == c) then s.wr R.glean_GL_RES 1
  else if 64 ≤ live.length then s.wr R.glean_GL_RES 2
  else if bitOf suite 7 && (s.enabledOwner c).isSome then s.wr R.glean_GL_RES 3
  else
    let g : Glean := { core := c, suite := suite, deadline := s.rd R.glean_GL_DEADLINE, fail := 0, detail := 0, started := false, taken := false, done := false, dropped := false, ran := 0 }
    (({ s with gleans := s.gleans.filter (fun x => x.core != c) ++ [g] } : State).wr R.glean_GL_RES 0).syncGlean

/-- GL_GO. -/
def execGlGo (s : State) : Out := .next (if s.hostOk then s.gleanGo else s)

/-- Requests are taken at a tick edge; the deadline counts from the frame in flight then (R644, R646). A request for no kernel is done. -/
def State.gleanTake (s : State) : State :=
  ({ s with gleans := s.gleans.map (fun g => if g.taken then g else { g with
      taken := true, done := g.suite == 0
      deadline := match s.enabledOwner g.core with
        | some p => s.frameSeq p + g.deadline
        | none => g.deadline }) } : State).syncGlean

/-- How long a slot kernel runs (R644), in cycles. -/
def kernelCycles (k : Nat) : Nat := if k = 0 then 2304 else 1280

/-- The end of a slot kernel that runs in a slot of the tick in progress: in the witness window of an audit frame, one kernel for a window, or from c 256
on a core of no enabled partition (R645). -/
def State.kernelEnd (s : State) (c k : Nat) : Option Nat :=
  let end_ := if (s.enabledOwner c).isNone then some (256 + kernelCycles k)
    else if (s.core c).slotRan then none else (s.windowAt c).map (· + kernelCycles k)
  match end_ with
  | some n => if decide (s.cyc < n) && s.slotIdle c then some n else none
  | none => none

/-- A kernel may run now on a core (R645, R647): a background kernel at once; a slot kernel in a slot, in the audit frame's window in place of the audit,
or in a maintenance frame; a maintenance kernel in a maintenance frame, after an overdue calibration run; any on a core of no enabled
partition. -/
def State.kernelMay (s : State) (c k : Nat) : Bool :=
  match s.enabledOwner c with
  | none => decide (2 < k) || (s.kernelEnd c k).isSome
  | some p =>
    if k = 3 then true
    else if k = 7 then false
    else match (s.part p).frame with
      | none => false
      | some f =>
        let calFirst := s.flag R.cal_DUE c && decide (1024 ≤ (s.core c).cal.dueFrames)
        if f.maint then !calFirst && (s.core c).flip.isNone && (decide (2 < k) || s.slotIdle c)
        else decide (k ≤ 2) && (s.kernelEnd c k).isSome

/-- The kernel of a request that runs next: the lowest one pending that may run (R644, R645). -/
def State.nextKernel (s : State) (g : Glean) : Option Nat := (List.range 8).find? (fun k => bitOf g.suite k && s.kernelMay g.core k)

/-- A request whose kernels have all run is done, and PF vector 7 is sent (R644). -/
def State.gleanDone (s : State) (c : Nat) : State :=
  match s.glean c with
  | some g => if g.open_ && g.taken && g.suite == 0 then (s.updGlean c (fun g => { g with done := true })).msix 0 7 else s
  | none => s

/-- The core's partition is in a maintenance frame. -/
def State.inMaint (s : State) (c : Nat) : Bool :=
  match s.enabledOwner c with
  | some p => match (s.part p).frame with
    | some f => f.maint
    | none => false
  | none => false

/-- GLEANS counts a kernel of a partition's core (R651). -/
def State.countKernel (s : State) (owner : Option Nat) : State :=
  match owner with
  | some p => s.bump R.ptest_GLEANS 1 p
  | none => s

/-- The cycle offset stands at the end of a kernel that has run in a slot; in a maintenance frame kernels follow one another. -/
def State.passSlot (s : State) (c k : Nat) (maint : Bool) : State :=
  if maint then s
  else match s.kernelEnd c k with
    | some n => s.wr R.tick_CYCLE n
    | none => s

/-- GLEAN_KERNEL: the next kernel of a core's request has run, and failed at the item named if there is one (R644, R645). In a maintenance frame
the request ends with the frame's publication. LOFT leaves the Loft zero. -/
def execGleanKernel (core : BitVec 9) (fails : Option Word) (s : State) : Out :=
  let c := core.toNat
  .next (match s.glean c with
    | none => s
    | some g =>
      if !(s.alive && g.open_ && g.taken) then s
      else match s.nextKernel g with
        | none => s
        | some k =>
          let owner := s.enabledOwner c
          let inMaint := s.inMaint c
          let s := match fails with
            | some d => (s.updGlean c (fun g => { g with fail := g.fail ||| 2 ^ k, detail := if g.fail = 0 then d.toNat else g.detail })).logCore
                1 0x11 0 c 0xFFFF k
            | none => s
          let s := s.updGlean c (fun g => { g with suite := g.suite - 2 ^ k, started := true, ran := g.ran ||| 2 ^ k })
          let s := s.countKernel owner
          let s := if k ≤ 2 then ((s.passSlot c k inMaint).updCore c (fun q => { q with slotRan := true })).skipWitness c false else s
          let s := if k = 7 then s.scrubLoft c else s
          (if inMaint then s else s.gleanDone c).endAudits c)

/-- A core has an overdue item (R646): a kernel past its deadline, or a calibration run due for 1,024 frames. -/
def State.overdue (s : State) (c seq : Nat) : Bool :=
  (s.flag R.cal_DUE c && decide (1024 ≤ (s.core c).cal.dueFrames)) ||
    (match s.glean c with
      | some g => g.open_ && g.taken && g.suite != 0 && decide (g.deadline ≤ seq)
      | none => false)

end Sys2Proof.Machine
end

