-- ==== Sys2Proof/Machine/Tier.lean ====
section
/-! DEFINITION. The tier commands and the moves between Granary and Silo (R370 to R383, R694). -/

namespace Sys2Proof.Machine

/-! ### Deadlines (R372) -/

/-- The cycles from a tick to another, over the period changes between them; `h` is the history, latest first. -/
def cyclesOver (a now log2 : Nat) : List (Nat × Nat) → Nat
  | [] => (now - a) * 2 ^ log2
  | (t, old) :: h => if t ≤ a then (now - a) * 2 ^ log2 else (now - t) * 2 ^ log2 + cyclesOver a t old h

/-- The cycles since a tick. -/
def State.elapsed (s : State) (a : Nat) : Nat := cyclesOver a s.tickNum (s.rd R.tick_PERIOD_LOG2) s.tick.history

/-- The idle deadline of a request is reached (R372): IDLE_MS as it was when the deadline was computed, in cycles of 0.5 ns. -/
def State.idleDue (s : State) (n : Nat) : Bool :=
  decide (Tbl.get 2000 s.tier.idleMs n * 2000000 ≤ s.elapsed (s.req n).lastTick)

/-- The time to live of a parked request is over (R372). -/
def State.ttlDue (s : State) (n : Nat) : Bool := decide ((s.req n).ttl * 2000000000 ≤ s.elapsed (s.req n).stateTick)

/-! ### Parks and returns -/

/-- The live pages of a request that the Granary holds (R367). -/
def State.livePages (s : State) (p n : Nat) : List Nat :=
  (s.mappedPages p n).filter (fun l => decide (0 < s.liveSlots p n l))

/-- Puts a move in its place: moves stand in the order in which they started, and within one edge in ascending request order (R377). -/
def addMove (m : Move) (l : List Move) : List Move :=
  let before := fun (x : Move) => decide (x.start < m.start) || (x.start == m.start && decide (x.req < m.req))
  l.takeWhile before ++ m :: l.dropWhile before

/-- Starts a park, or reports SILO_FULL once per idle period (R370, R373). -/
def State.beginPark (s : State) (p n : Nat) : State :=
  let live := s.livePages p n
  let free := s.freeSilo p
  if free.length < live.length then
    if s.tier.siloFull.contains n then s
    else (s.updTier (fun t => { t with siloFull := t.siloFull ++ [n] })).tierEvent p n 0x0A 0
  else
    let left := (live.zip free).map (fun x => ({ page := x.1, silo := x.2, crc := 0, psn := false
                                                 gran := (s.mapEnt p n x.1).loc } : MovedPage))
    ((s.updTier (fun t => { t with
      moves := addMove ⟨n, true, left, [], true, false, false, s.tickNum⟩ t.moves
      silo := left.foldl (fun m x => Marks.put m (siloKey p x.silo) true) t.silo })).setTier n 3).syncTier p

/-- A park is cancelled: the request is RESIDENT again and its Silo pages are free (R370). -/
def State.cancelPark (s : State) (p n : Nat) : State :=
  ((s.dropMove p n).setTier n 2).tierEvent p n 0x04 0

/-- A return is asked for (R370): it begins once the pool covers it. -/
def State.askReturn (s : State) (n : Nat) : State :=
  (s.updTier (fun t => { t with moves := addMove ⟨n, false, [], [], false, false, false, s.tickNum⟩ t.moves })).setTier n 5

/-! ### Tier commands (R382, R383, R694) -/

/-- A 32-bit pattern is a finite FP32 number. -/
def finite32 (v : Nat) : Bool := v / 2 ^ 23 % 256 != 255

/-- The SAMPLER field keeps its limits (R396). -/
def samplerOk (b : List Byte) : Bool :=
  let f := fun (o n : Nat) => leNat ((b.drop o).take n)
  let temp := f 0 4
  let topP := f 4 4
  let rep := f 12 4
  finite32 temp && (temp < 2 ^ 31 || temp == 2 ^ 31) &&
  decide (0 < topP) && decide (topP ≤ 0x3F800000) &&
  decide (f 8 2 ≤ 1024) && decide (f 10 1 ≤ 8) && decide (f 11 1 ≤ f 10 1) &&
  finite32 rep && decide (0 < rep) && decide (rep < 2 ^ 31) && finite32 (f 16 4) && finite32 (f 20 4) &&
  decide (f 24 1 < 4) && decide (f 25 1 ≤ 4) && f 26 2 == 0 &&
  (List.range 4).all (fun i => (b.getD (31 + 4 * i) 0) == 0) && (List.range 20).all (fun i => (b.getD (44 + i) 0) == 0)

/-- Entry `i` of the count table whose bytes are given: USED, bits [30:24], token, count (R397). -/
def countEnt (b : List Byte) (i : Nat) : Bool × Nat × Nat × Nat :=
  let v := leNat ((b.drop (8 * i)).take 8)
  (bitOf v 31, bitsOf v 24 7, bitsOf v 0 24, bitsOf v 32 32)

/-- The home entry of a token (R397). -/
def countHome (t : Nat) : Nat := (t * 0x9E3779B1) % 2 ^ 32 / 2 ^ 20

/-- Probes a count table from entry `i`: the entry of a token, or the first free one; `n` bounds the probe. -/
def probeCounts (ent : Nat → Bool × Nat × Nat × Nat) (t i : Nat) : Nat → Option Nat
  | 0 => none
  | n + 1 => let e := ent (i % 4096)
             if !e.1 || e.2.2.1 == t then some (i % 4096) else probeCounts ent t (i + 1) n

/-- A count table that the host supplies keeps R398: every USED entry is reached from its home, no token twice, bits [30:24]
clear. -/
def countsOk (b : List Byte) : Bool :=
  (List.range 4096).all (fun i =>
    let e := countEnt b i
    e.2.1 == 0 && (!e.1 || probeCounts (countEnt b) e.2.2.1 (countHome e.2.2.1) 4096 == some i))

/-- The `n` granules of a linear range from granule `g` all exist. -/
def State.linAll (s : State) (p g n : Nat) : Bool :=
  n == 0 || (List.range ((g + n - 1) / 32768 - g / 32768 + 1)).all (fun i =>
    (bushelOf (s.extents p) (g / 32768 + i)).isSome)

/-- `n` bytes of a partition's linear space from granule `g`. -/
def State.linBytes (s : State) (p g n : Nat) : List Byte :=
  (List.range (ceilDiv n 64)).flatMap (fun i => match s.linGran p (g + i) with
    | some d => s.granBytes (64 * d) 64
    | none => List.replicate 64 0)

/-- The granules of an OPEN image lie in the space and are clean (R383). -/
def State.imageGood (s : State) (p addr : Nat) : Bool :=
  (List.range 4).all (fun i => match s.linGran p (addr + i) with
    | some d => !s.granBad d
    | none => false)

/-- The entry that OPEN installs from an image (R383). -/
def openEntry (s : State) (p n : Nat) (b : List Byte) : ReqEntry :=
  let f := fun (o k : Nat) => leNat ((b.drop o).take k)
  { tstate := 1, owner := p, flags := f 3 1 / 4 % 4 * 4, lenMax := f 8 4, seed := f 16 8, stateTick := s.tickNum
    ttl := if f 36 4 = 0 then s.rd R.ptier_TTL_DEF p else f 36 4
    pmap := f 48 5 % 2 ^ 36, counts := f 56 5 % 2 ^ 36, promo := (520 * 2097152 + 256 * n) / 64
    kcur := f 139 1, sampler := (b.drop 128).take 64, hostTag := (b.drop 192).take 32 }

/-- The code that refuses an OPEN, the first that applies (R383, R368, R396, R398); 0 when it is accepted. -/
def State.openCode (s : State) (p n addr : Nat) : Nat :=
  let b := s.linBytes p addr 256
  let f := fun (o k : Nat) => leNat ((b.drop o).take k)
  if (s.req n).tstate != 0 then 0x62
  else if !s.imageGood p addr || !imageOk b || decide (86400 < f 36 4) then 0x63
  else if s.pagePos p * ((s.viewPages p - 1) / s.kvStreams p) < f 8 4 then 0x64
  else if !samplerOk ((b.drop 128).take 64) then 0x6B
  else if !s.linAll p (f 48 5 % 2 ^ 36) (ceilDiv (8 * s.viewPages p) 64) || !s.linAll p (f 56 5 % 2 ^ 36) 512 then 0x6D
  else if bitOf (f 152 1) 1 && !countsOk (s.linBytes p (f 56 5 % 2 ^ 36) 32768) then 0x6C
  else 0

/-- OPEN accepted: the entry is installed OPENING, and the Sillage gets its OPEN record. -/
def State.openReq (s : State) (p n addr : Nat) : State :=
  let s := s.updReq n (fun _ => openEntry s p n (s.linBytes p addr 256))
  let s := s.updTier (fun t => { t with opening := t.opening ++ [n], siloFull := t.siloFull.filter (· != n) })
  let s := s.setIdle p n
  s.trailEv p 0x04 5 ((20, 2, n) :: ((s.req n).bytes.zipIdx).map (fun x => (60 + x.2, 1, x.1.toNat)))

/-- The reads of an OPEN: its image, and the count table it keeps (R383, R398), so that an error in them is found (R426). -/
def State.readOpen (s : State) (p n addr : Nat) : State :=
  if (s.req n).tstate != 0 then s
  else
    let s := (s.readAll ((List.range 4).map (fun i => s.linGran p (addr + i)))).1
    let b := s.linBytes p addr 256
    let cnt := leNat ((b.drop 56).take 5) % 2 ^ 36
    if s.openCode p n addr = 0 && bitOf (leNat ((b.drop 152).take 1)) 1 then
      (s.readAll ((List.range 512).map (fun i => s.linGran p (cnt + i)))).1
    else s

/-- The operation of a tier command on a request of partition p: the refusal code (0 accepted) and the state after it. -/
def State.tierOp (s : State) (op p n arg addr : Nat) : Nat × State :=
  let e := s.req n
  match op with
  | 1 => let s := s.readOpen p n addr
         let c := s.openCode p n addr
         (c, if c = 0 then s.openReq p n addr else s)
  | 2 => if e.tstate = 0 then (0x65, s)
         else (0, s.updTier (fun t => { t with closing := if t.closing.contains n then t.closing else t.closing ++ [n] }))
  | 3 => if e.tstate = 2 then (0, s.beginPark p n) else (0x65, s)
  | 4 => if e.tstate = 3 then (0, s.cancelPark p n) else if e.tstate = 4 then (0, s.askReturn n) else (0x65, s)
  | 5 => if e.tstate = 0 ∨ 5 < e.tstate then (0x65, s)
         else if 86400 < arg then (0x63, s)
         else (0, s.updReq n (fun e => { e with ttl := if arg = 0 then s.rd R.ptier_TTL_DEF p else arg }))
  | 6 => if e.tstate = 0 ∨ 5 < e.tstate then (0x65, s)
         else (0, s.updReq n (fun e => { e with flags := e.flags % 8 + 8 * (arg % 2) }))
  | _ => (0x66, s)

/-- HRES and HRES_CODE of a function's tier command registers: every function has its own (R382, R507, log entry 53). -/
def State.tierRes (s : State) (fn res code : Nat) : State :=
  if fn = 0 then (s.wr R.tm_HRES res).wr R.tm_HRES_CODE code
  else (s.wr R.live_V_HRES res fn).wr R.live_V_HRES_CODE code fn

/-- Word `i` of a function's tier command. -/
def State.tierWord (s : State) (fn i : Nat) : Nat := if fn = 0 then s.rd R.tm_TM_HCMD 0 i else s.rd R.live_V_HCMD fn i

/-- 1 written to TM_HGO: the command waits for an edge, or is ignored while one waits (R382). -/
def State.tierGo (s : State) (fn off : Nat) : State :=
  if s.tier.cmds.contains fn then s.hae 5 fn 0 true 4 off 1
  else (s.updTier (fun t => { t with cmds := t.cmds ++ [fn] })).tierRes fn 1 0

/-- A tier command of a function (R382): OP first, then REQ within the caller's range, then the operation. The physical
function may name any request of an enabled partition's range, or one whose entry is in use. -/
def State.tierCommand (s : State) (fn op n arg addr : Nat) : State :=
  let inR := if fn = 0 then (s.reqOwner n).isSome || (s.req n).tstate != 0 else s.inRange (fn - 1) n
  let p := if fn = 0 then s.reqPart n else fn - 1
  let rd := s.entryRead n
  let r := if op = 0 ∨ 6 < op then (0x66, s)
    else if !inR then (0x61, s)
    else if rd.2 then (0x65, rd.1.entryFail n)
    else rd.1.tierOp op p n arg addr
  (r.2.tierRes fn (if r.1 = 0 then 2 else 3) r.1).msix fn (if fn = 0 then 5 else 4)

/-- A tier command from its row of the table, taken at a tick edge. -/
def State.tierRow (s : State) (fn op n arg addr : Nat) : State :=
  if s.alive && s.booted then s.tierCommand fn op n arg addr else s

/-- OPEN. -/
def execOpenCmd (fn : BitVec 7) (req : BitVec 16) (addr : BitVec 36) (s : State) : Out :=
  .next (s.tierRow fn.toNat 1 req.toNat 0 addr.toNat)

/-- CLOSE. -/
def execClose (fn : BitVec 7) (req : BitVec 16) (s : State) : Out := .next (s.tierRow fn.toNat 2 req.toNat 0 0)

/-- PARK. -/
def execParkCmd (fn : BitVec 7) (req : BitVec 16) (s : State) : Out := .next (s.tierRow fn.toNat 3 req.toNat 0 0)

/-- RESUME. -/
def execResume (fn : BitVec 7) (req : BitVec 16) (s : State) : Out := .next (s.tierRow fn.toNat 4 req.toNat 0 0)

/-- SET_TTL (R694). -/
def execSetTtl (fn : BitVec 7) (req : BitVec 16) (seconds : BitVec 32) (s : State) : Out :=
  .next (s.tierRow fn.toNat 5 req.toNat seconds.toNat 0)

/-- PIN (R694). -/
def execPin (fn : BitVec 7) (req : BitVec 16) (pinned : Bool) (s : State) : Out :=
  .next (s.tierRow fn.toNat 6 req.toNat (b2n pinned) 0)

/-! ### State changes that fall due (R370) -/

/-- The zeroing of an OPEN has ended: page map, promotion block and, without CNT_KEEP, count table are zero, and the request is
RESIDENT (R370, R383, R398). -/
def State.openDone (s : State) (p n : Nat) : State :=
  let e := s.req n
  let zero := fun (s : State) (g k : Nat) => (List.range k).foldl (fun s i => match s.linGran p (g + i) with
    | some d => s.zeroGrans d 1
    | none => s) s
  let s := zero s e.pmap (ceilDiv (8 * s.viewPages p) 64)
  let s := if bitOf (e.sampler.getD 24 0).toNat 1 then s else zero s e.counts 512
  let s := s.zeroGrans (520 * 32768 + 4 * n) 4
  ((s.updTier (fun t => { t with opening := t.opening.filter (· != n) })).setTier n 2).tierEvent p n 0x01 0

/-- OPEN_DONE. -/
def execOpenDone (req : BitVec 16) (s : State) : Out :=
  let n := req.toNat
  .next (if s.alive && (s.req n).tstate == 1 then s.openDone (s.reqPart n) n else s)

/-- A request reaches its idle deadline (R370, R372). -/
def execIdleDeadline (req : BitVec 16) (s : State) : Out :=
  let n := req.toNat
  let p := s.reqPart n
  let e := s.req n
  .next (if s.alive && e.tstate == 2 && s.flag R.ptier_AUTO_PARK p && !bitOf e.flags 3 && s.idleDue n && !s.tier.rewrite.contains n then
    let r := s.checkReq n
    if r.2 then r.1.beginPark p n else r.1
  else s)

/-- A parked request reaches its time to live (R370, R372). -/
def execTtlDeadline (req : BitVec 16) (s : State) : Out :=
  let n := req.toNat
  let p := s.reqPart n
  .next (if s.alive && (s.req n).tstate == 4 && s.ttlDue n && !s.tier.rewrite.contains n then
    let r := s.checkReq n
    let k := (s.req n).pagesS
    if r.2 then (((r.1.freeSiloPages p n).setTier n 6).bump R.ptier_EXPIRIES 1 p).tierEvent p n 0x05 k else r.1
  else s)

/-- The 65,536 bytes that a park writes to the Silo for a page: its live key and value rows, zeros elsewhere (R367). -/
def State.parkBytes (s : State) (p n l g : Nat) : List Byte :=
  let k := 64 * s.liveSlots p n l * s.kvRow p
  let half := fun (o : Nat) => s.granBytes (65536 * g + o) k ++ List.replicate (32768 - k) 0
  half 0 ++ half 32768

/-- One page of a park is written to the Silo, as a write of the partition's function (R367, R373, R380): the granules of its live rows are
read, and PSN tells of a poisoned granule anywhere in the page (R363). -/
def State.parkPage (s : State) (p n : Nat) (x : MovedPage) : State × MovedPage :=
  let k := s.liveSlots p n x.page * s.kvRow p
  let r := s.readAll ((List.range k ++ (List.range k).map (512 + ·)).map (fun i => some (1024 * x.gran + i)))
  let s := r.1
  let bs := s.parkBytes p n x.page x.gran
  let psn := !r.2 || (List.range 1024).any (fun i => s.granBad (1024 * x.gran + i))
  ((s.sendHost (.bytes (p + 1) (s.siloAddr p x.silo) bs)).bump R.tm_BYTES_OUT, { x with crc := crc32c bs, psn := psn })

/-- One page of a return is read from the Silo and checked; a page with PSN lands poisoned whole (R373, R377). -/
def State.returnPage (s : State) (p : Nat) (x : MovedPage) : State × Bool :=
  let bs := s.mem.host.bytes (s.siloAddr p x.silo) 65536
  let s := (List.range 1024).foldl (fun s i => s.writeGran (1024 * x.gran + i) ((bs.drop (64 * i)).take 64) x.psn) s
  (s.bump R.tm_BYTES_IN, crc32c bs == x.crc)

/-- Changes the move of a request. -/
def State.updMove (s : State) (n : Nat) (f : Move → Move) : State :=
  s.updTier (fun t => { t with moves := t.moves.map (fun m => if m.req = n then f m else m) })

/-- A request's move has copied the last page. -/
def State.setMover (s : State) (n : Nat) : State := s.updTier (fun t => { t with mover := some n })

/-- A move has a page to copy; a function whose writes are held moves nothing. -/
def State.mayMove (s : State) (m : Move) : Bool :=
  m.begun && !m.bad && !m.left.isEmpty && !s.fnBlocked (s.reqPart m.req + 1)

/-- The move whose turn it is (R377): the next in the order of their starts after the one that copied the last page, round and round. -/
def State.nextMove (s : State) : Option Move :=
  let after := match s.tier.mover with
    | some k => (s.tier.moves.dropWhile (fun m => m.req != k)).drop 1
    | none => []
  (after ++ s.tier.moves).find? s.mayMove

/-- One page of a request's move is copied, in its turn (R377). -/
def execTierPageMove (req : BitVec 16) (s : State) : Out :=
  let n := req.toNat
  let p := s.reqPart n
  .next (match s.nextMove with
    | none => s
    | some m =>
      match m.left with
      | [] => s
      | x :: rest =>
        if !s.alive || m.req != n then s
        else if m.park then
          let r := s.parkPage p n x
          (r.1.updMove n (fun m => { m with left := rest, done := m.done ++ [r.2] })).setMover n
        else
          let r := s.returnPage p x
          (r.1.updMove n (fun m => { m with left := rest, done := m.done ++ [x], bad := !r.2 })).setMover n)

/-- The last page of a park is written and the flush read returned clean: the request is PARKED (R370, R371). -/
def State.parkDone (s : State) (p n : Nat) (m : Move) : State :=
  let s := s.updTier (fun t => { t with moves := t.moves.filter (fun x => x.req != n) })
  let s := s.freeGranary p n
  let s := m.done.foldl (fun s x => s.putMapEnt p n x.page ⟨x.silo, 2, x.psn, x.crc⟩) s
  let s := (s.updReq n (fun e => { e with pagesS := m.done.length })).setTier n 4
  ((s.bump R.ptier_PARKS 1 p).tierEvent p n 0x03 m.done.length).syncTier p

/-- PARK_DONE. -/
def execParkDone (req : BitVec 16) (s : State) : Out :=
  let n := req.toNat
  .next (match s.tier.moves.find? (fun m => m.req == n) with
    | none => s
    | some m => if s.alive && m.park && m.left.isEmpty && !m.cancel then s.parkDone (s.reqPart n) n m else s)

/-- A flush read that fails or exceeds 50 ms aborts the park (R370). -/
def execParkAbort (req : BitVec 16) (s : State) : Out :=
  let n := req.toNat
  let p := s.reqPart n
  .next (match s.tier.moves.find? (fun m => m.req == n) with
    | none => s
    | some m =>
      if s.alive && m.park then
        ((((s.dropMove p n).setTier n 2).wr R.ptier_SILO_ERR 1 p).tierEvent p n 0x06 0).logErr 1 0x08 0x68 p 0 n
      else s)

/-- A return begins copying once the pool covers all its pages, which it reserves (R373): it starts at that edge. -/
def execReturnStart (req : BitVec 16) (s : State) : Out :=
  let n := req.toNat
  let p := s.reqPart n
  .next (match s.tier.moves.find? (fun m => m.req == n) with
    | none => s
    | some m =>
      if !s.alive || m.park || m.begun then s
      else
        let ps := (List.range (s.viewPages p)).filter (fun l => decide (0 < l) && (s.mapEnt p n l).where_ == 2)
        let free := s.freePages p
        if free.length < ps.length then s
        else
          let left := (ps.zip free).map (fun x =>
            let e := s.mapEnt p n x.1
            ({ page := x.1, silo := e.loc, crc := e.schk, psn := e.psn, gran := x.2 } : MovedPage))
          let s := s.updTier (fun t => { t with used := left.foldl (fun m x => Marks.put m x.gran true) t.used })
          let s := left.foldl (fun s x => s.putMapEnt p n x.page ⟨x.gran, 3, x.psn, x.crc⟩) s
          (s.updTier (fun t => { t with
            moves := addMove { m with left := left, begun := true, start := s.tickNum } (t.moves.filter (fun x => x.req != n)) })).syncTier p)

/-- Every page has landed and matched SCHK: the request is RESIDENT and its Silo pages are free (R370, R371). -/
def State.returnDone (s : State) (p n : Nat) (m : Move) : State :=
  let s := s.updTier (fun t => { t with
    moves := t.moves.filter (fun x => x.req != n)
    silo := m.done.foldl (fun k x => Marks.put k (siloKey p x.silo) false) t.silo
    siloFull := t.siloFull.filter (· != n) })
  let s := m.done.foldl (fun s x => s.putMapEnt p n x.page ⟨x.gran, 1, false, 0⟩) s
  let s := (s.setTier n 2).updReq n (fun e => { e with lastTick := s.tickNum, pagesG := m.done.length, pagesS := 0 })
  let s := s.setIdle p n
  ((s.bump R.ptier_RETURNS 1 p).tierEvent p n 0x04 m.done.length).syncTier p

/-- RETURN_DONE. -/
def execReturnDone (req : BitVec 16) (s : State) : Out :=
  let n := req.toNat
  .next (match s.tier.moves.find? (fun m => m.req == n) with
    | none => s
    | some m =>
      if s.alive && !m.park && m.begun && m.left.isEmpty && !m.bad then s.returnDone (s.reqPart n) n m else s)

/-- A Silo read that fails, times out or fails SCHK: the request becomes FAILED and all its pages are freed (R370). -/
def execReturnFail (req : BitVec 16) (s : State) : Out :=
  let n := req.toNat
  let p := s.reqPart n
  .next (match s.tier.moves.find? (fun m => m.req == n) with
    | none => s
    | some m =>
      if s.alive && !m.park then
        let k := (s.req n).pagesS
        ((s.failReq p n).tierEvent p n 0x07 k).logErr 2 0x08 0x6A p 0 n
      else s)

/-! ### Pool pressure and host writes -/

/-- The RESIDENT requests of a partition that are not PINNED and have served no frame for 4 ticks, longest idle first (R379). -/
def State.idleRequests (s : State) (p : Nat) : List Nat :=
  let l := s.tier.reqs.filter (fun e => e.2.tstate == 2 && s.inRange p e.1 && !bitOf e.2.flags 3 &&
    decide (e.2.lastTick + 4 ≤ s.tickNum))
  (l.foldr (fun x acc => acc.takeWhile (fun y => decide (y.2.lastTick < x.2.lastTick)) ++ x ::
    acc.dropWhile (fun y => decide (y.2.lastTick < x.2.lastTick))) []).map (·.1)

/-- The Granary pages of a partition that the parks under way will free. -/
def State.freeing (s : State) (p : Nat) : Nat :=
  (s.tier.reqs.filter (fun e => e.2.tstate == 3 && s.inRange p e.1)).foldl (fun k e => k + e.2.pagesG) 0

/-- One PARK under pool pressure: none once POOL_FREE and the pages being freed reach POOL_LOW. -/
def State.pressPark (s : State) (p n : Nat) : State :=
  if s.rd R.ptier_POOL_LOW p ≤ s.rd R.ptier_POOL_FREE p + s.freeing p then s
  else
    let r := s.checkReq n
    if r.2 then r.1.beginPark p n else r.1

/-- Firmware parks idle requests until POOL_FREE and the pages being freed reach POOL_LOW (R379); it issues none while it hands over (R570). -/
def execPoolPressure (p : BitVec 6) (s : State) : Out :=
  let p := p.toNat
  .next (if s.alive && s.fwRuns && s.enabled p && decide (s.rd R.ptier_POOL_FREE p < s.rd R.ptier_POOL_LOW p) then
    (s.idleRequests p).foldl (fun s n => s.pressPark p n) s
  else s)

/-- A write to SILO_COUNT takes effect at the next edge and clears SILO_ERR (R381). -/
def State.siloWrite (s : State) (p v : Nat) : State :=
  (s.updTier (fun t => { t with siloCount := Tbl.put t.siloCount p v })).wr R.ptier_SILO_ERR 0 p

/-- SILO_COUNT_WRITE. -/
def execSiloCountWrite (p : BitVec 6) (value : BitVec 26) (s : State) : Out :=
  .next (if s.hostOk then s.siloWrite p.toNat value.toNat else s)

/-- Writing RQ_SEL copies the selected entry into RQ_DATA (R386). -/
def State.rqSelect (s : State) (n : Nat) : State :=
  let r := s.entryRead n
  let s := if r.2 then r.1.entryFail n else r.1
  let b := (s.req n).bytes
  (List.range 64).foldl (fun s i => s.wr R.tm_RQ_DATA (leNat ((b.drop (4 * i)).take 4)) 0 i) (s.wr R.tm_RQ_SEL n)

/-- RQ_SEL. -/
def execRqSel (sel : BitVec 16) (s : State) : Out := .next (if s.hostOk then s.rqSelect sel.toNat else s)

/-- What the tier manager does at c 0 of an edge (R376, R381, R359): entries that failed before it are rewritten FREE, SILO_COUNT writes take
effect, the host command is taken, and parks that a view store reached are cancelled. -/
def State.tierEdge (s : State) : State :=
  let s := s.rewriteEntries
  let s := s.tier.siloCount.foldl (fun s e => ((s.wr R.ptier_SILO_COUNT e.2 e.1).reclaimSilo e.1).syncTier e.1) s
  let s := s.updTier (fun t => { t with siloCount := [] })
  let s := match s.tier.cmds with
    | [] => s
    | fn :: rest =>
      let w := s.tierWord fn 0 + 2 ^ 32 * s.tierWord fn 1 + 2 ^ 64 * s.tierWord fn 2 + 2 ^ 96 * s.tierWord fn 3
      (s.updTier (fun t => { t with cmds := rest })).tierCommand fn (bitsOf w 0 8) (bitsOf w 16 16) (bitsOf w 32 32)
        (bitsOf w 64 36)
  (s.tier.moves.filter (fun m => m.park && m.cancel)).foldl (fun s m => s.cancelPark (s.reqPart m.req) m.req) s

/-- A CLOSE takes effect at the owner's publication edge (R370): the request is FREE and its pages are freed. -/
def State.closeReq (s : State) (p n : Nat) : State :=
  let e := s.req n
  let s := s.tierEvent p n 0x02 (e.pagesG + e.pagesS)
  let s := ((s.dropMove p n).freeGranary p n).freeSiloPages p n
  (s.updReq n (fun _ => {})).updTier (fun t => { t with
    closing := t.closing.filter (· != n), opening := t.opening.filter (· != n), poolEmpty := t.poolEmpty.filter (· != n) })

/-- The tier changes of a publication edge of a partition (R369, R370): requests whose store found the pool empty fail, and
closes take effect. -/
def State.tierPublish (s : State) (p : Nat) : State :=
  let mine := fun (n : Nat) => s.reqPart n == p
  let s := (s.tier.poolEmpty.filter mine).foldl (fun s n =>
    ((s.failReq p n).tierEvent p n 0x08 0).updTier (fun t => { t with poolEmpty := t.poolEmpty.filter (· != n) })) s
  (s.tier.closing.filter mine).foldl (fun s n => s.closeReq p n) s

end Sys2Proof.Machine
end

