-- ==== Sys2Proof/Machine/Trail.lean ====
section
/-! DEFINITION. The Sillage trail (R653 to R662): the bytes of a record, its place in the ring; the records of a re-run's source and
the tokens it forces (R663 to R667). -/

namespace Sys2Proof.Machine

/-! ### Writing -/

/-- A wide register pair. -/
def State.pair (s : State) (lo hi : Fld) (i : Nat) : Nat := s.rd lo i + 2 ^ 32 * s.rd hi i

/-- The units of a partition's trail ring. -/
def State.trSize (s : State) (p : Nat) : Nat := 2 ^ s.rd R.trail_TR_SIZE_LOG2 p

/-- Free units (R660). -/
def State.trFree (s : State) (p : Nat) : Nat :=
  s.trSize p - 1 - (s.rd R.trail_TR_WR p + s.trSize p - s.rd R.trail_TR_RD p % s.trSize p) % s.trSize p

/-- The bytes of a record (R654). -/
def State.recBytes (s : State) (p : Nat) (r : TrailRec) : List Byte :=
  withCheck (layout (64 * r.units - 4) ([(0, 1, r.type.toNat), (1, 1, r.units), (2, 1, p), (3, 1, b2n (s.part p).rpOn),
    (4, 4, s.rd R.trail_TR_RSEQ p), (8, 4, r.frame.toNat), (12, 6, s.tickNum)] ++ r.body))

/-- Writes a unit of the ring; a poisoned granule of the ring resets the partition (R633). -/
def State.putUnit (s : State) (p : Nat) (bs : List Byte) : State :=
  let at_ := s.rd R.trail_TR_WR p
  let s := match s.linGran p (s.pair R.trail_TR_BASE_LO R.trail_TR_BASE_HI p + at_) with
    | none => s
    | some d => if s.granBad d then s.partFatal 0x13 0 p 561 else s.writeGran d bs false
  s.wr R.trail_TR_WR ((at_ + 1) % s.trSize p) p

/-- Writes consecutive units. -/
def State.putUnits (s : State) (p : Nat) (bs : List Byte) (n : Nat) : State :=
  (List.range n).foldl (fun s i => s.putUnit p ((bs.drop (64 * i)).take 64)) s

/-- The units of padding before a record, which never crosses the end of the ring (R654). -/
def State.padFor (s : State) (p units : Nat) : Nat :=
  if s.trSize p < s.rd R.trail_TR_WR p + units then s.trSize p - s.rd R.trail_TR_WR p else 0

/-- Writes a record with its padding, which takes no record number. -/
def State.putRec (s : State) (p : Nat) (r : TrailRec) : State :=
  let pad := s.padFor p r.units
  let s := if pad = 0 then s else s.putUnits p (s.recBytes p { type := 0, units := pad, frame := r.frame, body := [] }) pad
  (s.putUnits p (s.recBytes p r) r.units).bump R.trail_TR_RSEQ 1 p

/-- A record fits the free space. -/
def State.recFits (s : State) (p : Nat) (r : TrailRec) : Bool := decide (s.padFor p r.units + r.units ≤ s.trFree p)

/-- Writes a record of a partition with a trail; one that does not fit is dropped and counted, and a LOST record comes first once
space returns (R661). -/
def State.writeRec (s : State) (p : Nat) (r : TrailRec) : State :=
  if !(s.part p).trailOn then s
  else
    let lost : TrailRec := { type := 0x0E, units := 1, frame := r.frame, body := [(20, 4, (s.part p).lostNow)] }
    let s := if 0 < (s.part p).lostNow ∧ s.recFits p lost then
        (s.putRec p lost).updPart p (fun q => { q with lostNow := 0 })
      else s
    if (s.part p).lostNow = 0 ∧ s.recFits p r then s.putRec p r
    else (s.bump R.trail_TR_LOST 1 p).updPart p (fun q => { q with lostNow := q.lostNow + 1 })

/-- The records fit together (R661). -/
def State.recsFit (s : State) (p : Nat) (rs : List TrailRec) : Bool :=
  !(s.part p).trailOn ||
    decide ((rs.foldl (fun (acc : Nat × Nat) r =>
      let pad := if s.trSize p < acc.1 + r.units then s.trSize p - acc.1 else 0
      ((acc.1 + pad + r.units) % s.trSize p, acc.2 + pad + r.units)) (s.rd R.trail_TR_WR p, 0)).2 ≤ s.trFree p)

/-! ### The source of a re-run -/

/-- `n` bytes of a partition's linear space from byte `b`. -/
def State.linRead (s : State) (p b n : Nat) : List Byte := (List.range n).map (fun i => BitVec.ofNat 8 (s.linLe p (b + i) 1))

/-- The first granule of the source. -/
def State.srcGran (s : State) (p : Nat) : Nat := s.pair R.rp_RP_SRC_LO R.rp_RP_SRC_HI p

/-- The source record at a unit; none beyond the source or where the check fails (R672). -/
def State.srcRec (s : State) (p u : Nat) : Option (List Byte) :=
  let n := s.linLe p (64 * (s.srcGran p + u) + 1) 1
  if n = 0 ∨ s.rd R.rp_RP_SRC_UNITS p < u + n then none
  else
    let b := s.linRead p (64 * (s.srcGran p + u)) (64 * n)
    if crc32c (b.take (64 * n - 4)) == leNat (b.drop (64 * n - 4)) then some b else none

/-- A number of `n` bytes in a record. -/
def recFld (b : List Byte) (off n : Nat) : Nat := leNat ((b.drop off).take n)

/-- The source records from a unit on, at most `n` of them. -/
def State.srcRecs (s : State) (p u : Nat) : Nat → List (List Byte)
  | 0 => []
  | n + 1 => match s.srcRec p u with
    | none => []
    | some b => b :: State.srcRecs s p (u + recFld b 1 1) n

/-- The token that a source COMMIT record forces at a token index (R667). -/
def commitToken (b : List Byte) (req j : Nat) : Option Nat :=
  let l := recFld b 34 4
  let n := recFld b 30 4
  let a := recFld b 24 1
  if recFld b 0 1 = 5 ∧ recFld b 20 2 = req ∧ recFld b 22 1 ≠ 1 ∧ !bitOf (recFld b 26 1) 3 then
    if recFld b 22 1 = 0 then
      if j ≤ l ∨ n < j then none
      else if j ≤ l + a then some (recFld b (38 + 3 * (j - l - 1)) 3)
      else some (recFld b (62 + 3 * a) 3)
    else if recFld b 22 1 = 2 ∧ j = n then some (recFld b 62 3) else none
  else none

/-- The token forced for a request at an index in a replay (R404, R667). -/
def State.forcedTok (s : State) (p req j : Nat) : Option Nat :=
  if !(s.part p).rpOn then none
  else
    let g := s.pair R.rp_RP_FORCE_LO R.rp_RP_FORCE_HI p
    let ent := fun (i o n : Nat) => s.linLe p (64 * g + 16 * i + o) n
    match (List.range (s.rd R.rp_RP_NFORCE p)).find? (fun i => ent i 0 2 == req && ent i 4 4 == j) with
    | some i => some (ent i 8 3)
    | none =>
      if s.flag R.rp_RP_FORCE_ALL p then
        (s.srcRecs p 0 (s.rd R.rp_RP_SRC_UNITS p)).findSome? (fun b => commitToken b req j)
      else none

end Sys2Proof.Machine
end

