-- ==== Sys2Proof/Machine/Admission.lean ====
section
/-! DEFINITION. Completion rings and admission (R508 to R518): the write-out of entries, the entries taken from the submission rings, and the
admission of a frame with its block and its frame headers (R268, R269, R512). -/

namespace Sys2Proof.Machine

/-! ### Completion rings (R515, R516, R518) -/

/-- A write-out vector: at most one message of it per edge (R516). -/
def State.edgeMsix (s : State) (fn v : Nat) : State :=
  if s.host.edgeVec.contains (fn, v) then s
  else (s.updHost (fun h => { h with edgeVec := h.edgeVec ++ [(fn, v)] })).msix fn v

/-- The entries of a completion ring. -/
def State.cqSize (s : State) (p c : Nat) : Nat := 2 ^ s.rd R.ring_CQ_SIZE_LOG2 p c

/-- Free space of a completion ring, with the head as it stood at the edge (R515). -/
def State.cqFree (s : State) (p c : Nat) : Nat :=
  let n := s.cqSize p c
  n - 1 - (s.rd R.ring_CQ_TAIL p c + n - (s.part p).cqHead.getD c 0 % n) % n

/-- One entry at the tail of a ring. -/
def State.cqEntry (s : State) (p c : Nat) (e : List Byte) : State :=
  let base := s.rd R.ring_CQ_BASE_LO p c / 4096 * 4096 + 2 ^ 32 * s.rd R.ring_CQ_BASE_HI p c
  let s := s.sendHost (.bytes (p + 1) (base + 32 * s.rd R.ring_CQ_TAIL p c) e)
  s.wr R.ring_CQ_TAIL ((s.rd R.ring_CQ_TAIL p c + 1) % s.cqSize p c) p c

/-- A write-out: the entries, the tail word, and the ring's message (R516). Nothing is written to a disabled ring (log entry 46). -/
def State.writeOut (s : State) (p c : Nat) (es : List (List Byte)) : State :=
  if es.isEmpty || !s.flag R.ring_CQ_EN p c then s
  else
    let s := es.foldl (fun s e => s.cqEntry p c e) s
    let s := s.sendHost (.bytes (p + 1) (s.rd R.ring_CQ_TAILPTR_LO p c + 2 ^ 32 * s.rd R.ring_CQ_TAILPTR_HI p c) (toLe 4 (s.rd R.ring_CQ_TAIL p c)))
    if s.flag R.ring_MSIX_EN p c then s.edgeMsix (p + 1) c else s

/-- A work completion (R516). -/
def State.completion (s : State) (kind flags req : Nat) (hostId : List Byte) (ntok : Nat) (toks : List Nat) (len : Nat) : List Byte :=
  toLe 1 kind ++ toLe 1 flags ++ toLe 2 req ++ hostId ++ toLe 6 s.tickNum ++ toLe 1 ntok ++ [0] ++
    (List.range 4).flatMap (fun i => toLe 3 (toks.getD i 0)) ++ toLe 4 len

/-- The tier events of an edge, in ascending request order; those that find CQ1 full are discarded and counted (R376, R384, R518). -/
def State.writeTierEvents (s : State) (p : Nat) : State :=
  let es := (s.part p).tierEvents
  if es.isEmpty then s
  else
    let reqOf := fun (e : List Byte) => leNat ((e.drop 2).take 2)
    let sorted := es.foldl (fun l e => l.takeWhile (fun x => decide (reqOf x ≤ reqOf e)) ++ e :: l.dropWhile (fun x => decide (reqOf x ≤ reqOf e))) []
    let n := s.cqFree p 1
    let s := s.updPart p (fun q => { q with tierEvents := [] })
    let s := if s.flag R.ring_CQ_EN p 1 then s.bump R.ring_CQ_LOST (sorted.length - n) p 1 else s
    s.writeOut p 1 (sorted.take n)

/-! ### Taking entries (R508, R510, R511, R374) -/

/-- The linear granule of an entry of a submission ring (R508). -/
def State.sqGran (s : State) (p r i : Nat) : Nat := 32768 * s.main p 40 4 + 2048 * r + i

/-- The entries of a submission ring that wait as sampled. -/
def State.sqWaiting (s : State) (p r : Nat) : Nat :=
  let n := 2 ^ s.rd R.ring_SQ_SIZE_LOG2 p r
  if s.flag R.ring_SQ_EN p r then ((s.part p).tails.getD r 0 % n + n - s.rd R.ring_SQ_HEAD p r % n) % n else 0

/-- The requests that an entry names (R510). -/
def entryReqs (b : List Byte) : List Nat := (List.range (leAtB b 1)).map (fun i => leNat ((b.drop (8 + 2 * i)).take 2))
where
  /-- NREQ, at most 8. -/
  leAtB (b : List Byte) (o : Nat) : Nat := min 8 ((b.getD o 0).toNat)

/-- CPL of an entry. -/
def entryCpl (b : List Byte) : Nat := (b.getD 2 0).toNat

/-- HOST_ID of an entry. -/
def entryHost (b : List Byte) : List Byte := (b.drop 4).take 4

/-- Step 1 of R511 refuses the entry. A poisoned entry is refused as well (log entry 46). -/
def State.entryBad (s : State) (p : Nat) (b : List Byte) (bad : Bool) : Bool :=
  bad || (b.getD 0 0) != 1 || decide (8 < (b.getD 1 0).toNat) || entryCpl b == 0 || decide (16 < entryCpl b) ||
    (entryReqs b).any (fun n => !s.inRange p n)

/-- The first named request that is not RESIDENT; one in PARKING returns when work names it (R370, R374, R376). -/
def State.notResident (s : State) (b : List Byte) : Option Nat :=
  (entryReqs b).find? (fun n => !(s.req n).open_ || (List.range 4).any (fun i => s.granBad (entryGran n + i)))

/-- Admission looks at the entries of the requests that work names; one that fails its check resets the partition (R359). -/
def State.checkReqs (s : State) (b : List Byte) : State := (entryReqs b).foldl (fun s n => (s.checkReq n).1) s

/-- What naming a request does to its tier state: a park is given up, and a parked request with AUTO_RESUME returns (R370). -/
def State.nameReq (s : State) (p n : Nat) : State :=
  if (s.req n).tstate = 3 then s.cancelPark p n
  else if (s.req n).tstate = 4 ∧ bitOf (s.req n).flags 2 then s.askReturn n
  else s

/-- Entries being taken: the state, the entries taken in order, and the CQ0 space left. -/
structure Taking where
  s : State
  out : List Entry
  free : Nat

/-- Entries admitted. -/
def Taking.admitted (t : Taking) : Nat := (t.out.filter (fun e => e.outcome == 0)).length

/-- Reads the entry at the head of a ring. -/
def State.readEntry (s : State) (p r : Nat) : State × List Byte × Bool :=
  match s.linGran p (s.sqGran p r (s.rd R.ring_SQ_HEAD p r)) with
  | some d => s.readGran d
  | none => (s, List.replicate 64 0, true)

/-- The outcome of an entry (R511), with the rule that failed or the request that is not RESIDENT. -/
def State.judge (s : State) (p : Nat) (b : List Byte) (bad : Bool) : Nat × Nat :=
  if s.entryBad p b bad then (2, 1)
  else match s.notResident b with
    | some n => (1, n)
    | none => (0, 0)

/-- The CQ0 entries that an outcome takes. -/
def cplNeed (outcome : Nat) (b : List Byte) : Nat := if outcome = 0 then entryCpl b else 1

/-- The ring moves on past an entry taken, and its effects follow (R370, R374, R511). -/
def State.passEntry (s : State) (p r : Nat) (b : List Byte) (o : Nat × Nat) : State :=
  let s := s.wr R.ring_SQ_HEAD ((s.rd R.ring_SQ_HEAD p r + 1) % 2 ^ s.rd R.ring_SQ_SIZE_LOG2 p r) p r
  let s := if o.1 = 2 then s.bump R.ring_SQ_REFUSED 1 p r else (entryReqs b).foldl (fun s n => s.nameReq p n) s
  if o.1 = 1 then s.tierEvent p o.2 0x09 0 else s

/-- Takes the entry at the head of a ring; none where it must stay in its ring (R511). -/
def Taking.one (t : Taking) (p r : Nat) : Option Taking :=
  let rd := t.s.readEntry p r
  let rd := (if rd.1.entryBad p rd.2.1 rd.2.2 then rd.1 else rd.1.checkReqs rd.2.1, rd.2)
  let o := rd.1.judge p rd.2.1 rd.2.2
  if t.free < cplNeed o.1 rd.2.1 then none
  else
    let e : Entry := ⟨r, t.s.rd R.ring_SQ_HEAD p r, rd.2.1, o.1, o.2⟩
    some ⟨rd.1.passEntry p r rd.2.1 o, t.out ++ [e], t.free - cplNeed o.1 rd.2.1⟩

/-- Takes the entries of a ring in order, until ADM_MAX are admitted or one must stay (R511). -/
def Taking.ring (t : Taking) (p r : Nat) : Nat → Taking
  | 0 => t
  | n + 1 =>
    if t.s.admMax p ≤ t.admitted then t
    else match t.one p r with
      | none => t
      | some t' => t'.ring p r n

/-- The space of CQ0 that an entry takes. -/
def Entry.need (e : Entry) : Nat := cplNeed e.outcome e.bytes

/-- Takes the sampled entries of the four rings, in order (R511); their CQ0 space is reserved. With CQ0 disabled nothing is taken. -/
def State.takeEntries (s : State) (p : Nat) : State × List Entry :=
  if !s.flag R.ring_CQ_EN p 0 then (s, [])
  else
    let t := (List.range 4).foldl (fun (t : Taking) r => t.ring p r (t.s.sqWaiting p r))
      { s := s, out := [], free := s.cqFree p 0 - (s.part p).cq0Reserved }
    (t.s.updPart p (fun q => { q with cq0Reserved := q.cq0Reserved + (t.out.map Entry.need).foldl (· + ·) 0 }), t.out)

/-- NOT_RESIDENT and refusal completions, written at c 256 (R516). -/
def State.writeRefusals (s : State) (p : Nat) (es : List Entry) : State :=
  let out := es.filter (fun e => e.outcome != 0)
  let s := s.updPart p (fun q => { q with cq0Reserved := q.cq0Reserved - out.length })
  s.writeOut p 0 (out.map (fun e =>
    if e.outcome = 1 then s.completion 0x13 0 e.rule (entryHost e.bytes) 0 [] 0
    else s.completion 0x14 0 0xFFFF (entryHost e.bytes) e.rule [] 0))

/-- The ADMIT record of an entry (chapter 22). -/
def State.admitRec (s : State) (p : Nat) (seq : Word) (e : Entry) : TrailRec where
  type := 0x03
  units := 2
  frame := seq
  body := [(20, 1, e.ring), (21, 1, e.outcome), (22, 2, e.index), (24, 8, s.main p 68 8), (60, 64, leNat e.bytes)]

/-! ### Admission of a frame (R268, R269, R512, R636, R647) -/

/-- The admission block (R512). -/
def State.admitBlock (s : State) (seq : Word) (es : List (List Byte)) : List Byte :=
  toLe 2 es.length ++ toLe 6 s.tickNum ++ toLe 4 seq.toNat ++ List.replicate 52 0 ++ es.flatMap (fun b => b)

/-- D of R636. -/
def auditEvery (budget : Nat) : Option Nat := [none, some 256, some 64, some 16, some 4].getD budget none

/-- The engine begins at its list address; 0x3_FFFF means that it has no work (R269). -/
def State.beginEngine (s : State) (c : Nat) (e : Engine) (list : Nat) : State :=
  if list = 0x3FFFF then s.setEng c e 4 else (s.setEng c e 1).wr (engPc e) list c

/-- A frame has an allowance of 0 until its MFRAME retires (R172 to R174). -/
def State.noAllowance (s : State) (c : Nat) : State := (s.wr R.fmt_ALLOW 0 c).wr R.fmt_ALLOW_LEFT 0 c

/-- A core reads its frame header, and its engines begin (R269). A poisoned header resets the partition and starts nothing (R633). -/
def State.beginCore (s : State) (p c : Nat) : State :=
  let g := s.rd R.core_FRAME_HDR c
  let s := s.eccLoft c g
  let s := (s.updCore c (fun k => { k with
    headRead := [], mframe := false, fallbacks := [], slotRan := false, stale := false, lists := [] })).noAllowance c
  if s.loftBad c g then (s.stopCore c).partFatal 0x13 0 p c
  else
    let at_ := fun (o n : Nat) => s.loftLe c (64 * g + o) n
    let s := s.updCore c (fun k => { k with
      fqEnd := (List.range 16).map (fun i => at_ (16 + 2 * i) 2)
      sqEnd := (List.range 8).map (fun i => at_ (48 + 2 * i) 2)
      lists := if s.flag R.core_DEBUG c then
          ([0, 3, 6, 9].map (fun o => at_ o 3 % 2 ^ 18)).flatMap (fun l => if l = 0x3FFFF then [] else s.listGrans c 262144 l)
        else [] })
    (((s.beginEngine c .matrix (at_ 0 3 % 2 ^ 18)).beginEngine c .vector (at_ 3 3 % 2 ^ 18)).beginEngine c .transfer (at_ 6 3 % 2 ^ 18)).beginEngine
      c .weight (at_ 9 3 % 2 ^ 18)

/-- In a maintenance frame the engines run no list of the partition (R647). -/
def State.restCore (s : State) (c : Nat) : State :=
  let s := s.updGlean c (fun g => { g with ran := 0 })
  let s := (s.updCore c (fun k => { k with
    headRead := [], mframe := false, fallbacks := [], slotRan := false, stale := false, fqEnd := [], sqEnd := [], lists := [] })).noAllowance c
  (((s.setEng c .matrix 0).wr R.core_V_STATE 0 c).wr R.core_T_STATE 0 c).wr R.core_W_STATE 0 c

/-- A run that is due waits one frame more (R249). -/
def State.countDue (s : State) (c : Nat) : State :=
  if s.flag R.cal_DUE c then s.updCore c (fun k => { k with cal := { k.cal with dueFrames := k.cal.dueFrames + 1 } }) else s

/-- The frame in progress is a maintenance frame (R647, R648): on one module the next multiple of MAINT_EVERY while a core has an overdue item, on
a spanning partition the frame that the lead has named. A replay takes none (log entry 49). -/
def State.maintNow (s : State) (p seq : Nat) : Bool :=
  if (s.part p).rpOn then false
  else if s.span p then (s.part p).maintAt == some seq
  else seq % max 1 (s.maintEvery p) == 0 && (s.coresOf p).any (fun c => s.overdue c seq)

/-- A member with an overdue item tells the lead once (R648). -/
def State.tellOverdue (s : State) (p seq : Nat) : State :=
  if s.span p && (s.part p).maintAt.isNone && (s.coresOf p).any (fun c => s.overdue c seq) then
    s.sendMsg (s.mkMsg 0x0E 0 0 561 (s.leadMod p) 561 (0x44 + 256 * p) seq)
  else s

/-- A frame is admitted at the present edge with the entries taken for it (R73, R269, R511, R512). -/
def State.admitFrame (s : State) (p : Nat) (es : List Entry) (maint : Bool) : State :=
  let seq := s.rd R.frm_FRAME_SEQ p
  let cores := s.coresOf p
  let admitted := es.filter (fun e => e.outcome == 0)
  let audit := match auditEvery (s.budget p) with
    | some d => seq % d == d - 1
    | none => false
  let f : FrameSt := {
    seq := BitVec.ofNat 32 seq, admitTick := s.tickNum, entries := admitted, maint := maint, audit := audit
    calSlot := seq % max 1 (s.rd R.cslot_CAL_EVERY p) == 0
    coreInfo := cores.map (fun c => (s.rd R.cal_CAL_EPOCH c, s.rd R.cal_RAMP_POS c, s.rd R.cal_RAMPING c)) }
  let s := (es.map (s.admitRec p f.seq)).foldl (fun s r =>
    if s.flag R.trail_TR_FULL p || s.recFits p r then s.writeRec p r
    else if (s.part p).trailOn then s.updPart p (fun q => { q with events := q.events ++ [r] }) else s) s
  let s := s.updPart p (fun q => { q with
    frame := some f, frames := seq, sinceAudit := if audit then seq else q.sinceAudit, sinceMaint := if maint then seq else q.sinceMaint
    maintAt := if maint then none else q.maintAt })
  let s := (s.wr R.frm_STATE 1 p).wr R.frm_SPAN 1 p
  let s := s.tellOverdue p seq
  let block := s.admitBlock f.seq (admitted.map (·.bytes))
  cores.foldl (fun s c =>
    let s := s.countDue c
    let s := if audit then s.beginAudit c p seq else s
    if maint then s.restCore c else (s.putBytes c (64 * s.admAddr p) block).beginCore p c) s

/-- New frames of the partition may be admitted: no holdover of a spanning partition (R83), and the held writes have room (R524). -/
def State.mayAdmit (s : State) (p : Nat) : Bool :=
  s.pstate p == 3 && (s.part p).frame.isNone && !(s.span p && s.flag R.tick_HOLDOVER) &&
    !(decide (65536 ≤ s.host.held.length) && s.fnBlocked (p + 1))

end Sys2Proof.Machine
end

