-- ==== Sys2Proof/Machine/Replay.lean ====
section
/-! DEFINITION. Re-runs (R663 to R667, R672): the start at the enable edge, the source's records at each publication, the entries of each
frame, calibration sets, and the end or abort. -/

namespace Sys2Proof.Machine

/-! ### The end of a trail and of a replay -/

/-- Writes the event records that wait, and the END record, the last of the trail (R654, R659). -/
def State.endTrail (s : State) (p cause : Nat) : State :=
  let r : TrailRec := { type := 0x0F, units := 1, frame := BitVec.ofNat 32 (s.frameSeq p), body := [(20, 1, cause), (21, 1, s.rd R.part_RESET_CAUSE p)] }
  let s := (s.part p).events.foldl (fun s e => s.writeRec p e) s
  (s.writeRec p r).updPart p (fun q => { q with events := [], draws := [], commitRecs := [], trailOn := false })

/-- An aborted replay admits nothing further (R672). -/
def State.rpAbort (s : State) (p code : Nat) : State :=
  if s.rd R.rp_RP_STATE p ≠ 1 then s
  else
    let s := (s.wr R.rp_RP_STATE 3 p).wr R.rp_RP_CODE code p
    if code = 0xC1 then s.logErr 1 0x12 code p 561 else s

/-- The replay is running. -/
def State.rpRuns (s : State) (p : Nat) : Bool := (s.part p).rpOn && s.rd R.rp_RP_STATE p == 1

/-! ### The source -/

/-- Moves past a source record. -/
def State.rpPass (s : State) (p : Nat) (b : List Byte) : State :=
  s.updPart p (fun q => { q with
    rpUnit := q.rpUnit + recFld b 1 1, rpSeq := if recFld b 0 1 = 0 then q.rpSeq else q.rpSeq + 1 })

/-- Skips PAD records (R654). -/
def State.rpSkip (s : State) (p : Nat) : Nat → State
  | 0 => s
  | n + 1 => match s.srcRec p (s.part p).rpUnit with
    | some b => if recFld b 0 1 = 0 then (s.rpPass p b).rpSkip p n else s
    | none => s

/-- The source is read to its end. -/
def State.rpAtEnd (s : State) (p : Nat) : Bool := decide (s.rd R.rp_RP_SRC_UNITS p ≤ (s.part p).rpUnit)

/-- The next source record, without moving on. -/
def State.rpPeek (s : State) (p : Nat) : Option (List Byte) := s.srcRec p (s.part p).rpUnit

/-- The code under which the next record aborts the replay: its check fails, its number leaves a gap, or it is a LOST record (R672). -/
def State.rpFault (s : State) (p : Nat) : Option Nat :=
  match s.rpPeek p with
  | none => some 0xC1
  | some b => if recFld b 4 4 ≠ (s.part p).rpSeq ∨ recFld b 0 1 = 0x0E then some 0xC6 else none

/-! ### Calibration sets (R665) -/

/-- The columns of an array's image: G and O (R258). -/
def slotCols : Nat → List Byte → List (Nat × Int)
  | n + 1, a :: b :: c :: d :: r => (a.toNat + 256 * b.toNat, sgn 16 (c.toNat + 256 * d.toNat)) :: slotCols n r
  | _, _ => []

/-- Slot images are 294,912 bytes. -/
def slotLen : Nat := 294912

/-- The image of a run's set: from the calibration source table, else from the core's store while its slot still holds the run; none where it
is absent, poisoned or fails its check word. -/
def State.replaySet (s : State) (p c run : Nat) : Option (List Byte) :=
  let g := s.pair R.rp_RP_CAL_LO R.rp_RP_CAL_HI p
  let ent := fun (i o n : Nat) => s.linLe p (64 * g + 32 * i + o) n
  match (List.range (s.rd R.rp_RP_NCAL p)).find? (fun i => ent i 0 2 == c && ent i 4 4 == run) with
  | some i =>
    let a := ent i 16 5 % 2 ^ 36
    let good := s.linHolds p a slotLen && (List.range 4608).all (fun k => match s.linGran p (a + k) with
      | some d => !s.granBad d
      | none => false)
    let b := s.linRun p a slotLen
    if good && crc32c b == ent i 8 4 then some b else none
  | none =>
    let base := c * 2097152
    let idx := base + 64 * (run % 7)
    let at_ := base + 32768 + slotLen * (run % 7)
    let b := s.granBytes at_ slotLen
    if s.granLe (idx + 4) 4 == run && (List.range 4608).all (fun k => !s.granBad (at_ / 64 + k)) && crc32c b == s.granLe (idx + 16) 4 then some b
    else none

/-- A slot image as the columns that differ from the set in force, by key. -/
def State.setDiff (s : State) (c : Nat) (b : List Byte) : Tbl (Nat × Int) :=
  let k := (s.core c).cal
  (List.range 64).foldl (fun t a =>
    let cols := slotCols 1056 (b.drop (4608 * a))
    (cols.zipIdx).foldl (fun t x =>
      let key := calKey a (s.activeBank c a) x.2
      if (k.gain key, k.offs key) = x.1 then t else Tbl.put t key x.1) t) []

/-- The trims of a slot image come into force with a set that is loaded whole (R253). -/
def slotTrims (b : List Byte) : Tbl Nat :=
  (List.range 64).foldl (fun t a => (((b.drop (4608 * a + 4224)).take 266).zipIdx).foldl (fun t x => Tbl.set 0 t (a * 266 + x.2) x.1.toNat) t) []

/-- A set loaded whole. -/
def State.loadSet (s : State) (c run : Nat) (b : List Byte) : State :=
  let d := s.setDiff c b
  (s.updCal c (fun k => { d.foldl (fun k e => k.setCol e.1 e.2) k with
    tgt := [], prevT := [], prevTime := [], setRun := s.nameSets c run, trims := slotTrims b })).syncCal c

/-- A set adopted as the target of the core: the ramp starts with its first step (R251, R665). -/
def State.adoptSet (s : State) (c run : Nat) (b : List Byte) : State :=
  let d := s.setDiff c b
  let s := (s.updCal c (fun k => { k with tgt := d, setRun := s.nameSets c run })).wr R.cal_RAMP_POS 0 c
  ((s.syncCal c).trailCal c 1 0).rampStep c

/-- What the replay does with a named set; it aborts where there is none. -/
def State.withSet (s : State) (p c run : Nat) (go : State → List Byte → State) : State :=
  if run = 0xFFFFFFFF then s.rpAbort p 0xC4
  else match s.replaySet p c run with
    | some b => go s b
    | none => s.rpAbort p 0xC3

/-! ### Records of the source -/

/-- A source WSET record: the version in force must be the recorded one; a difference of PROG_GEN is shown (R666). -/
def State.rpWset (s : State) (p : Nat) (b : List Byte) : State :=
  let w := s.wset (recFld b 20 2) (recFld b 22 2)
  if w.ver w.active ≠ recFld b 24 2 then s.rpAbort p 0xC5
  else if w.progGen ≠ recFld b 28 4 then s.wr R.rp_GEN_DIFF 1 p else s

/-- A source OPEN record: the entry is installed as OPEN installs it, with its zeroing done at once (R664, log entry 49). -/
def State.rpOpen (s : State) (p : Nat) (b : List Byte) : State :=
  let n := recFld b 20 2
  let s := s.updReq n (fun _ => openEntry s p n ((b.drop 60).take 256))
  let s := s.trailEv p 0x04 5 ((20, 2, n) :: ((s.req n).bytes.zipIdx).map (fun x => (60 + x.2, 1, x.1.toNat)))
  s.openDone p n

/-- A source record at its publication edge (R664 to R666). -/
def State.rpRecord (s : State) (p : Nat) (b : List Byte) : State :=
  let analogue := !s.refMode p
  let c := recFld b 20 2
  match recFld b 0 1 with
  | 0x04 => s.rpOpen p b
  | 0x08 =>
    if analogue && recFld b 22 1 = 1 then s.withSet p c (recFld b 28 4) (fun s i => s.adoptSet c (recFld b 28 4) i)
    else if analogue && recFld b 22 1 = 4 then s.withSet p c (recFld b 28 4) (fun s i => s.loadSet c (recFld b 28 4) i)
    else s
  | 0x09 => s.rpWset p b
  | _ => s

/-- The epochs and ramp positions of the frame against the source FRAME record (R665). -/
def State.rpCompare (s : State) (p : Nat) (f : FrameSt) (b : List Byte) : State :=
  let same := (f.coreInfo.zipIdx).all (fun x => recFld b (60 + 8 * x.2) 4 == x.1.1 && recFld b (64 + 8 * x.2) 2 == x.1.2.1)
  if s.refMode p || same then s else s.rpAbort p 0xC7

/-- Reads the source up to the FRAME record of the frame being published (R664). -/
def State.rpPublish (s : State) (p : Nat) (f : FrameSt) : Nat → State
  | 0 => s
  | n + 1 =>
    let s := s.rpSkip p 4096
    if !s.rpRuns p || s.rpAtEnd p then s
    else match s.rpFault p, s.rpPeek p with
      | none, some b =>
        let s := s.rpPass p b
        if recFld b 0 1 = 2 then (s.bump R.rp_RP_FRAMES 1 p).rpCompare p f b
        else (s.rpRecord p b).rpPublish p f n
      | some code, _ => s.rpAbort p code
      | none, none => s

/-- The source holds another FRAME record. -/
def State.rpMore (s : State) (p : Nat) : Bool :=
  let last := s.rd R.rp_RP_LAST p
  (last == 0 || decide (s.rd R.rp_RP_FRAMES p < last)) &&
    (s.srcRecs p (s.part p).rpUnit (s.rd R.rp_RP_SRC_UNITS p)).any (fun b => recFld b 0 1 == 2)

/-- After the last frame the replay is done; done or aborted, it has END with cause 3 for its last record (R664, R672). -/
def State.rpEnd (s : State) (p : Nat) : State :=
  let s := if s.rpRuns p && !s.rpMore p then s.wr R.rp_RP_STATE 2 p else s
  if (s.part p).rpOn && !s.rpRuns p && (s.part p).trailOn then s.endTrail p 3 else s

/-- The entries that the source admitted to the next frame (R664). -/
def State.rpEntries (s : State) (p seq : Nat) : Nat → State × List Entry
  | 0 => (s, [])
  | n + 1 =>
    let s := s.rpSkip p 4096
    match s.rpPeek p with
    | none => (s, [])
    | some b =>
      if recFld b 0 1 ≠ 3 ∨ recFld b 8 4 ≠ seq then (s, [])
      else if recFld b 4 4 ≠ (s.part p).rpSeq then (s.rpAbort p 0xC6, [])
      else
        let r := State.rpEntries (s.rpPass p b) p seq n
        (r.1, if recFld b 21 1 = 0 then ⟨recFld b 20 1, recFld b 22 2, (b.drop 60).take 64, 0, 0⟩ :: r.2 else r.2)

/-! ### The start (R663) -/

/-- The main record as bytes. -/
def State.mainBytes (s : State) (p : Nat) : List Byte := (List.range 32).flatMap (fun i => toLe 4 (s.rd R.tab_MAIN p i))

/-- The main-record bytes that a re-run must share, with MODE, DEBUG, CHECK_BUDGET and CHECK left out. -/
def sharedMain (b : List Byte) : List Byte :=
  (b.zipIdx).map (fun x => if x.2 = 8 then BitVec.ofNat 8 (x.1.toNat / 4 * 4) else if x.2 = 11 ∨ 124 ≤ x.2 then 0 else x.1)

/-- The keys rise strictly. -/
def rising : List Nat → Bool
  | a :: b :: r => decide (a < b) && rising (b :: r)
  | _ => true

/-- The forcing list and the calibration table lie in the linear space and are in order (R665, R667, R672). -/
def State.rpTables (s : State) (p : Nat) : Bool :=
  let gf := s.pair R.rp_RP_FORCE_LO R.rp_RP_FORCE_HI p
  let gc := s.pair R.rp_RP_CAL_LO R.rp_RP_CAL_HI p
  let nf := s.rd R.rp_RP_NFORCE p
  let nc := s.rd R.rp_RP_NCAL p
  s.linHolds p gf (16 * nf) && s.linHolds p gc (32 * nc) &&
    rising ((List.range nf).map (fun i => s.linLe p (64 * gf + 16 * i) 2 * 2 ^ 32 + s.linLe p (64 * gf + 16 * i + 4) 4)) &&
    rising ((List.range nc).map (fun i => s.linLe p (64 * gc + 32 * i) 2 * 2 ^ 32 + s.linLe p (64 * gc + 32 * i + 4) 4))

/-- The ENABLE record of the source names this program, these cores and this period (R663). -/
def State.rpSame (s : State) (p : Nat) (b : List Byte) : Bool :=
  let cores := s.coresOf p
  recFld b 22 1 == s.rd R.tick_PERIOD_LOG2 && recFld b 36 2 == cores.length && sharedMain ((b.drop 60).take 128) == sharedMain (s.mainBytes p) &&
    (cores.zipIdx).all (fun x => recFld b (188 + 16 * x.2) 2 == x.1)

/-- In analogue replay each core loads whole the set that the ENABLE record names, with its epoch (R665). -/
def State.rpLoad (s : State) (p : Nat) (b : List Byte) : State :=
  if s.refMode p then s
  else
    ((s.coresOf p).zipIdx).foldl (fun s x =>
      let run := recFld b (188 + 16 * x.2 + 8) 4
      s.withSet p x.1 run (fun s i => (s.loadSet x.1 run i).wr R.cal_CAL_EPOCH (recFld b (188 + 16 * x.2 + 4) 4) x.1)) s

/-- The WSET records that follow the ENABLE record (R658, R666). -/
def State.rpWsets (s : State) (p : Nat) : Nat → State
  | 0 => s
  | n + 1 =>
    let s := s.rpSkip p 4096
    match s.rpPeek p with
    | none => s
    | some b =>
      if !s.rpRuns p || recFld b 0 1 != 9 || recFld b 26 1 != 0 then s
      else match s.rpFault p with
        | some code => s.rpAbort p code
        | none => ((s.rpPass p b).rpWset p b).rpWsets p n

/-- An armed replay reads and checks the ENABLE record of its source (R663). -/
def State.rpBegin (s : State) (p : Nat) : State :=
  if !s.flag R.rp_RP_EN p then (s.wr R.rp_RP_STATE 0 p).updPart p (fun q => { q with rpOn := false })
  else
    let s := (((s.wr R.rp_RP_STATE 1 p).wr R.rp_RP_CODE 0 p).wr R.rp_GEN_DIFF 0 p).wr R.rp_RP_FRAMES 0 p
    let s := (s.updPart p (fun q => { q with rpOn := true, rpUnit := 0, rpSeq := 0 })).rpSkip p 4096
    match s.rpPeek p with
    | none => s.rpAbort p 0xC1
    | some b =>
      if recFld b 0 1 ≠ 1 then s.rpAbort p 0xC1
      else if recFld b 4 4 ≠ 0 then s.rpAbort p 0xC6
      else if !s.rpSame p b then s.rpAbort p 0xC2
      else if !s.rpTables p then s.rpAbort p 0xC8
      else
        let s := (s.rpPass p b).rpLoad p b
        s.rpWsets p (s.rd R.rp_RP_SRC_UNITS p)

/-- An armed replay starts at the enable edge, or is aborted there (R663). -/
def State.rpStart (s : State) (p : Nat) : State := (s.rpBegin p).rpEnd p

end Sys2Proof.Machine
end

