-- ==== Sys2Proof/Machine/Winnow.lean ====
section
/-! DEFINITION. The Winnow (chapter 12): WDRAW, slices, draws, decisions, the count table and the depth controller. -/

namespace Sys2Proof.Machine

/-! ### WDRAW (R390, R391) -/

/-- MODE of a WDRAW. -/
def wdMode (cmd : Cmd) : Nat := cmd.fld 171 2
/-- OUT. -/
def wdOut (cmd : Cmd) : Nat := cmd.fld 173 4
/-- REQ. -/
def wdReq (cmd : Cmd) : Nat := cmd.fld 155 16
/-- RES_EN. -/
def wdRes (cmd : Cmd) : Bool := cmd.fld 185 1 == 1
/-- Bytes of a logit. -/
def wdSize (cmd : Cmd) : Nat := if cmd.fld 97 4 = 1 then 2 else 4
/-- Logits of the slice. -/
def wdTok (cmd : Cmd) : Nat := cmd.fld 101 12 + 1

/-- WDRAW is placed in its store queue and retires (R391). -/
def execWdraw (core : BitVec 9) (cmd : Cmd) (s : State) : Out :=
  let c := core.toNat
  let rd : List Run := if wdMode cmd = 3 then [] else [(cmd.fld 80 17, granSpan 0 (wdTok cmd * wdSize cmd))]
  .next (s.engRun c .transfer cmd (fun s => s.guarded c .transfer cmd rd [] (fun s =>
    (s.serve c (wdReq cmd)).placeSq c (cmd.fld 203 3) 0xA8 cmd)))

/-- One pair comes before another: the larger logit, among equal ones the lower token (R391, R392). -/
def pairBefore (a b : Nat × Nat) : Bool :=
  let x := Fp.ofBits a.2
  let y := Fp.ofBits b.2
  y.lt x || (!x.lt y && decide (a.1 ≤ b.1))

/-- Pairs in order. -/
def sortPairs (l : List (Nat × Nat)) : List (Nat × Nat) := sortBy pairBefore l

/-- A pair as 8 bytes (R391). -/
def pairBytes (x : Nat × Nat) : List Byte := toLe 4 x.1 ++ toLe 4 x.2

/-- The slice as read: the CAND largest logits, widened to FP32, as 8-byte pairs; an entry without bytes stands for a slice that must be
poisoned (code 0x75), two of them for one that is refused (code 0x77). -/
def State.readDraw (s : State) (c : Nat) (cmd : Cmd) : State × List (List Byte × Bool) :=
  let n := wdTok cmd
  let a := 64 * cmd.fld 80 17
  if wdMode cmd = 3 then (s, [])
  else if 1 < cmd.fld 97 4 ∨ 8388608 < a + n * wdSize cmd then (s, [([], true), ([], true)])
  else
    let s := s.eccLoftN c (a / 64) (granSpan a (n * wdSize cmd))
    let vs := (List.range n).map (fun i =>
      let v := s.loftLe c (a + i * wdSize cmd) (wdSize cmd)
      if wdSize cmd = 2 then bf16.decode v else fp32.decode v)
    if s.anyBad c (a / 64) (granSpan a (n * wdSize cmd)) || vs.any (fun v => v == .nan || v == .inf false) then (s, [([], true)])
    else
      let ps := (vs.zipIdx).map (fun x => ((cmd.fld 113 24 + x.2) % 2 ^ 24, x.1.bits))
      (s, ((sortPairs ps).take (cmd.fld 137 8 + 1)).map (fun x => (pairBytes x, false)))

/-! ### Draws -/

/-- Changes the Winnow. -/
def State.updWin (s : State) (f : WinSt → WinSt) : State := { s with winnow := f s.winnow }

/-- Changes the draw of a device slot. -/
def State.updDraw (s : State) (slot : Nat) (f : Draw → Draw) : State :=
  s.updWin (fun w => { w with draws := w.draws.map (fun d => if d.slot = slot then f d else d) })

/-- The draw of a device slot. -/
def State.draw (s : State) (slot : Nat) : Option Draw := s.winnow.draws.find? (fun d => d.slot == slot)

/-- The draws of a request of a partition. -/
def State.drawsOf (s : State) (p req : Nat) : List Draw := s.winnow.draws.filter (fun d => d.part == p && d.req == req)

/-- An error of the Winnow (R415). -/
def State.winErr (s : State) (p req code : Nat) : State :=
  let s := ((s.wr R.win_ERR_CODE code).wr R.win_ERR_REQ req).wr R.win_ERR_VALID 1
  (s.bump R.pwin_W_ERRS 1 p).logErr 2 0x09 code p 561 req

/-- The request consumes poison of the Winnow (R415, R632). -/
def State.winFail (s : State) (p req code : Nat) : State :=
  s.updPart p (fun q => { q with frame := q.frame.map (fun f => if f.failed.any (fun x => x.req == req) then f
    else { f with failed := f.failed ++ [⟨req, 0x09, code, 561, 0⟩] }) })

/-- The result record of a draw (R394). -/
def resRecord (d : Draw) (cm : Option Commit) : List Byte :=
  let flags := match cm with
    | none => 0
    | some k => 2 + 4 * k.flags
  let fl := b2n (d.code != 0) + flags + (if d.code = 0x74 then 4 else 0) + 32 * b2n d.forced
  layout 64 ([(0, 4, d.token), (4, 1, d.mode), (5, 1, d.out), (6, 1, fl), (20, 4, d.u), (24, 4, d.xsel)] ++
    match cm with
    | none => []
    | some k => [(7, 1, k.a), (8, 4, k.newLen), (12, 4, k.pend), (16, 1, k.nextK)])

/-- A slice command whose result record has still to be written for a slot. -/
def SqEnt.owes (x : SqEnt) (slot : Nat) : Bool := x.op == 0xA8 && x.num == slot + 1 && wdRes x.cmd && !x.done

/-- Writes the result record of a slot's draw where it was asked for; DONE of those commands may then rise (R391). -/
def State.writeRes (s : State) (slot : Nat) (bs : List Byte) : State :=
  let s := s.cores.foldl (fun s e =>
    let c := e.1
    let xs := (e.2.sqs.flatMap (·.2)).filter (fun x => x.owes slot)
    let s := xs.foldl (fun s x => (s.traverse 561 c 5 1).putGran c (x.cmd.fld 186 17) bs false) s
    if xs.isEmpty then s else s.updCore c (fun k => { k with
      sqs := k.sqs.map (fun q => (q.1, q.2.map (fun x => if x.owes slot then { x with done := true } else x))) })) s
  (s.cores.flatMap (fun e => e.2.sqs.map (fun q => (e.1, q.1)))).foldl (fun s x => s.drainSq x.1 x.2) s

/-! ### The count table (R397 to R400) -/

/-- The count table of a request. -/
def State.countTab (s : State) (p req : Nat) : List Byte := s.linBytes p (s.req req).counts 32768

/-- The granules of a table that a lookup of a token reads: from its home entry to the entry where it stops (R397). -/
def probeGrans (tab : List Byte) (t : Nat) : List Nat :=
  let h := countHome t
  let n := match probeCounts (countEnt tab) t h 4096 with
    | some i => (i + 4096 - h) % 4096
    | none => 4095
  ((List.range (min 511 ((h % 8 + n) / 8) + 1)).map (fun k => (h / 8 + k) % 512)).eraseDups

/-- Reads the granules that lookups of tokens read; false where one of them cannot be read clean (R415). -/
def State.readCounts (s : State) (p req : Nat) (toks : List Nat) : State × Bool :=
  let tab := s.countTab p req
  s.readAll (((toks.flatMap (probeGrans tab)).eraseDups).map (fun g => s.linGran p ((s.req req).counts + g)))

/-- The count of a token in a table (R397). -/
def countOf (tab : List Byte) (t : Nat) : Nat :=
  match probeCounts (countEnt tab) t (countHome t) 4096 with
  | some i => let e := countEnt tab i
              if e.1 then e.2.2.2 else 0
  | none => 0

/-- Reads the table's probe path of a token; an unclean granule fails the request. True when it read clean. -/
def State.countRead (s : State) (p req t : Nat) : State × Bool :=
  let rd := s.readCounts p req [t]
  (if rd.2 then rd.1 else rd.1.winFail p req 0, rd.2)

/-- Adds 1 to a token's count in the entry that the probe found, remembering what stood there. -/
def State.countAt (s : State) (p req t : Nat) (at_ : Option Nat) : State :=
  match at_ with
  | none => s.bump R.pwin_CNT_DROP 1 p
  | some i =>
    let e := countEnt (s.countTab p req) i
    let n := if e.1 then min (e.2.2.2 + 1) 0xFFFFFFFF else 1
    let a := 64 * (s.req req).counts + 8 * i
    let s := s.updPart p (fun q => { q with frame := q.frame.map (fun f => { f with undo := (req, a, s.linLe p a 8) :: f.undo }) })
    s.putLinLe p a 8 (t + 2 ^ 31 + 2 ^ 32 * n)

/-- A committed token adds 1 to its count; with no free entry it is not counted (R399). True when it was dropped. -/
def State.countToken (s : State) (p req : Nat) (acc : Bool) (t : Nat) : State × Bool :=
  let rd := s.countRead p req t
  let at_ := probeCounts (countEnt (rd.1.countTab p req)) t (countHome t) 4096
  (if rd.2 then rd.1.countAt p req t at_ else rd.1, acc || (rd.2 && at_.isNone))

/-- The count-table updates of a frame are taken back where its commit is not applied: of one request, or of all (R530, R632). -/
def State.undoCounts (s : State) (p : Nat) (which : Nat → Bool) : State :=
  match (s.part p).frame with
  | none => s
  | some f =>
    let s := (f.undo.filter (fun u => which u.1)).foldl (fun s u => s.putLinLe p u.2.1 8 u.2.2) s
    s.updPart p (fun q => { q with frame := q.frame.map (fun f => { f with undo := f.undo.filter (fun u => !which u.1) }) })

/-! ### Philox (R402) -/

/-- One round: the counter words, under a key. -/
def philoxRound (k0 k1 : Nat) (c : Nat × Nat × Nat × Nat) : Nat × Nat × Nat × Nat :=
  let p0 := 0xD2511F53 * c.1
  let p1 := 0xCD9E8D57 * c.2.2.1
  (Nat.xor (Nat.xor (p1 / 2 ^ 32) c.2.1) k0, p1 % 2 ^ 32, Nat.xor (Nat.xor (p0 / 2 ^ 32) c.2.2.2) k1, p0 % 2 ^ 32)

/-- `n` rounds with the keys raised between them. -/
def philoxRounds : Nat → Nat → Nat → Nat × Nat × Nat × Nat → Nat × Nat × Nat × Nat
  | 0, _, _, c => c
  | n + 1, k0, k1, c => philoxRounds n ((k0 + 0x9E3779B9) % 2 ^ 32) ((k1 + 0xBB67AE85) % 2 ^ 32) (philoxRound k0 k1 c)

/-- The generator of a draw: seed, token index, role; word 0. -/
def philox (seed j role : Nat) : Nat := (philoxRounds 10 (seed % 2 ^ 32) (seed / 2 ^ 32) (j, role, 0, 0)).1

/-! ### From candidates to a token (R401) -/

/-- The sampling parameters of a request (R396). -/
def State.sampler (s : State) (req off n : Nat) : Nat := leNat (((s.req req).sampler.drop (off - 128)).take n)

/-- A candidate's logit after the penalties. The product and the difference of the frequency penalty are a multiply-add (R305). -/
def penalise (rep freq pres : Fp) (c : Nat) (x : Fp) : Fp :=
  if c = 0 then x
  else
    let x := if Fp.zero.lt x then x.div rep else x.mul rep
    let x := freq.opp.fma ((Fp.ofInt c).r32) x
    x.sub pres

/-- The running sums of the weights. -/
def cumWeights (x0 : Fp) : Option Fp → List Fp → List Fp
  | _, [] => []
  | none, x :: r => let w := (x.sub x0).exp
                    w :: cumWeights x0 (some w) r
  | some a, x :: r => let w := a.add (x.sub x0).exp
                      w :: cumWeights x0 (some w) r

/-- The first index whose sum satisfies a test, else the last of the first `n`. -/
def firstIdx (p : Fp → Bool) (l : List Fp) (n : Nat) : Nat := ((l.take n).findIdx? p).getD (n - 1)

/-- The choice among sorted candidates: index and final logit; none where every candidate is -∞ (code 0x76). -/
def chooseTok (temp topP : Fp) (topK u : Nat) (xs : List Fp) : Option (Nat × Fp) :=
  let x0 := xs.headD (.inf true)
  if x0 = .inf true then none
  else if temp.isZero then some (0, x0)
  else
    let inv := Fp.one.div temp
    let ys := xs.map (fun x => x.mul inv)
    let y0 := ys.headD (.inf true)
    if y0 = .inf true then none
    else
      let n := if 0 < topK then min topK ys.length else ys.length
      let cum := cumWeights y0 none (ys.take n)
      let last := fun (n : Nat) => cum.getD (n - 1) .zero
      let n := if topP.lt Fp.one then
          let lim := topP.mul (last n)
          1 + firstIdx (fun x => !x.lt lim) cum n
        else n
      let tgt := (Fp.fin false u (-24)).mul (last n)
      let i := firstIdx (fun x => tgt.lt x) cum n
      some (i, ys.getD i .zero)

/-- The role of a draw: 1 for a draft draw (R402). -/
def Draw.role (d : Draw) : Nat := if d.mode = 1 then 1 else 0

/-- The candidates of a draw after the penalties, sorted. -/
def State.drawCands (s : State) (d : Draw) : List (Nat × Nat) :=
  let e := s.req d.req
  let f := fun (o : Nat) => Fp.ofBits (s.sampler d.req o 4)
  let tab := s.countTab d.part d.req
  let drafted := if d.mode ≤ 1 then e.draft.take (min d.out e.kround) else []
  sortPairs (d.pairs.map (fun x =>
    (x.1, (penalise (f 140) (f 148) (f 144) (countOf tab x.1 + (drafted.filter (· == x.1)).length) (Fp.ofBits x.2)).bits)))

/-- A draw computed (R400 to R404): its token, its generator value and its final logit; code 0x76 where no candidate is left. -/
def State.runDraw (s : State) (d : Draw) : Draw :=
  let e := s.req d.req
  let j := e.len + d.out + 1
  let u := philox e.seed j d.role / 256
  let xs := s.drawCands d
  match chooseTok (Fp.ofBits (s.sampler d.req 128 4)) (Fp.ofBits (s.sampler d.req 132 4)) (s.sampler d.req 136 2) u
      (xs.map (fun x => Fp.ofBits x.2)) with
  | none => { d with code := 0x76, u := u }
  | some r =>
    let t := (xs.getD r.1 (0, 0)).1
    let forced := if d.mode = 1 then none else s.forcedTok d.part d.req j
    { d with token := forced.getD t, chosen := t, forced := forced.isSome, u := u, xsel := r.2.bits }

/-- The DRAW record of a draw (R657's table), with TR_DETAIL or in a replay. -/
def State.trailDraw (s : State) (d : Draw) : State :=
  let p := d.part
  if (s.part p).trailOn && (s.flag R.trail_TR_DETAIL p || (s.part p).rpOn) then
    let top := ((s.drawCands d).take 8).map (fun x => (x.1, ((d.pairs.find? (fun y => y.1 == x.1)).getD x).2))
    let body := [(20, 2, d.req), (22, 1, d.mode + 4 * d.role), (23, 1, d.out), (24, 4, (s.req d.req).len + d.out + 1),
      (28, 4, d.u), (32, 3, d.chosen), (35, 1, b2n d.forced + 2 * b2n (d.code != 0) + 4 * b2n (d.forced && d.token != d.chosen)),
      (36, 4, d.xsel), (40, 2, d.pairs.length)] ++
      (top.zipIdx).flatMap (fun x => [(44 + 8 * x.2, 4, x.1.1), (48 + 8 * x.2, 4, x.1.2)])
    s.updPart p (fun q => { q with draws := q.draws ++
      [{ type := 0x06, units := 2, frame := BitVec.ofNat 32 (s.frameSeq p), body := body }] })
  else s

/-! ### Decisions (R405 to R407, R413) -/

/-- The depth controller at a verify commit (R413): KCUR, WIN_N, WIN_K, WIN_A, OFF_TOK, OFF. A probe at 1 stays within KMAX (log entry
25). -/
def depthStep (st : List Nat) (k a n kmax : Nat) : List Nat :=
  let g := fun i => st.getD i 0
  if g 0 = 0 then
    let off := min (g 4 + n) 65535
    if 64 ≤ off then [min 1 kmax, g 1, g 2, g 3, 0, 0] else [0, g 1, g 2, g 3, off, g 5]
  else if 0 < k then
    let wn := g 1 + 1
    let wk := g 2 + k
    let wa := g 3 + a
    if wn = 8 then
      let kc := if 8 * wa < wk then 0 else if 3 * wk ≤ 4 * wa then min (g 0 + 1) kmax
        else if 8 * wa < 3 * wk then g 0 - 1 else g 0
      if kc = 0 then [0, 0, 0, 0, 0, 1] else [kc, 0, 0, 0, g 4, g 5]
    else [g 0, wn, wk, wa, g 4, g 5]
  else st

/-- The controller's state of a request. -/
def ReqEntry.depth (e : ReqEntry) : List Nat :=
  [e.kcur, e.winN, e.winK, e.winA, e.offTok, b2n (e.sflags.testBit 4)]

/-- The STOP tokens of a request. -/
def State.stops (s : State) (req : Nat) : List Nat :=
  (List.range (min 4 (s.sampler req 153 1))).map (fun i => s.sampler req (156 + 4 * i) 4 % 2 ^ 24)

/-- The commit of candidate tokens from index `j` on (R407): it stops after a stop token, after index LEN_MAX, or before a poisoned
draw (marked by a code): tokens taken, END flags, the code of the poisoned draw. -/
def takeToks (stops : List Nat) (lenMax : Nat) : Nat → List (Nat × Nat) → List Nat × Nat × Nat
  | _, [] => ([], 0, 0)
  | j, (t, code) :: r =>
    if code ≠ 0 then ([], 0, code)
    else
      let f := (if stops.contains t then 3 else 0) ||| (if lenMax ≤ j then 5 else 0)
      if f ≠ 0 then ([t], f, 0)
      else let q := takeToks stops lenMax (j + 1) r
           (t :: q.1, q.2)

/-- How many drafts the main draws match (R405): `m` and `d` by output. -/
def matched : List (Nat × Nat) → List Nat → Nat
  | (t, code) :: ms, d :: ds => if code = 0 ∧ t = d then 1 + matched ms ds else 0
  | _, _ => 0

/-- The commit that a finished pass of a request takes (R405 to R407). `pend0` is the pending token of an advance. -/
def State.commitOf (s : State) (p req mode pend0 : Nat) : Commit :=
  let e := s.req req
  let ds := (s.drawsOf p req).filter (fun d => d.mode == mode)
  let at_ := fun i => match ds.find? (fun d => d.out == i) with
    | some d => (d.token, d.code)
    | none => (0, 0x79)
  let k := if mode = 0 then e.kround else 0
  let main := (List.range (k + 1)).map at_
  let a := if mode = 0 then matched (main.take k) (e.draft.take k) else 0
  let out := (ds.head?.map (·.out)).getD 0
  let cand := if mode = 0 then (e.draft.take a).map (fun t => (t, 0)) ++ [at_ a] else if mode = 2 then [at_ out] else []
  let base := if mode = 0 then e.len + 1 else e.len + out + 1
  let t := takeToks (s.stops req) e.lenMax base cand
  let bad := t.2.2 != 0 || (mode == 3 && (at_ out).2 != 0)
  let dc := if mode = 0 ∧ !bad ∧ (s.sampler req 152 1).testBit 0 then depthStep e.depth k a t.1.length (s.sampler req 138 1)
    else e.depth
  { req := req, mode := mode, k := k, a := a, nextK := dc.getD 0 0, flags := if bad then 0 else t.2.1
    forced := sumN ((ds.filter (·.forced)).map (fun d => 2 ^ (if mode = 0 then d.out else 0)))
    toks := if bad then [] else t.1, mains := if mode = 0 then main.map (·.1) else [(at_ out).1], drafts := e.draft, len := e.len
    newLen := if bad then e.len else if mode = 3 then e.len + out + 1 else base + t.1.length - 1
    pend := if bad then e.pend else if mode = 3 then pend0 else t.1.getLastD 0
    failed := bad, full := false, dc := dc }

/-- PEND after an advance, which the spec does not state: a free value of the request's seed, length and pending token and of the tokens advanced,
and of nothing else, so that a repetition gives it again (R42, R44, R45; log entry 4). -/
def State.advancePend (s : State) (p req : Nat) : Nat :=
  let e := s.req req
  let out := (((s.drawsOf p req).find? (fun d => d.mode == 3)).map (·.out)).getD 0
  Config.freeValue 2 (e.seed + 2 ^ 64 * (e.len + 2 ^ 32 * (e.pend + 2 ^ 32 * out))) % 2 ^ 24

/-- The decision of a pass (R405, R406): its commit waits for the publication, count updates are made, the members get the commit note, and
the result records are written. A pass with a draw refused under 0x74 commits nothing. -/
def State.decidePass (s : State) (p req mode : Nat) : State :=
  let ds := s.drawsOf p req
  if ds.any (fun d => d.code == 0x74) then s
  else
    let cm := s.commitOf p req mode (s.advancePend p req)
    let bad := ds.find? (fun d => d.code == 0x72)
    let s := if cm.failed || bad.isSome then
        s.winFail p req (((ds.find? (fun d => d.code != 0)).map (·.code)).getD 0)
      else s
    let r := if cm.failed || cm.toks.isEmpty then (s, false)
      else cm.toks.foldl (fun (acc : State × Bool) t => acc.1.countToken p req acc.2 t) (s, false)
    let cm := { cm with full := r.2 }
    let s := r.1
    let peers := if s.span p && !cm.failed then s.peers p else []
    let s := peers.foldl (fun s m => s.sendMsg (s.mkMsg 0x0C 0 p 561 m 561 (req + 65536 * (cm.flags % 8))
      (cm.newLen + 2 ^ 32 * ((s.req req).passes + 1)))) s
    let s := s.updPart p (fun q => { q with frame := q.frame.map (fun f =>
      { f with commits := f.commits ++ [cm], notes := f.notes + peers.length }) })
    (ds.filter (fun d => d.code == 0 && d.mode == mode)).foldl (fun s d => s.writeRes d.slot (resRecord d (some cm))) s

/-- A pass of a request has been decided in the frame. -/
def State.decided (s : State) (p req : Nat) : Bool :=
  match (s.part p).frame with
  | some f => f.commits.any (fun k => k.req == req)
  | none => true

/-- A draw has finished (R395, R415): refused and poisoned draws log their error and write their record; a draft draw writes its
record; fed and advance passes are decided. -/
def State.finishDraw (s : State) (slot : Nat) : State :=
  match s.draw slot with
  | none => s
  | some d =>
    let s := s.updDraw slot (fun d => { d with stage := 3 })
    let s := if d.code = 0 then s else s.winErr d.part d.req d.code
    let s := if d.code ≠ 0 ∨ d.mode = 1 then s.writeRes slot (resRecord d none) else s
    if (d.mode = 2 ∨ d.mode = 3) ∧ d.code ≠ 0x78 ∧ !s.decided d.part d.req then s.decidePass d.part d.req d.mode else s

/-! ### Slices (R392 to R394, R412, R415) -/

/-- The code under which a complete draw is refused: 0x74, 0x73; 0 otherwise (R412). -/
def State.drawCode (s : State) (d : Draw) : Nat :=
  let e := s.req d.req
  if e.sflags.testBit 0 ∨ e.len = e.lenMax then 0x74
  else if d.mode = 1 ∧ (d.out ≠ e.kround ∨ e.kcur ≤ d.out) then 0x73
  else if d.mode = 0 ∧ e.kround < d.out then 0x73
  else 0

/-- The last slice of a draw has arrived: the 1,024 largest pairs are kept, the draw is checked, and it waits for an engine; an advance
and a refused draw need none. -/
def State.readyDraw (s : State) (d : Draw) : State :=
  let others := (s.drawsOf d.part d.req).filter (fun x => x.slot != d.slot && decide (1 ≤ x.stage) && x.code != 0x78)
  let clash := others.any (fun x => x.mode != d.mode || x.out == d.out || x.code == 0x72)
  let code := if d.code ≠ 0 then d.code else if clash then 0x72 else s.drawCode d
  let ps := sortPairs d.pairs
  let s := s.bump R.win_CAND_DROP (ps.length - 1024)
  let s := if clash then
      (others.foldl (fun s x => s.updDraw x.slot (fun x => { x with code := if x.code = 0 then 0x72 else x.code })) s).winFail
        d.part d.req 0x72
    else s
  let s := s.updDraw d.slot (fun x => { x with code := code, pairs := ps.take 1024, stage := 1, order := s.winnow.arrivals })
  let s := s.updWin (fun w => { w with arrivals := w.arrivals + 1 })
  if code ≠ 0 ∨ d.mode = 3 then s.finishDraw d.slot else s

/-- The code of one slice: another partition's request or another sampling module, a refused or a poisoned slice. -/
def State.sliceCode (s : State) (p : Nat) (cmd : Cmd) (data : List (List Byte × Bool)) : Nat :=
  let m := (s.req (wdReq cmd)).smod
  if s.reqOwner (wdReq cmd) ≠ some p ∨ (bitOf m 15 ∧ m % 4096 ≠ s.selfMod) then 0x78
  else if data = [([], true), ([], true)] then 0x77
  else if data = [([], true)] then 0x75
  else 0

/-- The pairs in a slice's data. -/
def slicePairs (data : List (List Byte × Bool)) : List (Nat × Nat) :=
  data.map (fun x => (leNat (x.1.take 4), leNat (x.1.drop 4)))

/-- What the record of a slice beyond NSLICE + 1 tells (R415). -/
def extraSlice (d : Draw) (mode out : Nat) : Draw :=
  { d with code := 0x71, mode := mode, out := out, token := 0, u := 0, xsel := 0, forced := false }

/-- The Winnow takes in a slice of a partition (R392, R394, R415). -/
def State.takeSlice (s : State) (c q p : Nat) (x : SqEnt) : State :=
  let cmd := x.cmd
  let req := wdReq cmd
  let slot := s.rd R.pwin_SLOT_BASE p + cmd.fld 145 10
  let mark := fun (s : State) (done : Bool) => (s.updCore c (fun k => { k with
    sqs := Tbl.upd [] k.sqs q (fun l => l.map (fun y => if y = x then { y with num := slot + 1, done := done } else y)) })).drainSq c q
  if s.rd R.pwin_SLOT_COUNT p ≤ cmd.fld 145 10 then (mark s false).winErr p req 0x70
  else
    let code := s.sliceCode p cmd x.data
    let s := if code ≠ 0x78 ∧ !bitOf (s.req req).smod 15 then s.updReq req (fun e => { e with smod := 0x8000 + s.selfMod }) else s
    let s := (s.traverse c 561 5 (ceilDiv x.data.length 8))
    let adv := wdMode cmd = 3
    match s.draw slot with
    | some d =>
      if 1 ≤ d.stage then
        let s := (mark s true).updDraw slot (fun d => { d with code := if d.code = 0 then 0x71 else d.code })
        let s := if wdRes cmd then s.putGran c (cmd.fld 186 17) (resRecord (extraSlice d (wdMode cmd) (wdOut cmd)) none) false else s
        (s.winErr p req 0x71).winFail p d.req 0x71
      else
        let same := d.req == req && d.mode == wdMode cmd && d.out == wdOut cmd && (adv || d.nslice == cmd.fld 177 8)
        let d' := { d with
          arrived := d.arrived + 1
          pairs := if code = 0 then d.pairs ++ slicePairs x.data else d.pairs
          code := if d.code ≠ 0 then d.code else if !same then 0x71 else code }
        let s := (mark s (!wdRes cmd)).updDraw slot (fun _ => d')
        if d'.arrived = d'.nslice + 1 then s.readyDraw d' else s
    | none =>
      let d : Draw := { slot := slot, part := p, req := req, mode := wdMode cmd, out := wdOut cmd
                        nslice := if adv then 0 else cmd.fld 177 8, arrived := 1
                        pairs := if code = 0 then slicePairs x.data else [], code := code, stage := 0, order := 0, token := 0
                        chosen := 0, forced := false, u := 0, xsel := 0 }
      let s := (mark s (!wdRes cmd)).updWin (fun w => { w with draws := w.draws ++ [d] })
      if d.nslice = 0 then s.readyDraw d else s

/-- WDRAW_SLICE: the oldest slice of a store queue that has been read reaches the Winnow. -/
def execWdrawSlice (core : BitVec 9) (q : BitVec 3) (s : State) : Out :=
  let c := core.toNat
  .next (match s.enabledOwner c, (Tbl.get [] (s.core c).sqs q.toNat).find? (fun x => x.op == 0xA8 && x.read && x.num == 0) with
    | some p, some x => if s.alive then s.takeSlice c q.toNat p x else s
    | _, _ => s)

/-! ### Engines -/

/-- The waiting draw that starts next: the earliest last slice, then the lower slot (R393). -/
def State.nextDraw (s : State) : Option Draw :=
  (sortBy (fun (a b : Draw) => decide (a.order < b.order) || (a.order == b.order && decide (a.slot ≤ b.slot)))
    (s.winnow.draws.filter (fun d => d.stage == 1))).head?

/-- DRAW_START: a free draw engine, of 16, takes the next waiting draw. -/
def execDrawStart (s : State) : Out :=
  .next (match s.nextDraw with
    | none => s
    | some d =>
      if s.alive && decide ((s.winnow.draws.filter (fun x => x.stage == 2)).length < 16) then
        s.updDraw d.slot (fun x => { x with stage := 2 })
      else s)

/-- DRAW_DONE: a running draw finishes after 96 + C cycles (R393, R401). A count table that cannot be read fails the request (R415). -/
def execDrawDone (slot : BitVec 10) (s : State) : Out :=
  .next (match s.draw slot.toNat with
    | none => s
    | some d =>
      if s.alive && d.stage == 2 then
        let rd := s.readCounts d.part d.req (d.pairs.map (·.1))
        let s := rd.1
        let r := s.runDraw d
        let s := (s.bump R.win_W_BUSY_CYC (96 + d.pairs.length)).bump (if d.mode = 1 then R.win_DRAFT_DRAWS else R.win_DRAWS)
        let s := if rd.2 then s else s.winFail d.part d.req 0
        let s := s.updDraw d.slot (fun x => { r with code := if x.code = 0 then r.code else x.code })
        let s := s.trailDraw r
        s.finishDraw d.slot
      else s)

/-- VERIFY_DECIDE: the draws of outputs 0 to KROUND of a verify pass have all finished (R405). -/
def execVerifyDecide (p : BitVec 6) (req : BitVec 16) (s : State) : Out :=
  let p := p.toNat
  let n := req.toNat
  let ds := (s.drawsOf p n).filter (fun d => d.mode == 0 && d.stage == 3 && d.code != 0x78)
  .next (if s.alive && !s.decided p n && (List.range ((s.req n).kround + 1)).all (fun i => ds.any (fun d => d.out == i)) then
    s.decidePass p n 0
  else s)

/-! ### Publication (R408, R413, R415) -/

/-- A frame otherwise complete with a verify draw missing: the round is discarded and the request fails (code 0x79). -/
def State.missingDraws (s : State) (p : Nat) : State :=
  let reqs := ((s.winnow.draws.filter (fun d => d.part == p && d.mode == 0 && d.code != 0x78 && d.code != 0x74)).map (·.req)).eraseDups
  reqs.foldl (fun s n => if s.decided p n then s else (s.winErr p n 0x79).winFail p n 0x79) s

/-- The commit of a request is applied (R408): LEN is set with PASSES by the caller's order, PEND set, the drafts cleared and the
controller's state taken. -/
def State.applyCommit (s : State) (p : Nat) (k : Commit) : State :=
  let fell := k.dc.getD 0 0 == 0 && (s.req k.req).kcur != 0
  let s := s.updReq k.req (fun e => { e with
    len := k.newLen, passes := (e.passes + 1) % 2 ^ 32, pend := k.pend, draft := [], kround := 0
    kcur := k.dc.getD 0 0, winN := k.dc.getD 1 0, winK := k.dc.getD 2 0, winA := k.dc.getD 3 0, offTok := k.dc.getD 4 0
    sflags := (e.sflags ||| k.flags ||| (if k.full then 8 else 0)) % 16 + 16 * k.dc.getD 5 0 })
  let s := s.bump R.pwin_COMMITS k.toks.length p
  if k.mode = 0 then
    (((s.bump R.pwin_VERIFIES 1 p).bump R.pwin_DRAFTED k.k p).bump R.pwin_ACCEPTED k.a p).bump R.pwin_DC_OFFS (b2n fell) p
  else s

/-- The Sillage COMMIT record of a commit (R657's table). -/
def State.commitRec (s : State) (p : Nat) (k : Commit) (failed clipped : Bool) : TrailRec where
  type := 0x05
  units := 2
  frame := BitVec.ofNat 32 (s.frameSeq p)
  body := [(20, 2, k.req), (22, 1, k.mode), (23, 1, k.k), (24, 1, k.a), (25, 1, k.nextK),
    (26, 1, k.flags + 8 * b2n failed + 16 * b2n clipped), (28, 2, k.forced), (30, 4, if failed then k.len else k.newLen),
    (34, 4, k.len)] ++ ((k.drafts.take 8).zipIdx).map (fun x => (38 + 3 * x.2, 3, x.1)) ++
    ((k.mains.take 9).zipIdx).map (fun x => (62 + 3 * x.2, 3, x.1))

/-- A draft pass's publication: d_j goes into DRAFT[j - 1] and KROUND becomes j (R408). A poisoned draft is not recorded. -/
def State.applyDraft (s : State) (p : Nat) (d : Draw) : State :=
  let e := s.req d.req
  let s := s.updReq d.req (fun e => { e with draft := e.draft.take d.out ++ [d.token], kround := d.out + 1 })
  let k : Commit := {
    req := d.req, mode := 1, k := d.out + 1, a := 0, nextK := e.kcur, flags := 0, forced := 0, toks := [], mains := []
    drafts := (s.req d.req).draft, len := e.len, newLen := e.len, pend := e.pend, failed := false, full := false, dc := [] }
  s.updPart p (fun q => { q with commitRecs := q.commitRecs ++ [s.commitRec p k false false] })

/-- The draws of a frame at its publication (R394, R408): drafts are recorded, and the slots are released. -/
def State.publishDraws (s : State) (p : Nat) (failed : List Nat) : State :=
  let ds := s.winnow.draws.filter (fun d => d.part == p && d.mode == 1 && d.stage == 3 && d.code == 0 && !failed.contains d.req)
  let s := ds.foldl (fun s d => s.applyDraft p d) s
  s.updWin (fun w => { w with draws := w.draws.filter (fun d => d.part != p) })

end Sys2Proof.Machine
end

