-- ==== Sys2Proof/Machine/Publication.lean ====
section
/-! DEFINITION. The publication of a frame (R66, R69, R156, R360, R408, R517, R632, R657, R659): commits, failed requests, promotion,
completions, the trail's records, and the changes that wait for a publication edge. -/

namespace Sys2Proof.Machine

/-- Changes the frame in flight of a partition. -/
def State.updFrame (s : State) (p : Nat) (g : FrameSt → FrameSt) : State := s.updPart p (fun q => { q with frame := q.frame.map g })

/-! ### Promotion (R155 to R158) -/

/-- A word of a promotion block after a pass with `f` fallbacks of its class, and whether it was promoted (R156). -/
def promoStep (en : Bool) (n win quiet w f : Nat) : Nat × Bool :=
  let st := w % 4
  let fb := min (bitsOf w 2 6 + f) 63
  let wn := bitsOf w 8 8 + 1
  let q := if 0 < f then 0 else min (bitsOf w 16 16 + 1) 65535
  let up := en && decide (n ≤ fb) && decide (st < 2)
  let st := if up then st + 1 else st
  let q := if up then 0 else q
  let down := decide (quiet ≤ q) && decide (0 < st)
  ((if down then st - 1 else st) + (if up || decide (win ≤ wn) then 0 else 4 * fb + 256 * wn) + 65536 * (if down then 0 else q), up)

/-- The update of one class of a request at its pass's publication. -/
def State.promoUpdate (s : State) (p req cls f : Nat) : State :=
  let a := 520 * 2097152 + 256 * req + 4 * cls
  let r := promoStep (s.flag R.fmtp_PROMO_EN p) (s.rd R.fmtp_PROMO_N p) (s.rd R.fmtp_PROMO_WIN p) (s.rd R.fmtp_DEMOTE_QUIET p) (s.granLe a 4) f
  (s.putGranBytes a (toLe 4 r.1)).bump R.fmtp_PROMO_UP (b2n r.2) p

/-- Every class that a pass of the frame used, with its fallbacks on all cores; the pass of a failed request is not published. -/
def State.promote (s : State) (p : Nat) (f : FrameSt) : State :=
  let used := ((s.coresOf p).flatMap (fun c => (s.core c).fallbacks)).foldl (fun l x => countFallback l x.1 x.2.1 x.2.2) []
  (used.filter (fun x => s.inRange p x.1 && !f.failed.any (fun y => y.req == x.1))).foldl (fun s x => s.promoUpdate p x.1 x.2.1 x.2.2) s

/-! ### Requests (R360, R408, R411, R632) -/

/-- The requests that the frame serves. -/
def State.servedReqs (s : State) (p : Nat) (f : FrameSt) : List Nat :=
  let drawn := (s.winnow.draws.filter (fun d => d.part == p && d.code != 0x78)).map (·.req)
  ((f.served ++ drawn).eraseDups).filter (fun n => s.inRange p n && (s.req n).tstate != 0)

/-- LAST_TICK, CLIPPED and PASSES of a request that the frame served. A published pass without a commit, a draft draw or a commit note
counts in PASSES here (log entry 47). -/
def State.serveReq (s : State) (p : Nat) (f : FrameSt) (n : Nat) : State :=
  let other := f.failed.any (fun x => x.req == n) || f.commits.any (fun k => k.req == n) || (s.part p).notesIn.any (fun x => x.1 == n) ||
    s.winnow.draws.any (fun d => d.part == p && d.req == n && d.mode == 1)
  let s := s.updReq n (fun e => { e with
    lastTick := s.tickNum, flags := if f.clipped.contains n then Nat.lor e.flags 1 else e.flags
    passes := if other then e.passes else (e.passes + 1) % 2 ^ 32 })
  let s := s.setIdle p n
  s.updTier (fun t => { t with siloFull := t.siloFull.filter (· != n) })

/-- A request that consumed poison: it becomes FAILED, and a deferred record and a POISON record name it (R632). -/
def State.failServed (s : State) (p : Nat) (x : FailInfo) : State :=
  let s := s.undoCounts p (· == x.req)
  let s := if s.inRange p x.req && (s.req x.req).tstate != 0 then s.failReq p x.req else s
  (s.logErr 2 x.src x.code p x.station x.req 0 x.addr).trailEv p 0x0A 1
    [(20, 2, x.req), (22, 1, x.src), (23, 1, x.code), (24, 2, x.station), (32, 8, x.addr)]

/-- No commit is applied for the request. -/
def FrameSt.failedReq (f : FrameSt) (n : Nat) : Bool := f.failed.any (fun x => x.req == n)

/-- A commit is applied or, for a failed request, only recorded (R408, R632). -/
def State.publishCommit (s : State) (p : Nat) (f : FrameSt) (k : Commit) : State :=
  let failed := k.failed || f.failedReq k.req
  let s := if failed then s else s.applyCommit p k
  s.updPart p (fun q => { q with commitRecs := q.commitRecs ++ [s.commitRec p k failed (f.clipped.contains k.req)] })

/-- A commit note of a sampling module is applied (R411). -/
def State.applyNote (s : State) (f : FrameSt) (x : Nat × Nat × Nat × Nat) : State :=
  if f.failedReq x.1 then s
  else s.updReq x.1 (fun e => { e with len := x.2.2.1, passes := x.2.2.2, sflags := Nat.lor e.sflags (x.2.1 % 8) })

/-- The commits of the frame in ascending request order, then the notes, the promotion state and the drafts. -/
def State.publishPasses (s : State) (p : Nat) (f : FrameSt) : State :=
  let s := (s.servedReqs p f).foldl (fun s n => s.serveReq p f n) s
  let s := f.failed.foldl (fun s x => s.failServed p x) s
  let s := (sortBy (fun (a b : Commit) => decide (a.req ≤ b.req)) f.commits).foldl (fun s k => s.publishCommit p f k) s
  let s := (s.part p).notesIn.foldl (fun s x => s.applyNote f x) s
  let s := s.updPart p (fun q => { q with notesIn := [] })
  ((s.promote p f).publishDraws p (f.failed.map (·.req))).tierPublish p

/-! ### Completions (R516, R517) -/

/-- The TOKENS entries that an admitted entry would yield: each a commit and the place of its four tokens. -/
def FrameSt.tokenEnts (f : FrameSt) (b : List Byte) : List (Commit × Nat) :=
  ((entryReqs b).eraseDups).flatMap (fun n => match f.commits.find? (fun k => k.req == n && !k.failed && !f.failedReq n) with
    | some k => (List.range (ceilDiv k.toks.length 4)).map (fun i => (k, i))
    | none => [])

/-- The completions of an admitted entry: its TOKENS entries within CPL, then one DONE entry. -/
def State.entryCpls (s : State) (f : FrameSt) (e : Entry) : List (List Byte) :=
  let all := f.tokenEnts e.bytes
  let out := all.take (entryCpl e.bytes - 1)
  let trunc := decide (out.length < all.length)
  let toks := (out.zipIdx).map (fun x =>
    let k := x.1.1
    let i := x.1.2
    let last := decide (k.toks.length ≤ 4 * i + 4)
    let more := match out[x.2 + 1]? with
      | some y => y.1.req == k.req
      | none => false
    let part := (k.toks.drop (4 * i)).take 4
    s.completion 0x12 ((if last then k.flags % 8 else 0) + 8 * b2n (f.clipped.contains k.req) + 32 * b2n more) k.req (entryHost e.bytes)
      part.length part k.newLen)
  let named := entryReqs e.bytes
  let ends := (all.map (fun x => x.1.flags % 8)).foldl Nat.lor 0
  toks ++ [s.completion 0x11 ((if trunc then 64 else ends) + 8 * b2n (named.any f.clipped.contains) + 16 * b2n (named.any f.failedReq)) 0xFFFF
    (entryHost e.bytes) 0 [] 0]

/-- The completions of the frame, written by the lead; the space that its entries reserved is free again (R511, R514). -/
def State.writeCompletions (s : State) (p : Nat) (f : FrameSt) : State :=
  if !s.isLead p then s
  else
    let held := sumN (f.entries.map (fun e => entryCpl e.bytes))
    (s.updPart p (fun q => { q with cq0Reserved := q.cq0Reserved - held })).writeOut p 0 (f.entries.flatMap (fun e => s.entryCpls f e))

/-! ### The trail (R649, R657, R659) -/

/-- The value at a byte offset of a record's body. -/
def TrailRec.fld (r : TrailRec) (off : Nat) : Nat := match r.body.find? (fun x => x.1 == off) with
  | some x => x.2.2
  | none => 0

/-- The FRAME record. -/
def State.frameRec (s : State) (p : Nat) (f : FrameSt) : TrailRec :=
  let cores := s.coresOf p
  let applied := (f.commits.filter (fun k => !k.failed && !f.failedReq k.req)).length
  let ffl := b2n f.maint + 2 * b2n f.audit + 4 * b2n f.calSlot + 8 * b2n f.flip + 16 * b2n f.clip
  { type := 0x02, units := 1 + ceilDiv (8 * cores.length) 64, frame := f.seq
    body := [(20, 6, f.admitTick), (26, 2, min (s.tickNum - f.admitTick) 65535), (28, 1, min f.slipOvr 255), (29, 1, min f.slipFb 255),
      (30, 1, min f.slipGov 255), (31, 1, ffl), (32, 2, f.entries.length), (34, 2, applied), (36, 4, (s.part p).wsGen), (40, 2, cores.length)] ++
      ((cores.zip f.coreInfo).zipIdx).flatMap (fun x =>
        [(60 + 8 * x.2, 4, x.1.2.1), (64 + 8 * x.2, 2, x.1.2.2.1), (66 + 8 * x.2, 1, x.1.2.2.2 % 2 + 2 * b2n (s.core x.1.1).stale)]) }

/-- The records of a publication, in their order: events, draws by request and token index, commits by request, and the frame. -/
def State.pubRecs (s : State) (p : Nat) (f : FrameSt) : List TrailRec :=
  let q := s.part p
  let byReq := fun (a b : TrailRec) => decide (a.fld 20 ≤ b.fld 20)
  let byDraw := fun (a b : TrailRec) => decide (a.fld 20 < b.fld 20) || (a.fld 20 == b.fld 20 && decide (a.fld 24 ≤ b.fld 24))
  q.events ++ sortBy byDraw q.draws ++ sortBy byReq q.commitRecs ++ [s.frameRec p f]

/-- Writes the records of a publication. -/
def State.flushTrail (s : State) (p : Nat) (f : FrameSt) : State :=
  let rs := s.pubRecs p f
  (rs.foldl (fun s r => s.writeRec p r) s).updPart p (fun q => { q with events := [], draws := [], commitRecs := [] })

/-- The records that the frame would write now: those that wait and those that its publication forms (R661). -/
def State.dueRecs (s : State) (p : Nat) (f : FrameSt) : List TrailRec :=
  let rec_ : Nat → TrailRec := fun n => { type := 0, units := n, frame := f.seq, body := [] }
  let drafts := (s.winnow.draws.filter (fun d => d.part == p && d.mode == 1 && d.stage == 3 && d.code == 0)).length
  let maint := if f.maint then (s.coresOf p).length else 0
  s.pubRecs p f ++ List.replicate f.failed.length (rec_ 1) ++ List.replicate (f.commits.length + drafts) (rec_ 2) ++ List.replicate maint (rec_ 1)

/-! ### Maintenance frames (R644, R647, R649) -/

/-- The end of a maintenance frame on a core: its MAINT record where it ran something, and its request, all of whose kernels have run, is
done. `cal` tells whether a calibration run ended in the frame. -/
def State.endMaint (s : State) (p : Nat) (cal : List Nat) (c : Nat) : State :=
  let ran := match s.glean c with
    | some g => g.ran
    | none => 0
  let s := if ran = 0 ∧ !cal.contains c then s
    else s.trailEv p 0x0C 1 [(20, 2, c), (22, 1, ran), (23, 1, b2n (cal.contains c)), (24, 1, ((s.glean c).map (·.fail)).getD 0)]
  s.gleanDone c

/-- A maintenance frame is published: it counts in MAINT_FRAMES and has no completions. -/
def State.publishMaint (s : State) (p : Nat) (cal : List Nat) : State :=
  (s.coresOf p).foldl (fun s c => s.endMaint p cal c) (s.bump R.ptest_MAINT_FRAMES 1 p)

/-! ### The publication -/

/-- FRAME_SEQ, PUB and the state registers after a publication (R81). -/
def State.countFrame (s : State) (p : Nat) : State :=
  ((s.wr R.frm_FRAME_SEQ ((s.rd R.frm_FRAME_SEQ p + 1) % 2 ^ 32) p).setWide R.frm_PUB_LO R.live_PUB_HI s.tickNum p).wr R.frm_STATE 1 p

/-- A policy write takes effect (R80, R163). -/
def State.takePolicy (s : State) (p : Nat) : State := match (s.part p).policyNext with
  | some v => (s.wr R.fmtp_POLICY v p).updPart p (fun q => { q with policyNext := none })
  | none => s

/-- The units that return at the edge, and pending closes (R478, R480). -/
def State.returnWindows (s : State) (p : Nat) : State :=
  (s.coresOf p).foldl (fun s c => (s.core c).windows.foldl (fun s v => s.windowReturn c v.1) s) s

/-- The frame's own effects at c 64. -/
def State.publishFrame (s : State) (p : Nat) (f : FrameSt) (cal : List Nat) : State :=
  let cores := s.coresOf p
  let s := s.returnWindows p
  let s := if f.maint then s.publishMaint p cal else s.publishPasses p f
  let s := if f.audit then cores.foldl (fun s c => s.closeAudit c) s else s
  let s := if s.rpRuns p then s.rpPublish p f (s.rd R.rp_RP_SRC_UNITS p + 1) else s
  let s := ((s.flushTrail p f).rpEnd p)
  let s := if f.maint then s else s.writeCompletions p f
  ((s.countFrame p).takePolicy p).updPart p (fun q => { q with frame := none })

/-- A partition's frame is published at c 64 of an edge (R69); `cal` lists the cores whose calibration run had ended before the edge. -/
def State.publish (s : State) (p : Nat) (cal : List Nat) : State := match (s.part p).frame with
  | some f => s.publishFrame p f cal
  | none => s

end Sys2Proof.Machine
end

