-- ==== Sys2Proof/Machine/TickUnit.lean ====
section
/-! DEFINITION. The tick unit (R55 to R65, R82, R83, R493, R498, R560): tick marks, the upstream port, holdover, period changes and the
first edge. -/

namespace Sys2Proof.Machine

/-- Changes the tick unit. -/
def State.updTick (s : State) (f : TickSt → TickSt) : State := { s with tick := f s.tick }

/-! ### Roles and ports (R62, R493, R498) -/

/-- A block master in a field, other than the field master: it follows FIELD marks (R498). -/
def State.followsField (s : State) : Bool := s.rd R.tick_ROLE == 1 && s.rd R.msg_BLK != 0 && s.flag R.msg_FIELD_EN

/-- The module places its edges by tick marks. -/
def State.followsMarks (s : State) : Bool := s.rd R.tick_ROLE == 0 || s.followsField

/-- A port by which the module's tick marks may come: an up inner port, or an up outer port for FIELD marks. -/
def State.tickPort (s : State) (n : Nat) : Bool := s.portUp n && s.flag R.port_MODE n == s.followsField

/-- The candidate ports. -/
def State.tickPorts (s : State) : List Nat := (List.range 24).filter s.tickPort

/-- The port with the least sum, and among equal sums the lowest number, of the ports that have one (R62). -/
def leastPort (sums : Tbl Nat) : List Nat → Option Nat
  | [] => none
  | n :: r => match Tbl.find sums n, leastPort sums r with
    | none, o => o
    | some _, none => some n
    | some x, some m => if x ≤ Tbl.get 0 sums m then some n else some m

/-- Partitions that run frames over several modules and are not yet due for a reset. -/
def State.spanning (s : State) : List Nat := (List.range 64).filter (fun p => s.enabled p && s.span p && (s.part p).resetDue.isNone)

/-- An error of the tick unit: code 0, with an item that tells which (log entry 51): 1 late publish, 2 frame watchdog, 3 tick number, 4
holdover, 5 upstream port. -/
def State.tickErr (s : State) (item : Nat) : State := s.logErr 1 0x0D 0 0xFF 561 0xFFFF item

/-- The tick unit resets a partition. -/
def State.tickFatal (s : State) (p item : Nat) : State := s.partFatal 0x0D 0 p 561 0xFFFF item

/-! ### Marks -/

/-- A tick mark: its port, number, period, elapsed delay and phase error; a mark in a flit sent again has none (R460). -/
structure Mark where
  port : Nat
  num : Nat
  period : Nat
  elapsed : Nat
  phase : Option (BitVec 16)
  field : Bool

/-- The elapsed delay on arrival with the port's own path delay, in 1/16 ns. -/
def State.markSum (s : State) (m : Mark) : Nat := m.elapsed + s.rd R.port_PATH_DELAY m.port

/-- A TICK message (chapter 15). -/
def State.tickMsg (s : State) (num period elapsed : Nat) (field : Bool) : LinkMsg :=
  s.mkMsg 0x05 (8 * b2n field) 0 561 0xFFF 0 (num % 2 ^ 32) (num / 2 ^ 32 % 65536 + 2 ^ 16 * period + 2 ^ 24 * (elapsed % 2 ^ 24))

/-- Passes a mark on by every other up port of its kind, with the path delay and the forwarding time added: a free value of at most 32 cycles
(R62, R484, R498, log entry 50). -/
def State.forwardMark (s : State) (m : Mark) : State :=
  let out := s.tickPorts.filter (· != m.port)
  if out.isEmpty then s
  else
    let msg := s.tickMsg m.num m.period (s.markSum m + s.free 9 % 257) m.field
    out.foldl (fun s n => s.queueMsg n msg) s.drawn

/-- The phase error measured against the mark, the delay it shows, and ALIGN_ERR above 2 ns; a mark sent again places no edge and raises none of
these (R460). -/
def State.showPhase (s : State) (m : Mark) : State := match m.phase with
  | none => s
  | some x =>
    let s := (s.wr R.tick_PHASE_ERR x.toNat).wr R.tick_PATH_DELAY (min (s.markSum m / 8) 65535)
    if 32 < x.toInt.natAbs then s.wr R.tick_ALIGN_ERR 1 else s

/-- What a mark's period tells a follower: the change announced 16 ticks ahead, or a period that it does not expect at the named tick, which it
follows under NUM_ERR (R59). A mark names no tick for the change: the follower takes the 16th after the first mark that carries the new
period, unless PERIOD_CHANGE_APPLY brings the change before it (DEDUCED, log entry 50). -/
def State.learnPeriod (s : State) (m : Mark) : State :=
  let now := s.rd R.tick_PERIOD_LOG2
  match s.tick.change with
  | none => if m.period = now then s else s.updTick (fun t => { t with change := some (m.period, m.num + 16) })
  | some (l, at_) =>
    if m.num ≠ at_ ∨ m.period = l then s
    else (s.updTick (fun t => { t with change := if m.period = now then none else some (m.period, at_) })).wr R.tick_NUM_ERR 1

/-- The mark comes back in holdover with the number that the module expects: ticks follow marks again (R83). -/
def State.realign (s : State) (port : Nat) : State :=
  ((((s.wr R.tick_HOLDOVER 0).wr R.tick_SOURCE_OK 1).wr R.tick_UPPORT port)).updTick (fun t =>
    { t with missUp := 0, missAll := 0, holdTicks := 0, agreeN := 0 })

/-- A mark in holdover may realign: 256 ticks have not passed, or no spanning partition is left. -/
def State.mayRealign (s : State) : Bool := decide (s.tick.holdTicks ≤ 256) || s.spanning.isEmpty

/-- A mark with an unexpected number (R83): NUM_ERR; after 3 that agree the count is adopted, once no spanning partition is enabled. -/
def State.oddMark (s : State) (m : Mark) : State :=
  let d : Int := (m.num : Int) - (s.tickNum + 1)
  let n := if s.tick.agreeN ≠ 0 ∧ s.tick.agreeDiff = d then s.tick.agreeN + 1 else 1
  let s := (s.wr R.tick_NUM_ERR 1).updTick (fun t => { t with agreeDiff := d, agreeN := n })
  if n < 3 ∨ m.num = 0 then s
  else if s.spanEnabled then s.spanning.foldl (fun s p => s.tickFatal p 3) s
  else (s.setWide R.tick_NUM_LO R.live_NUM_HI (m.num - 1)).realign m.port

/-- A mark with the expected number. Before any edge at which every candidate has delivered a mark, the upstream port is that of the first mark
(DESIGN CHOICE, log entry 50). -/
def State.goodMark (s : State) (m : Mark) : State :=
  let s := s.updTick (fun t => { t with agreeN := 0 })
  let s := if s.flag R.tick_HOLDOVER && s.mayRealign then s.realign m.port else s
  let s := if s.rd R.tick_UPPORT = 0x1F then s.wr R.tick_UPPORT m.port else s
  if s.rd R.tick_UPPORT = m.port then ((s.showPhase m).learnPeriod m).forwardMark m else s

/-- The number of a mark is one that the module expects: that of the coming edge; for a FIELD mark, that of an edge 16,384 cycles less its delay
after an arrival in the rest of this tick (R498). -/
def State.expectsMark (s : State) (m : Mark) : Bool :=
  if m.field then
    let rem := 16384 - s.markSum m / 8
    let at_ := fun (c : Nat) => s.tickNum + (c + rem + s.period / 2) / s.period
    decide (s.tickNum < m.num) && decide (at_ s.cyc ≤ m.num) && decide (m.num ≤ at_ (s.period - 1))
  else m.num == s.tickNum + 1

/-- A mark arrives by a candidate port. A FIELD mark's port is chosen by its elapsed delay alone (R498). -/
def State.takeMark (s : State) (m : Mark) : State :=
  let s := s.updNet (fun k => { k with inbox := k.inbox.filter (fun x => !(x.type == 0x05 && msgTick x == m.num)) })
  if !(s.alive && s.flag R.tick_RUNNING && s.tickPort m.port && s.followsMarks && s.followsField == m.field) then s
  else
    let sum := if m.field then m.elapsed else s.markSum m
    let s := s.updTick (fun t => { t with seen := Marks.put t.seen m.port true, sums := Tbl.put t.sums m.port sum })
    if s.expectsMark m then s.goodMark m
    else if s.rd R.tick_UPPORT = m.port ∨ s.rd R.tick_UPPORT = 0x1F ∨ s.flag R.tick_HOLDOVER then s.oddMark m
    else s.wr R.tick_NUM_ERR 1

/-- TICK: a block tick mark at a member (R62, R63). -/
def execTick (port : BitVec 5) (num : BitVec 48) (period : BitVec 5) (elapsed : BitVec 20) (phase : Option (BitVec 16)) (s : State) : Out :=
  .next (s.takeMark ⟨port.toNat, num.toNat, period.toNat, elapsed.toNat, phase, false⟩)

/-- FIELD_TICK: a FIELD mark at a block master of a field (R65, R498). -/
def execFieldTick (port : BitVec 5) (num : BitVec 48) (period : BitVec 5) (elapsed : BitVec 20) (phase : Option (BitVec 16)) (s : State) : Out :=
  .next (s.takeMark ⟨port.toNat, num.toNat, period.toNat, elapsed.toNat, phase, true⟩)

/-! ### Loss of marks (R82, R83) -/

/-- What an edge notes of the marks for it: misses of the upstream port and of all ports, the choice of the upstream port where every candidate
delivered, and the ticks of a holdover. -/
def State.marksEdge (s : State) : State :=
  let s := s.updTick (fun t => { t with marked := false, fieldMarked := false })
  if !s.followsMarks then s.wr R.tick_SOURCE_OK 1
  else
    let up := s.rd R.tick_UPPORT
    let cands := s.tickPorts
    let any := cands.any (Marks.has s.tick.seen)
    let all := any && cands.all (Marks.has s.tick.seen)
    let hold := s.flag R.tick_HOLDOVER
    let best := if all then (leastPort s.tick.sums cands).getD up else up
    let s := s.updTick (fun t => { t with
      seen := [], sumsAll := if all then t.sums else t.sumsAll, missUp := if Marks.has t.seen up then 0 else t.missUp + 1, missAll := if any then 0 else t.missAll + 1
      holdTicks := if hold then t.holdTicks + 1 else 0 })
    let s := if any && !hold then s.wr R.tick_SOURCE_OK 1 else s
    if best = up then s else (s.wr R.tick_UPPORT best).updTick (fun t => { t with missUp := 0 })

/-- UPSTREAM_SWITCH: 2 edges have passed without a mark from the upstream port: the next port takes its place, by the sums of the most recent
edge at which every candidate delivered (R62, R82), or before any such edge by those of the marks so far (DESIGN CHOICE, log entry 50). -/
def execUpstreamSwitch (s : State) : Out :=
  .next (if s.alive && s.flag R.tick_RUNNING && s.followsMarks && !s.flag R.tick_HOLDOVER && decide (2 ≤ s.tick.missUp) then
    match leastPort (if s.tick.sumsAll.isEmpty then s.tick.sums else s.tick.sumsAll) (s.tickPorts.filter (· != s.rd R.tick_UPPORT)) with
    | none => s
    | some n => ((s.wr R.tick_UPPORT n).updTick (fun t => { t with missUp := 0 })).tickErr 5
  else s)

/-- HOLDOVER_ENTRY: 4 edges have passed without a mark from any port (R82). -/
def execHoldoverEntry (s : State) : Out :=
  .next (if s.alive && s.flag R.tick_RUNNING && s.followsMarks && !s.flag R.tick_HOLDOVER && decide (4 ≤ s.tick.missAll) then
    (((s.wr R.tick_HOLDOVER 1).wr R.tick_SOURCE_OK 0).updTick (fun t => { t with holdTicks := 0 })).tickErr 4
  else s)

/-- HOLDOVER_TIMEOUT: after 256 ticks of holdover every spanning partition is reset (R83). -/
def execHoldoverTimeout (s : State) : Out :=
  .next (if s.alive && s.flag R.tick_HOLDOVER && decide (256 ≤ s.tick.holdTicks) then
    s.spanning.foldl (fun s p => s.tickFatal p 4) s
  else s)

/-- HOLDOVER_REALIGN: a returning mark whose number matches the module's own count (R83). -/
def execHoldoverRealign (port : BitVec 5) (num : BitVec 48) (s : State) : Out :=
  .next (if s.alive && s.flag R.tick_HOLDOVER && s.tickPort port.toNat && num.toNat == s.tickNum + 1 && s.mayRealign then
    s.realign port.toNat
  else s)

/-! ### Period changes (R58, R59) -/

/-- A partition is enabled for the rules of a period change: it is CHECKING, ENABLING, ENABLED or FROZEN (R544). -/
def State.partBusy (s : State) : Bool := (List.range 64).any (fun p => [1, 2, 3, 5].contains (s.pstate p))

/-- PERIOD_AT. -/
def State.periodAt (s : State) : Nat := s.rd R.tick_AT_LO + 2 ^ 32 * s.rd R.tick_AT_HI

/-- PCHG after an ARM: the first refusal that applies, in code order; 1 where it is accepted (R58, R498). -/
def State.armCode (s : State) : Nat :=
  if s.partBusy then 3
  else if s.periodAt < s.tickNum + 16 then 4
  else if s.rd R.tick_NEXT_LOG2 < 12 ∨ 17 < s.rd R.tick_NEXT_LOG2 then 5
  else if s.followsMarks then 6
  else 1

/-- 1 written to PERIOD_ARM. -/
def State.periodArm (s : State) : State :=
  let code := s.armCode
  let s := s.wr R.tick_PCHG code
  if code = 1 then s.updTick (fun t => { t with change := some (s.rd R.tick_NEXT_LOG2, s.periodAt) }) else s

/-- PERIOD_ARM. -/
def execPeriodArm (s : State) : Out := .next (if s.hostOk then s.periodArm else s)

/-- A period change whose tick has come is applied (R55, R58), at tick `n`: on the master it is refused while a partition is enabled; a follower
with one enabled here follows the marks under NUM_ERR (R59, log entry 50). Deadlines are counted over the periods (R372). -/
def State.applyPeriod (s : State) (n : Nat) : State :=
  match s.tick.change with
  | none => s
  | some (l, at_) =>
    if n < at_ then s
    else
      let s := s.updTick (fun t => { t with change := none })
      if !s.followsMarks && s.partBusy then s.wr R.tick_PCHG 3
      else
        let old := s.rd R.tick_PERIOD_LOG2
        let s := (s.wr R.tick_PERIOD_LOG2 l).updTick (fun t => { t with history := (at_, old) :: t.history })
        let s := (s.resetIdle.periodVisit 0).periodVisit 1
        if s.followsMarks then (if s.partBusy then s.wr R.tick_NUM_ERR 1 else s) else s.wr R.tick_PCHG 2

/-- PERIOD_CHANGE_APPLY: the tick that has just begun is the named one. TICK_EDGE applies a change whose tick it knows to have come; for a
follower that has learnt of the change and not of its tick, the named tick is this one (log entry 50). A tick that is under way keeps its
period (R55). -/
def execPeriodChangeApply (s : State) : Out :=
  .next (if s.alive && s.flag R.tick_RUNNING && s.cyc == 0 then
    s.applyPeriod (match s.tick.change with
      | some (_, at_) => if s.followsMarks then at_ else s.tickNum
      | none => s.tickNum)
  else s)

/-! ### Marks sent (R61, R498) -/

/-- The period that the mark for an edge carries: the new one from 16 ticks before a change (R59). -/
def State.markPeriod (s : State) (n : Nat) : Nat := match s.tick.change with
  | some (l, at_) => if at_ ≤ n + 16 then l else s.rd R.tick_PERIOD_LOG2
  | none => s.rd R.tick_PERIOD_LOG2

/-- Sends a mark on every up port of a kind. -/
def State.markPorts (s : State) (m : LinkMsg) (outer : Bool) : State :=
  (List.range 24).foldl (fun s k => if s.portUp k && s.flag R.port_MODE k == outer then s.queueMsg k m else s) s

/-- The marks that are due in this tick and have not left: from c (P - 1,024) the mark for the next edge, on all up inner ports of a block master
(R61); and from 16,384 cycles before the edge that it names the field master's FIELD mark, on its outer ports (R498). -/
def State.sendMarks (s : State) : State :=
  let n := s.tickNum + 1
  if s.rd R.tick_ROLE = 0 then s
  else
    let s := if !s.tick.marked && decide (s.period ≤ s.cyc + 1024) then
        (s.markPorts (s.tickMsg n (s.markPeriod n) 0 false) false).updTick (fun t => { t with marked := true })
      else s
    let f := s.tickNum + max 1 (16384 / s.period)
    if s.rd R.tick_ROLE = 2 && !s.tick.fieldMarked && decide (s.period ≤ s.cyc + 16384) then
      (s.markPorts (s.tickMsg f (s.markPeriod f) 0 true) true).updTick (fun t => { t with fieldMarked := true })
    else s

/-- Brings the cycle offset to at least `n`; the marks that are due by then leave. -/
def State.toCycle (s : State) (n : Nat) : State := (if s.cyc < n then s.wr R.tick_CYCLE n else s).sendMarks

/-! ### The first edge (R560) -/

/-- FIRST_TICK: the clock is locked. A master's first edge is numbered 0; a member's is that of its first mark, or 0 in holdover. -/
def execFirstTick (mark : Option (BitVec 5 × BitVec 48)) (s : State) : Out :=
  let st := s.rd R.mgmt_STAGE
  .next (if s.alive && s.mgmt.released && !s.flag R.tick_RUNNING && decide (3 ≤ st) && decide (st ≤ 8) then
    let s := (s.wr R.tick_RUNNING 1).wr R.tick_CYCLE 0
    let s := if s.rd R.tick_ROLE ≠ 0 then s.wr R.tick_SOURCE_OK 1
      else match mark with
        | some m => ((s.setWide R.tick_NUM_LO R.live_NUM_HI m.2.toNat).wr R.tick_SOURCE_OK 1).wr R.tick_UPPORT m.1.toNat
        | none => s.wr R.tick_HOLDOVER 1
    s.governorLevels.sendMarks
  else s)

end Sys2Proof.Machine
end

