-- ==== Sys2Proof/Machine/Frames.lean ====
section
/-! DEFINITION. Completion, cut, slips and the publish notes of frames (R70 to R79, R188, R514, R661). -/

namespace Sys2Proof.Machine

/-! ### Completion (R71, R415, R647) -/

/-- The engines of a core have retired the frame's end-of-frame command, the queues have reached the counts that the frame names, and every
window write and reduction add has been acknowledged or poisoned (R71). -/
def State.coreDone (s : State) (c : Nat) : Bool :=
  let k := s.core c
  [Engine.matrix, .vector, .transfer, .weight].all (fun e => s.rd (engState e) c == 0 || s.rd (engState e) c == 4) &&
    (k.fqEnd.zipIdx).all (fun x => reached (s.rd R.core_FQ_CPL c x.2) x.1) &&
    (k.sqEnd.zipIdx).all (fun x => reached (s.rd R.core_SQ_DONE c x.2) x.1) &&
    k.sqs.all (fun q => q.2.all (fun x => x.op == 0xA1 || x.op == 0xA8))

/-- The verify draws of a request have all finished. -/
def State.verifyFull (s : State) (p n : Nat) : Bool :=
  let ds := (s.drawsOf p n).filter (fun d => d.mode == 0 && d.stage == 3 && d.code != 0x78)
  (List.range ((s.req n).kround + 1)).all (fun i => ds.any (fun d => d.out == i))

/-- Every draw of the frame has been committed, or will be discarded: all have finished, and complete verify passes are decided. -/
def State.drawsDone (s : State) (p : Nat) : Bool :=
  (s.winnow.draws.filter (fun d => d.part == p)).all (fun d =>
    d.stage == 3 && (d.mode != 0 || d.code == 0x78 || s.decided p d.req || !s.verifyFull p d.req || (s.drawsOf p d.req).any (fun x => x.code == 0x74)))

/-- A maintenance frame has run its overdue runs and its kernels (R647). -/
def State.maintDone (s : State) (p : Nat) : Bool :=
  (s.coresOf p).all (fun c => !s.flag R.cal_RUNNING c && !(s.flag R.cal_DUE c && decide (1024 ≤ (s.core c).cal.dueFrames)) &&
    (match s.glean c with
      | some g => !g.open_ || !g.taken || (s.nextKernel g).isNone
      | none => true))

/-- Everything that R71 names has finished. -/
def State.frameDone (s : State) (p : Nat) (f : FrameSt) : Bool :=
  (s.coresOf p).all s.coreDone && s.drawsDone p && f.notes == 0 && (!f.maint || s.maintDone p)

/-- The trail has room for the frame's records (R661). -/
def State.trailRoom (s : State) (p : Nat) (f : FrameSt) : Bool := s.flag R.trail_TR_FULL p || s.recsFit p (s.dueRecs p f)

/-- A member's done note: the lead notes its own, another sends it to the lead (R74). -/
def State.sendDone (s : State) (p : Nat) (seq : Nat) : State :=
  if s.isLead p then s.updFrame p (fun f => { f with dones := f.dones ++ [s.selfMod] })
  else s.sendMsg (s.mkMsg 0x0A 0 p 561 (s.leadMod p) 561 seq)

/-- A frame becomes complete; a verify pass with a draw missing is given up (R415). On a member of a spanning partition the done note
leaves, once the trail has room. -/
def State.completeFrame (s : State) (p : Nat) : State :=
  match (s.part p).frame with
  | none => s
  | some f =>
    if f.complete || !s.frameDone p f then s
    else
      let s := s.missingDraws p
      if s.span p && !s.trailRoom p f then s
      else
        let s := s.updFrame p (fun f => { f with complete := true })
        if s.span p then (s.wr R.frm_STATE 3 p).sendDone p f.seq.toNat else s

/-- FRAME_COMPLETE. -/
def execFrameComplete (p : BitVec 6) (s : State) : Out :=
  .next (if s.alive && s.pstate p.toNat == 3 then s.completeFrame p.toNat else s)

/-! ### The cut and slips (R72, R76, R79) -/

/-- Why a frame slips at a cut: 0 overrun, 1 fallback, 2 governor (R76, R188, R609); a maintenance frame always overruns (R647). -/
def State.slipCause (s : State) (p : Nat) (f : FrameSt) : Nat :=
  let prods := (s.coresOf p).flatMap (fun c => (s.core c).products)
  if f.maint then 0
  else if prods.any (·.deferred) || s.power.waiting.any (fun g => g.holder == Holder.part p) || (s.flag R.gov_HOLD && !prods.isEmpty) then 2
  else if s.rd R.fmtp_POLICY p = 0 ∧ prods.any (fun x => x.stage == 2 || (decide (1 ≤ x.step) && decide (x.stage ≤ 1))) then 1
  else 0

/-- One tick is added to the frame's span. -/
def State.slip (s : State) (p : Nat) (f : FrameSt) : State :=
  let s := if f.complete then s.bump R.trail_TR_HOLD (b2n (!s.trailRoom p f)) p else s.wr R.frm_STATE 2 p
  let cause := if f.complete then 0 else s.slipCause p f
  let mark := fun (g : FrameSt → FrameSt) => s.updFrame p (fun f => { g f with cutTick := s.tickNum + 1 })
  if cause = 2 then (mark (fun f => { f with slipGov := f.slipGov + 1 })).bump R.frm_SLIP_GOV 1 p
  else if cause = 1 then (mark (fun f => { f with slipFb := f.slipFb + 1 })).bump R.frm_SLIP_FB 1 p
  else (mark (fun f => { f with slipOvr := f.slipOvr + 1 })).bump R.frm_SLIP_OVR 1 p

/-- The cut of a partition's frame in its last tick: complete, it is published at the next edge; otherwise it slips. -/
def State.cutFrame (s : State) (p : Nat) : State :=
  match (s.part p).frame with
  | none => s
  | some f =>
    if s.pstate p ≠ 3 ∨ s.tickNum + 1 < f.admitTick + s.rd R.frm_FRAME_TICKS p ∨ f.cutTick = s.tickNum + 1 then s
    else if f.pubAt.isSome then s
    else if !s.span p && f.complete && s.trailRoom p f then s.updFrame p (fun f => { f with pubAt := some (s.tickNum + 1) })
    else s.slip p f

/-- FRAME_CUT: c (P - 32). -/
def execFrameCut (s : State) : Out :=
  .next (if s.alive && s.flag R.tick_RUNNING then (List.range 64).foldl (fun s p => s.cutFrame p) (s.toCycle (s.period - 32)) else s)

/-- The ticks by which a frame has slipped. -/
def FrameSt.slips (f : FrameSt) : Nat := f.slipOvr + f.slipFb + f.slipGov

/-- FRAME_WATCHDOG: a frame that has slipped for FRAME_LIMIT ticks is stopped, and its partition reset (R79). -/
def execFrameWatchdog (p : BitVec 6) (s : State) : Out :=
  let n := p.toNat
  .next (match (s.part n).frame with
    | none => s
    | some f =>
      if s.alive && s.pstate n == 3 && decide (s.rd R.frm_FRAME_LIMIT n ≤ f.slips) && f.pubAt.isNone && (s.part n).resetDue.isNone then
        ((s.coresOf n).foldl (fun s c => s.stopCore c) (s.wr R.frm_STATE 4 n)).tickFatal n 2
      else s)

/-! ### Spanning partitions (R74, R514) -/

/-- Removes the messages of a type and partition that wait here. -/
def State.dropNotes (s : State) (type p : Nat) (which : LinkMsg → Bool) : State :=
  s.updNet (fun k => { k with inbox := k.inbox.filter (fun m => !(m.type.toNat == type && msgPart m == p && which m)) })

/-- FDONE: a done note of a member reaches the lead (R74, R483). -/
def execFdone (p : BitVec 6) (member : BitVec 12) (seq : Word) (s : State) : Out :=
  let n := p.toNat
  .next (if s.alive && s.enabled n && s.span n && s.isLead n then
    (s.dropNotes 0x0A n (fun m => msgSrcMod m == member.toNat)).updFrame n (fun f =>
      if f.seq = seq ∧ !f.dones.contains member.toNat then { f with dones := f.dones ++ [member.toNat] } else f)
  else s)

/-- A disable takes effect at the publication edge `n` (R529). -/
def State.disablesAt (s : State) (p n : Nat) : Bool :=
  let at_ := s.wide R.part_DISABLE_AT_LO R.part_DISABLE_AT_HI p
  (s.part p).disableReq && (at_ == 0 || decide (at_ ≤ n))

/-- The lead takes entries for the frame with number `seq` and sends the admission block to the members (R514). -/
def State.spanTake (s : State) (p seq : Nat) : State :=
  if (s.part p).maintAt == some seq || s.flag R.tick_HOLDOVER || s.disablesAt p (s.tickNum + 1) then s.updPart p (fun q => { q with taken := [] })
  else
    let r := s.takeEntries p
    let s := r.1.updPart p (fun q => { q with taken := r.2 })
    let es := (r.2.filter (fun e => e.outcome == 0)).map (·.bytes)
    let b := s.admitBlock (BitVec.ofNat 32 seq) es
    (s.peers p).foldl (fun s k => s.sendMsg { s.mkMsg 0x01 0 p 561 k 561 0 with data := b.take 64 :: es }) s

/-- The lead holds the done notes of every member (R74). -/
def State.allDone (s : State) (p : Nat) (f : FrameSt) : Bool :=
  f.dones.contains s.selfMod && decide (s.nmod p + 1 ≤ (f.dones.eraseDups).length) && decide (f.admitTick + s.rd R.frm_FRAME_TICKS p ≤ s.tickNum + 1)

/-- The lead names the next edge for the frame in progress and takes the next frame's entries; before the first frame it takes those alone. -/
def State.leadCheck (s : State) (p : Nat) : State :=
  if !s.span p || !s.isLead p then s
  else match (s.part p).frame with
    | some f =>
      if s.pstate p == 3 && f.pubAt.isNone && s.allDone p f then
        let n := s.tickNum + 1
        let m := fun (s : State) (k : Nat) => s.mkMsg 0x0B 0 p 561 k 561 (n % 2 ^ 32) (n / 2 ^ 32)
        let s := (s.peers p).foldl (fun s k => s.sendMsg (m s k)) (s.updFrame p (fun f => { f with pubAt := some n }))
        s.spanTake p (f.seq.toNat + 1)
      else s
    | none =>
      if s.pstate p == 2 && (s.part p).zeroDone && (s.part p).goNote == some true && s.enableAt p == s.tickNum + 1 then s.spanTake p 0 else s

/-- PUBLISH_CHECK: c (P - 2,048). -/
def execPublishCheck (s : State) : Out :=
  .next (if s.alive && s.flag R.tick_RUNNING then (List.range 64).foldl (fun s p => s.leadCheck p) (s.toCycle (s.period - 2048)) else s)

/-- PUBLISH: a publish note. One that comes after the edge it names resets the partition (R74). -/
def execPublish (p : BitVec 6) (edge : BitVec 48) (s : State) : Out :=
  let n := p.toNat
  .next (if s.alive && s.pstate n == 3 && s.span n then
    let s := s.dropNotes 0x0B n (fun m => msgTick m == edge.toNat)
    if edge.toNat ≤ s.tickNum then s.tickFatal n 1 else s.updFrame n (fun f => { f with pubAt := some edge.toNat })
  else s)

end Sys2Proof.Machine
end

