-- ==== Sys2Proof/Machine/Partition.lean ====
section
/-! DEFINITION. Partitions (chapter 17): enable and disable requests, the end of ENABLING, go notes, resets, the end of a scrub and the
core table. -/

namespace Sys2Proof.Machine

/-- 1 written to ENABLE (R528, R536, R544). -/
def State.enableReq (s : State) (p : Nat) : State :=
  if s.pstate p != 0 then s.hae 2 0 0 true 4 (0x00201000 + 0x40 * p) 1
  else
    let s := (s.wr R.part_PSTATE 1 p).updPart p PartSt.idle
    { s with mgmt := { s.mgmt with checkq := s.mgmt.checkq.filter (· != p) ++ [p] } }.syncChecks

/-- ENABLE. -/
def execEnable (p : BitVec 6) (s : State) : Out := .next (if s.hostOk then s.enableReq p.toNat else s)

/-- 1 written to DISABLE (R528, R529): a check or an enable is cancelled, an orderly disable is requested, a frozen partition is reset. -/
def State.disableReq (s : State) (p : Nat) : State :=
  match s.pstate p with
  | 1 => s.endCheck p 0xFE
  | 2 => s.endCheck p 0xFE
  | 3 => s.updPart p (fun q => { q with disableReq := true })
  | 5 => s.requestReset p 1
  | _ => s

/-- DISABLE. -/
def execDisable (p : BitVec 6) (s : State) : Out := .next (if s.hostOk then s.disableReq p.toNat else s)

/-- Zeroes the bushels of the extents that ask for it, and clears ZERO (R537). -/
def State.zeroExtents (s : State) (p : Nat) : State :=
  (List.range 64).foldl (fun s e =>
    if s.extValid p e && s.extZero p e then
      (s.zeroGrans (32768 * s.extFirst p e) (32768 * s.extCount p e)).wr R.tab_EXT (s.rd R.tab_EXT p (2 * e + 1) - 2 ^ 29) p (2 * e + 1)
    else s) s

/-- Queues the flips that the check found (R537). -/
def State.queueFlips (s : State) (p : Nat) : State :=
  (s.part p).flips.foldl (fun s f => s.updCore f.1 (fun k => { k with
    flipReqs := k.flipReqs ++ [{ set := f.2.1, version := f.2.2, tally := none, frame := none, fromEnable := true }] })) s

/-- ENABLING_DONE: zeroing has ended and the flips are queued; the partition waits for its enable edge (R537). -/
def execEnablingDone (p : BitVec 6) (s : State) : Out :=
  let n := p.toNat
  .next (if s.alive && s.pstate n == 2 && !(s.part n).zeroDone then
    ((s.zeroExtents n).queueFlips n).updPart n (fun q => { q with zeroDone := true, flips := [] })
  else s)

/-- GO_TIMEOUT: a member with no go note by c 0 of ENABLE_AT refuses (R540). -/
def execGoTimeout (p : BitVec 6) (s : State) : Out :=
  let n := p.toNat
  .next (if s.alive && s.span n && s.leadMod n != s.selfMod && (s.pstate n == 1 || s.pstate n == 2) && (s.part n).goNote.isNone &&
      decide (s.enableAt n ≤ s.tickNum) then s.refuse n 0x71 (s.leadMod n) else s)

/-- PARTITION_RESET: a partition-fatal event from the world, with its source, code and station (R530, R633); where a weight-set table entry
was found poisoned it reads VALID = 0 until its set is adopted or programmed again. -/
def execPartitionReset (p : BitVec 6) (src code : Byte) (station : BitVec 10) (entry : Option (BitVec 9 × BitVec 12)) (s : State) : Out :=
  let n := p.toNat
  .next (if s.alive && s.enabled n then
    let s := s.partFatal src.toNat code.toNat n station.toNat
    match entry with
    | some (c, w) => s.updSet c.toNat w.toNat (fun _ => {})
    | none => s
  else s)

/-- The store granules of a core that were read before the disable edge have been written, each whole, before the scrub began (R352). -/
def State.landStores (s : State) (p c : Nat) : State :=
  let s := ((s.core c).sqs.flatMap (·.2)).foldl (fun s x => if x.op == 0xA1 && x.read && !x.done then s.landStore c p x.cmd x.data else s) s
  s.updCore c (fun k => { k with sqs := [] })

/-- DISABLE_SCRUB_DONE: the scrub is complete and the partition is DISABLED (R528, R529); no store of it lands any more. -/
def execDisableScrubDone (p : BitVec 6) (s : State) : Out :=
  let n := p.toNat
  .next (if s.alive && s.pstate n == 4 && (s.part n).scrubbing then
    (((s.coresOf n).foldl (fun s c => s.landStores n c) s).wr R.part_PSTATE 0 n).updPart n (fun q => { q with scrubbing := false })
  else s)

/-! ### The core table (R533, R542) -/

/-- The table entry of a core as a word. -/
def State.coreWord (s : State) (c : Nat) : Nat :=
  s.rd R.ctab_OWNER c + 2 ^ 6 * s.rd R.ctab_OWNED c + 2 ^ 8 * s.rd R.ctab_FRAME_HDR c + 2 ^ 25 * s.rd R.ctab_STAGE_EN c +
    2 ^ 26 * s.rd R.ctab_STAGE_FOR c

/-- A write of a core table entry is one that R533 and R542 take. -/
def State.coreWriteOk (s : State) (c v : Nat) : Bool :=
  let owned := bitOf v 6
  let bind := decide (bitsOf v 0 7 ≠ s.coreWord c % 128) || decide (bitsOf v 8 17 ≠ s.rd R.ctab_FRAME_HDR c)
  let free := fun q => s.pstate q == 0
  let bindOk := (!s.flag R.ctab_OWNED c || free (s.rd R.ctab_OWNER c)) && (!owned || free (bitsOf v 0 6))
  let permit := match s.enabledOwner c with
    | some q => s.stagePermit q
    | none => true
  (!bind || bindOk) && (!bitOf v 25 || (permit && free (bitsOf v 26 6)))

/-- A write of a core table entry; a core that is rebound loses its queued glean request (*Test events that meet*). -/
def State.coreTable (s : State) (c v : Nat) : State :=
  if s.coreWriteOk c v then
    let moved := decide (bitsOf v 0 7 ≠ s.coreWord c % 128)
    let s := if moved then s.dropGleans (· == c) else s
    ((((s.wr R.ctab_OWNER (bitsOf v 0 6) c).wr R.ctab_OWNED (bitsOf v 6 1) c).wr R.ctab_FRAME_HDR (bitsOf v 8 17) c).wr R.ctab_STAGE_FOR
      (bitsOf v 26 6) c).wr R.ctab_STAGE_EN (if moved then 0 else bitsOf v 25 1) c
  else s.hae 2 0 0 true 4 (0x00202000 + 4 * c) v

/-- CORE_TABLE_WRITE. -/
def execCoreTableWrite (core : BitVec 9) (value : Word) (s : State) : Out :=
  .next (if s.hostOk then s.coreTable core.toNat value.toNat else s)

end Sys2Proof.Machine
end

