-- ==== Sys2Proof/Machine/StoreQueues.lean ====
section
/-! DEFINITION. The store queues: the reading of a command's source and the delivery of its granules (R287, R288, R346, R348, R391,
R476). -/

namespace Sys2Proof.Machine

/-- A send that failed under code 0x30 sends nothing. -/
def SqEnt.dead (x : SqEnt) : Bool := (x.op == 0xA6 || x.op == 0xA7) && x.num == 0x30

/-- What reading a command's source does: the state, the data captured and the acknowledgements then awaited. -/
def State.readSource (s : State) (c : Nat) (x : SqEnt) : State × List (List Byte × Bool) × List (Nat × Nat) :=
  let runs := sqRuns x
  let take := fun (s : State) => runs.foldl (fun (acc : State × List (List Byte × Bool)) r =>
    let s := acc.1.eccLoftN c r.1 (min r.2 (131072 - r.1))
    (s, acc.2 ++ (List.range r.2).map (fun i => s.takeGran c (r.1 + i)))) (s, [])
  if x.dead then (s, [], [])
  else if x.op = 0xA1 then let r := s.readStore c x.cmd
                           (r.1, r.2, [])
  else if x.op = 0xA3 then
    let r := take s
    let w := r.1.wwrites c ((r.1.owner c).getD 0) (x.cmd.fld 113 12) (x.cmd.fld 125 9) (x.cmd.fld 134 4) (x.cmd.fld 138 17) x.num
      (x.cmd.fld 155 1 == 1) r.2
    (w.1, r.2, w.2.map (fun n => (n, 0)))
  else if x.op = 0xA6 then
    let r := take s
    let w := r.1.sendCopies c x.cmd x.gens r.2
    (w.1, r.2, w.2)
  else if x.op = 0xA7 then let r := s.readRsend c x.cmd
                           (r.1, r.2, [])
  else let r := s.readDraw c x.cmd
       (r.1, r.2, [])

/-- The first command of a queue whose source has not been read. -/
def unread (x : SqEnt) : Bool := !x.read

/-- STORE_READ: the source of the oldest unread command of a store queue is read, and READ rises (R287). Sends of a core leave only while
its partition runs. -/
def execStoreRead (core : BitVec 9) (q : BitVec 3) (s : State) : Out :=
  let c := core.toNat
  .next (match s.findSq c q.toNat unread with
    | none => s
    | some x =>
      if s.goesOn c && (s.enabledOwner c).isSome then
        let r := (s.tookHead c (16 + q.toNat)).readSource c x
        let s := r.1.updSq c q.toNat unread (fun y => { y with read := true, data := r.2.1, wait := r.2.2 })
        s.wr R.core_SQ_READ (s.rd R.core_SQ_READ c q.toNat + 1) c q.toNat
      else s)

/-- A command that delivers its granules by itself and has not done so: a store, a reduction send or a failed send. -/
def undelivered (x : SqEnt) : Bool := x.read && !x.done && (x.op == 0xA1 || x.op == 0xA7 || x.dead)

/-- The delivery of a command's granules, none while a router input has no room. -/
def State.deliverSq (s : State) (c : Nat) (x : SqEnt) : Option State :=
  if x.dead then some s
  else if x.op = 0xA1 then some (s.landStore c ((s.owner c).getD 0) x.cmd x.data)
  else
    let k := sendCirc x.cmd
    match s.inputOf (c / 16) k (c % 16) with
    | none => some s
    | some i => s.feedNode (c / 16) k i (slabOf (x.cmd.fld 105 16) (x.cmd.fld 121 5) x.data)

/-- STORE_DONE: the oldest such command of a store queue has delivered its granules, and DONE rises in the queue's order (R287). A store
already read lands even when its partition is disabled. -/
def execStoreDone (core : BitVec 9) (q : BitVec 3) (s : State) : Out :=
  let c := core.toNat
  .next (match s.findSq c q.toNat undelivered with
    | none => s
    | some x =>
      if s.goesOn c then
        match s.deliverSq c x with
        | none => s
        | some t => (t.updSq c q.toNat undelivered (fun y => { y with done := true })).drainSq c q.toNat
      else s)

end Sys2Proof.Machine
end

