-- ==== Sys2Proof/Machine/Rebind.lean ====
section
/-! DEFINITION. The enable edge and the disable edge of a partition (R283, R352, R529 to R531, R537 to R540, R655, R656, R658). -/

namespace Sys2Proof.Machine

/-! ### Go notes (R540) -/

/-- The lead's verdict on the members' results: none where all have passed, else the first failing member. Where a result has not come, the spec
does not say what stands for its member: a free value (log entry 38). -/
def State.badMember (s : State) (p : Nat) : Option Nat :=
  let ms := (s.part p).members
  if s.pstate p ≠ 2 then some s.selfMod
  else match ms.find? (fun m => m.2 != 0) with
    | some m => some (m.1 + 65536 * m.2)
    | none => if ms.length < s.nmod p then some (s.free 7 % 2 ^ 24) else none

/-- At ENABLE_AT - 16 the lead sends go to every member, or the first failing member. -/
def State.goEdge (s : State) (p : Nat) : State :=
  if !s.span p || !s.isLead p || (s.part p).goSent || !(s.pstate p == 1 || s.pstate p == 2) || decide (s.tickNum + 16 < s.enableAt p) then s
  else
    let note := fun (s : State) (code arg1 : Nat) => (s.peers p).foldl (fun s k => s.sendMsg (s.mkMsg 0x0E 0 0 561 k 561 (code + 256 * p) arg1)) s
    let s := s.updPart p (fun q => { q with goSent := true })
    match s.badMember p with
    | none => (note s 0x42 0).updPart p (fun q => { q with goNote := some true })
    | some m => ((note s 0x43 m).refuse p 0x70 m).drawn

/-! ### The enable edge -/

/-- A flip that an enable has queued was refused at its edge: the enable fails (R537). -/
def State.flipFails (s : State) (p : Nat) : State :=
  if s.pstate p ≠ 2 then s
  else match (s.coresOf p).findSome? (fun c => match (s.core c).flip with
      | some f => if f.req.fromEnable && !f.accepted then some (c, f.req.set) else none
      | none => none) with
    | some m => s.failCheck p 0x33 (((s.part p).manifest.findIdx? (· == m)).getD 0)
    | none => s

/-- The enable edge has come: zeroing is done, no flip of the enable is left, ENABLE_AT is reached, and a member of a spanning partition has
its go. -/
def State.enableDue (s : State) (p : Nat) : Bool :=
  s.pstate p == 2 && (s.part p).zeroDone && decide (s.enableAt p ≤ s.tickNum) && (!s.span p || (s.part p).goNote == some true) &&
    (s.coresOf p).all (fun c => !(s.core c).flipReqs.any (·.fromEnable) && (match (s.core c).flip with
      | some f => !f.req.fromEnable
      | none => true))

/-- Sets several fields of an instance. -/
def State.wrs (s : State) (i : Nat) (l : List (Fld × Nat)) : State := l.foldl (fun s x => s.wr x.1 x.2 i) s

/-- Clears several fields of an instance, over all second indices. -/
def State.clrs (s : State) (i : Nat) (l : List Fld) : State := l.foldl (fun s f => s.clr f i) s

/-- The registers that take their values from the descriptor at enable (R81, R163, R265, R387, R414, R652). -/
def State.loadDescriptor (s : State) (p : Nat) : State :=
  let fl := s.main p 8 1
  let s := s.wrs p [(R.frm_FRAME_TICKS, s.main p 5 1), (R.frm_FRAME_LIMIT, s.main p 6 2), (R.frm_FRAME_SEQ, 0), (R.frm_STATE, 1), (R.frm_SPAN, 0),
    (R.fmtp_POLICY, bitsOf fl 2 1), (R.fmtp_PROMO_EN, bitsOf fl 3 1), (R.fmtp_MODE, bitsOf fl 0 1), (R.fmtp_PROMO_N, s.main p 9 1),
    (R.fmtp_PROMO_WIN, s.main p 10 1), (R.fmtp_DEMOTE_QUIET, s.main p 12 2), (R.cslot_CAL_AT, s.main p 16 4), (R.cslot_CAL_EVERY, s.main p 14 2)]
  let s := s.wrs p [(R.ptier_REQ_BASE, s.reqBase p), (R.ptier_REQ_COUNT, s.reqCount p), (R.ptier_VIEW_LOG2, s.main p 25 1),
    (R.ptier_KV_ROW, s.main p 26 2), (R.ptier_KV_STREAMS, s.main p 28 2), (R.pwin_SLOT_BASE, s.main p 30 2), (R.pwin_SLOT_COUNT, s.main p 32 2),
    (R.ptest_BUDGET, s.budget p), (R.ptest_MAINT_EVERY, s.maintEvery p)]
  (s.wr R.ptier_POOL_TOTAL (s.poolPages p).length p).syncTier p

/-- The counters of a partition that count since enable (R81, R126, R163, R387, R414, R671). -/
def partCounters : List Fld :=
  [R.frm_SLIP_OVR, R.frm_SLIP_FB, R.frm_SLIP_GOV, R.fmtp_CLIP_EVENTS, R.fmtp_PROMO_UP, R.ptier_PARKS, R.ptier_RETURNS, R.ptier_EXPIRIES,
   R.ptier_TIER_ERRS, R.pwin_COMMITS, R.pwin_DRAFTED, R.pwin_ACCEPTED, R.pwin_VERIFIES, R.pwin_DC_OFFS, R.pwin_CNT_DROP, R.pwin_W_ERRS,
   R.trail_TR_LOST, R.trail_TR_HOLD, R.trail_TR_RSEQ]

/-- The tallies, queue counts and counters of a core that clear when its partition is enabled (R126, R274, R288). -/
def coreCounters : List Fld :=
  [R.core_TALLY, R.core_FQ_CPL, R.core_SQ_READ, R.core_SQ_DONE, R.arr_PULSES, R.arr_PULSES_SKIP, R.arr_SAT_CONV, R.arr_ZERO_PROD,
   R.arr_POISON_COLS, R.fmt_FB_STEP1, R.fmt_FB_STEP2, R.fmt_FB_EXCESS, R.fmt_CLIP_TILES, R.fmt_SAT_ACCEPT, R.fmt_RENORM,
   R.fmt_RENORM_OVF, R.fmt_ENTRY_CLAMP, R.mx_MX_RETIRED, R.mx_MX_TAGMIS, R.mx_MX_CMDERR, R.mx_MX_GOV_WAIT, R.mx_MX_POISON_IN,
   R.we_WE_PASSES, R.we_WE_REFRESHES, R.we_WE_REPAIRS, R.we_WE_FLIPS, R.we_WE_FLIP_REF, R.cal_CAL_RUNS, R.cal_CAL_ABANDON, R.cal_CAL_WAIT,
   R.cal_CAL_COLFAULT, R.core_CMD_RSVD, R.core_ECC_CORR, R.core_ECC_POISON, R.core_XFER_ERR, R.vec_V_RETIRED, R.vec_V_BUSY_CYC,
   R.vec_NAN_POISON, R.vec_INF_OUT, R.vec_FP8_SAT, R.vec_CLIP_MARK, R.vec_POISON_PROP, R.vec_V_CMDERR, R.vec_REF_PROD, R.vec_REF_CYC,
   R.aud_AUD_PASS, R.aud_AUD_FAIL, R.aud_AUD_SKIP, R.wdw_WS_FAIL, R.wdw_GRANT_DROP, R.wdw_WR_LANDED, R.wdw_WR_DROPPED]

/-- What the enable edge clears and sets on a core. -/
def State.enableCore (s : State) (p c : Nat) : State :=
  (s.clrs c coreCounters).wrs c [(R.core_FRAME_HDR, s.rd R.ctab_FRAME_HDR c), (R.core_DEBUG, b2n (s.debug p))]

/-- The ENABLE record (R655). -/
def State.enableRec (s : State) (p : Nat) : TrailRec :=
  let cores := s.coresOf p
  { type := 0x01, units := ceilDiv (192 + 16 * cores.length) 64, frame := 0
    body := [(20, 2, s.selfMod), (22, 1, s.rd R.tick_PERIOD_LOG2), (23, 1, b2n (s.part p).rpOn + 2 * s.rd R.trail_TR_DETAIL p),
      (24, 4, s.rd R.ident_MODULE_REV + 2 ^ 8 * s.rd R.ident_STEPPING + 2 ^ 16 * s.rd R.ident_PART_CODE), (28, 8, s.featDev), (36, 2, cores.length),
      (60, 128, leNat (s.mainBytes p))] ++
      (cores.zipIdx).flatMap (fun x =>
        [(188 + 16 * x.2, 2, x.1), (192 + 16 * x.2, 4, s.rd R.cal_CAL_EPOCH x.1), (196 + 16 * x.2, 4, s.setRun x.1 0)]) }

/-- A WSET record of the enable edge (R658): the version in the active bank. -/
def State.enableWset (s : State) (m : Nat × Nat) (i : Nat) : TrailRec :=
  let w := s.wset m.1 m.2
  { type := 0x09, units := 1, frame := 0
    body := [(20, 2, m.1), (22, 2, m.2), (24, 2, w.ver w.active), (27, 1, w.active), (28, 4, w.progGen), (32, 4, i + 1)] }

/-- The ENABLE record and the WSET records precede the first frame's records (R655, R658). -/
def State.startTrail (s : State) (p : Nat) : State :=
  let ms := (s.part p).manifest
  let s := s.updPart p (fun q => { q with
    trailOn := s.flag R.trail_TR_EN p, rpOn := s.flag R.rp_RP_EN p, wsGen := ms.length, mirrored := s.rd R.trail_TR_WR p, lostNow := 0, events := []
    draws := [], commitRecs := [] })
  (ms.zipIdx).foldl (fun s x => s.writeRec p (s.enableWset x.1 x.2)) (s.writeRec p (s.enableRec p))

/-- The enable edge: the partition becomes ENABLED, its registers are loaded and cleared, its trail begins and an armed replay starts. -/
def State.enableEdge (s : State) (p : Nat) : State :=
  if !s.enableDue p then s
  else
    let s := (((s.wr R.part_PSTATE 3 p).setWide R.part_EN_TICK_LO R.live_EN_TICK_HI s.tickNum p).bump R.part_ENABLES 1 p).syncEnabled
    let s := (s.loadDescriptor p).clrs p partCounters
    let s := (s.coresOf p).foldl (fun s c => s.enableCore p c) s
    let s := s.updPart p (fun q => { q with
      frame := none, policyNext := none, disableReq := false, resetDue := none, notesIn := [], frames := 0, sinceAudit := 0, sinceMaint := 0
      maintAt := none })
    (s.startTrail p).rpStart p

/-! ### The disable edge -/

/-- What a core of the partition loses: its engines' work, its products and queues; stores already read still land. -/
def State.stopWork (s : State) (p c : Nat) : State :=
  let s := s.wrs c [(R.core_M_STATE, 0), (R.core_V_STATE, 0), (R.core_T_STATE, 0), (R.core_W_STATE, 0), (R.core_DEBUG, 0), (R.mx_HEAD_WAIT, 0)]
  let s := (List.range 16).foldl (fun s q => s.wr R.core_FQ_DEPTH 0 c q) s
  (s.updCore c (fun k => { k with
    products := [], fqs := [], sqs := (k.sqs.map (fun q => (q.1, q.2.filter (fun x => x.op == 0xA1 && x.read)))).filter (fun q => !q.2.isEmpty)
    headRead := [], mframe := false, fqEnd := [], sqEnd := [], fallbacks := [], slotRan := false, lists := [], taken := []
    auditing := k.auditing.filter (fun a => a.part != p) })).syncMx c

/-- The disable edge: the partition enters DISABLING; its traffic is discarded and its Lofts are scrubbed (R529). `endCause` is the cause of the
trail's END record. -/
def State.disableEdge (s : State) (p cause endCause : Nat) : State :=
  let cores := s.coresOf p
  let s := s.wr R.part_RESET_CAUSE cause p
  let s := cores.foldl (fun s c => s.rampWhole c 5) s
  let s := (s.endTrail p endCause).discardNet p
  let s := (s.wr R.part_PSTATE 4 p).syncEnabled
  let s := (s.dropGrants p).updWin (fun w => { w with draws := w.draws.filter (fun d => d.part != p) })
  let s := cores.foldl (fun s c => (s.stopWork p c).scrubLoft c) s
  let s := if s.rd R.frm_STATE p = 4 then s else s.wr R.frm_STATE 0 p
  s.updPart p (fun q => { q with
    scrubbing := true, frame := none, taken := [], policyNext := none, disableReq := false, resetDue := none, cq0Reserved := 0
    notesIn := [], maintAt := none, rpOn := false })

/-- A partition reset that is due (R530): the frame in flight is abandoned, with its commits, its count-table updates, its POOL_EMPTY events and the
flips that it asked for. -/
def State.resetEdge (s : State) (p : Nat) : State :=
  match (s.part p).resetDue with
  | none => s
  | some cause =>
    if !s.enabled p then s.updPart p (fun q => { q with resetDue := none })
    else
      let s := s.undoCounts p (fun _ => true)
      let s := s.updTier (fun t => { t with poolEmpty := t.poolEmpty.filter (fun n => s.reqPart n != p) })
      let seq := s.frameSeq p
      let s := (s.coresOf p).foldl (fun s c => s.updCore c (fun k => { k with flipReqs := k.flipReqs.filter (fun r => r.frame != some seq) })) s
      s.disableEdge p cause 2

/-- An orderly disable at a publication edge (R529); in a maintenance frame the gleans that are pending are dropped. -/
def State.disableNow (s : State) (p : Nat) (maint : Bool) : State :=
  let cores := s.coresOf p
  let s := if maint then s.dropGleans cores.contains else s
  s.disableEdge p 1 1

end Sys2Proof.Machine
end

