-- ==== Sys2Proof/Machine/Firmware.lean ====
section
/-! DEFINITION. Firmware images, first start and live update (chapter 18: R561 to R572, with R125, R250 to R260, R356, R550). -/

namespace Sys2Proof.Machine

/-! ### Images (R562 to R564) -/

/-- The offset in the load windows of the half that is not running (R563): half 0 before any firmware has run. -/
def State.otherHalf (s : State) : Nat :=
  if s.mgmt.runHead = [] then 0 else if s.flag R.mgmt_RUN_HALF then 0 else 0x800000

/-- The header of the image that lies in that half. -/
def State.loadedHead (s : State) : List Byte := s.mem.loadWin.bytes s.otherHalf 576

/-- The load window takes writes (R563). -/
def State.loadOpen (s : State) : Bool := [0, 3, 4, 7].contains (s.rd R.mgmt_FW_STATE)

/-- 1 written to FW_GO: verification of the loaded image starts (R564). It is taken where the window takes writes (R563). -/
def State.fwGo (s : State) : State :=
  if s.loadOpen then
    let s := s.wr R.mgmt_FW_STATE 2
    if s.mgmt.runHead = [] then s.wr R.mgmt_STAGE 6 else s
  else s

/-- FW_GO. -/
def execFwGo (s : State) : Out := .next (if s.hostOk then s.fwGo else s)

/-- The code under which an image is refused, 0 where it passes (R564, R567); `digest` and `sig` are what the verification unit finds of
DIGEST and of SIG under slot 0. -/
def State.imageCode1 (s : State) (h : List Byte) (digest sig : Bool) : Nat :=
  let body := cfgAt h 8 4
  if cfgAt h 0 4 ≠ 0x4B584657 ∨ cfgAt h 4 1 ≠ 1 ∨ ¬ (1 ≤ body ∧ body ≤ 6287360) ∨ s.rd R.mgmt_FW_LEN ≠ 4096 + body then 0xA1
  else if !digest then 0xA2
  else if !sig then 0xA3
  else if cfgAt h 28 2 < s.rd R.mgmt_MIN_FW_SVN then 0xA4
  else if cfgAt h 30 1 ≠ s.rd R.mgmt_DRV_CP / 256 ∨ s.rd R.mgmt_DRV_CP = 0 then 0xA5 else 0

/-- FW_VERIFY_DONE: the image is refused, staged, or started (R564, R565, R569). -/
def execFwVerifyDone (digest sig : Bool) (s : State) : Out :=
  .next (if s.alive && s.rd R.mgmt_FW_STATE == 2 && s.rd R.mgmt_STAGE != 7 then
    let h := s.loadedHead
    let code := s.imageCode1 h digest sig
    let first := decide (s.mgmt.runHead = [])
    let s := (s.wr R.mgmt_FW_RESULT code).wr R.mgmt_FW_CP (256 * cfgAt h 30 1 + cfgAt h 31 1)
    if code ≠ 0 then
      let s := if first then (s.wr R.mgmt_FW_STATE 7).wr R.mgmt_STAGE 5
        else (s.wr R.mgmt_FW_STATE 3).updMgmt (fun m => { m with stageHead := [] })
      s.msix 0 7
    else if first then
      ((s.wr R.mgmt_STAGE 7).wr R.mgmt_FW_SVN (cfgAt h 28 2)).updMgmt (fun m => { m with runHead := h })
    else (s.wr R.mgmt_FW_STATE 4).updMgmt (fun m => { m with stageHead := h })
  else s)

/-! ### First start (R565) -/

/-- The valid record of a core in one copy of a section of the flash image: its bytes. -/
def State.imageRec (s : State) (off size magic c : Nat) : Option (List Byte) :=
  let b := s.granBytes (imageAddr (off + size * c)) size
  if leNat (b.take 4) = magic ∧ leNat (b.drop (size - 4)) = crc32c (b.take (size - 4)) then some b else none

/-- The record with the higher SEQ, or the other valid one (R262, R550). -/
def newerRec (a b : Option (List Byte)) (at_ : Nat) : Option (List Byte) :=
  match a, b with
  | some x, some y => if cfgAt x at_ 4 < cfgAt y at_ 4 then some y else some x
  | some x, none => some x
  | none, y => y

/-- What a health record says of a bank: STATUS and POSITION of its array, and the bank (R124). -/
structure Health where
  status : Nat
  position : Nat
  bank : BankSt
  deriving DecidableEq, Repr

/-- The spares that REMAP[0:31] at an offset lists (R124). -/
def remapOf (b : List Byte) (off : Nat) : List (Nat × Nat) :=
  (List.range 32).filterMap (fun i =>
    let w := cfgAt b (off + 2 * i) 2
    if bitOf w 14 then some (i, 0xFFFF) else if bitOf w 15 then some (i, w % 1024) else none)

/-- A health record read from a row: none where FORMAT or CHECK is wrong (R124, R125). -/
def healthOf (b : List Byte) : Option Health :=
  if cfgAt b 0 1 = 1 ∧ cfgAt b 124 4 = crc32c (b.take 124) then
    some { status := cfgAt b 1 1, position := cfgAt b 2 1
           bank := { wear := cfgAt b 4 4, margin := cfgAt b 8 1, verMargin := cfgAt b 8 1, sampled := cfgAt b 8 1 != 0xFF
                     stuckLo := cfgAt b 10 2, stuckHi := cfgAt b 12 2, outRange := cfgAt b 14 2, remap := remapOf b 60 } }
  else none

/-- A bank's health record rebuilt from the summary (R125, R549): its place in the record of its core. The summary holds no counts of stuck and
out-of-range cells: they are 0 in a rebuilt record (DESIGN CHOICE, log entry 40). -/
def bankOfSummary (b : List Byte) (pa bank : Nat) : Health :=
  let o := 64 + 144 * (if pa < 64 then 9 * (pa / 8) + pa % 8 else 9 * (pa - 64) + 8)
  { status := cfgAt b (o + 8) 1, position := cfgAt b (o + 9) 1
    bank := { wear := cfgAt b (o + 4 * bank) 4, margin := cfgAt b (o + 10 + bank) 1, verMargin := cfgAt b (o + 10 + bank) 1
              sampled := cfgAt b (o + 10 + bank) 1 != 0xFF, remap := remapOf b (o + 16 + 64 * bank) } }

/-- A health row of a bank of a physical array as start-up reads it: the bytes that the world reads where they differ from what was last written; a
row that nothing has written reads as the record of an unused bank (DESIGN CHOICE, log entry 40). -/
def State.healthRow (s : State) (rows : List (BitVec 9 × BitVec 7 × BitVec 1 × Bool × List Byte)) (c pa b : Nat) (copy : Bool) : List Byte :=
  match rows.find? (fun r => r.1.toNat == c && r.2.1.toNat == pa && r.2.2.1.toNat == b && r.2.2.2.1 == copy) with
  | some r => r.2.2.2.2
  | none =>
    let bs := readRow (s.core c).cells pa b (if copy then 1041 else 1040)
    if bs.all (· == 0) then ({} : CoreSt).healthRecord pa b else bs

/-- A bank's record at start-up (R125, R550): the primary if it is valid, else the copy, else one rebuilt from the summary, with the largest wear
count of its core where that fails too. Whatever is not the primary is a corrected error; a rebuilt bank may not become active before it
has been verified. -/
def State.startBank (s : State) (rows : List (BitVec 9 × BitVec 7 × BitVec 1 × Bool × List Byte)) (c pa b : Nat) : State × Health :=
  match healthOf (s.healthRow rows c pa b false), healthOf (s.healthRow rows c pa b true) with
  | some h, _ => (s, h)
  | none, some h => (s.logCore 1 0x01 0 c 0xFFFF pa, h)
  | none, none =>
    let r := newerRec (s.imageRec (sumOff false) 10496 0x4B585753 c) (s.imageRec (sumOff true) 10496 0x4B585753 c) 8
    let wear := ((s.core c).banks.map (fun e => e.2.wear)).foldl max 0
    let h := (r.map (fun x => bankOfSummary x pa b)).getD
      { status := if pa < 64 then 0 else 1, position := if pa < 64 then pa % 8 else 8, bank := { wear := wear } }
    (s.logCore 1 0x01 0 c 0xFFFF pa, { h with bank := { h.bank with unverified := true } })

/-- A record read at start-up comes into use: the bank, a spare that has taken a position, a retired octet (R123 to R125). -/
def State.takeHealth (s : State) (c pa b : Nat) (h : Health) : State :=
  s.updCore c (fun k => { k with
    banks := Tbl.set {} k.banks (2 * pa + b) h.bank
    replaced := if 64 ≤ pa ∧ h.status = 2 ∧ h.position < 8 then Marks.put k.replaced (8 * (pa - 64) + h.position) true else k.replaced
    retired := if h.status = 4 then Marks.put k.retired (if pa < 64 then pa / 8 else pa - 64) true else k.retired })

/-- The banks of a core, by 2 × physical array + bank, whose health rows have been written or read otherwise. -/
def State.healthKeys (s : State) (rows : List (BitVec 9 × BitVec 7 × BitVec 1 × Bool × List Byte)) (c : Nat) : List Nat :=
  (List.range 144).filter (fun i =>
    rows.any (fun r => r.1.toNat == c && r.2.1.toNat == i / 2 && r.2.2.1.toNat == i % 2) ||
    (s.core c).cells.any (fun e => e.1 / 1064 / 1042 == i && decide (1040 ≤ e.1 / 1064 % 1042)))

/-- Firmware reads the health rows of a core's banks (R125): those that hold a valid record first, then those that must be rebuilt. -/
def State.startHealth (s : State) (rows : List (BitVec 9 × BitVec 7 × BitVec 1 × Bool × List Byte)) (c : Nat) : State :=
  let keys := s.healthKeys rows c
  let bad := fun (i : Nat) => (healthOf (s.healthRow rows c (i / 2) (i % 2) false)).isNone && (healthOf (s.healthRow rows c (i / 2) (i % 2) true)).isNone
  (keys.filter (fun i => !bad i) ++ keys.filter bad).foldl (fun t i =>
    let r := t.startBank rows c (i / 2) (i % 2)
    r.1.takeHealth c (i / 2) (i % 2) r.2) s

/-- The arrays in service, once the health rows have been checked (R126). -/
def State.showArrays (s : State) (c : Nat) : State :=
  let k := s.core c
  let retired := ((List.range 8).filter (fun o => Marks.has k.retired o)).length
  let s := ((s.wr R.arr_ARRAYS_OK (64 - 8 * retired) c).wr R.arr_SPARES_USED ((List.range 64).filter (fun a => Marks.has k.replaced a)).length c).wr
    R.arr_OCTETS_RETIRED retired c
  (s.wr R.arr_DEGRADED (b2n (decide (0 < retired))) c).syncArrays c

/-- The trims, bank gains, epoch and run count of a core from its flash record, or the defaults of R260. -/
def State.loadCal (s : State) (c : Nat) : State :=
  match newerRec (s.imageRec 0x100000 18560 0x4B58434C c) (s.imageRec 0xB00000 18560 0x4B58434C c) 12 with
  | none => s.logCore 1 0x04 0 c
  | some b =>
    let o := fun (a : Nat) => 64 + 288 * a
    let trims := (List.range 64).foldl (fun m a => (List.range 266).foldl (fun m v => Tbl.set 0 m (a * 266 + v) (cfgAt b (o a + v) 1)) m) []
    let bg := (List.range 128).foldl (fun m i => Tbl.put m i (cfgAt b (o (i / 2) + 272 + 8 * (i % 2)) 2)) []
    let faulty := (List.range 128).foldl (fun m i => Tbl.set 0 m i (cfgAt b (o (i / 2) + 276 + 8 * (i % 2)) 2)) []
    (s.wr R.cal_CAL_EPOCH (cfgAt b 8 4) c).updCal c (fun k => { k with
      trims := trims, bg := bg, faulty := faulty, runs := cfgAt b 16 4, wrote := cfgAt b 8 4 })

/-- The stored set of an array's inactive bank: the active bank's G and O, scaled by the ratio of the bank gains (R259). -/
def CalSt.scaleBank (k : CalSt) (a act : Nat) : CalSt :=
  let x := Tbl.get 32768 k.bg (2 * a + act)
  let y := Tbl.get 32768 k.bg (2 * a + 1 - act)
  let cols := if x = y then ((k.g.map (·.1)) ++ (k.o.map (·.1))).filterMap (fun e => if e / 1064 = 2 * a + act then some (e % 1064) else none)
    else List.range 1056
  let k := cols.foldl (fun k p => k.setCol (calKey a (1 - act) p)
    ((rneDiv (k.gain (calKey a act p) * y : Nat) x).toNat, rneDiv (k.offs (calKey a act p) * y) x)) k
  { k with
    tMeas := Tbl.put k.tMeas (2 * a + 1 - act) (Tbl.get 0 k.tMeas (2 * a + act))
    time := Tbl.put k.time (2 * a + 1 - act) (Tbl.get 0 k.time (2 * a + act)) }

/-- Start-up calibration of a core (R259): one run with trims, brought into force whole. -/
def State.startCal (s : State) (c : Nat) (found : CalFindings) : State :=
  let s := (s.loadCal c).wr R.cal_T_CORE (s.rd R.therm_SENS_T 0 (4 * (c / 16) + (c % 16) / 4)) c
  let s := s.updCal c (fun k => { k with formedT := s.coreTemp c, formedTime := s.now })
  let s := (s.calFinish c found).calAdopt c
  (s.updCal c (fun k => (List.range 64).foldl (fun k a => k.scaleBank a (s.activeBank c a)) k)).syncCal c

/-- The features that the hardware and the firmware of an image give (R568). -/
def featOf (h : List Byte) : Nat := cfgAt h 32 8 % 2 ^ 20

/-- FW_FIRST_START: the verified image runs for the first time: health rows, start-up calibration, request table and promotion blocks; then
FW_STATE = 3 and PF vector 7 (R125, R259, R356, R556, R565). -/
def execFwFirstStart (found : FirmwareFindings) (s : State) : Out :=
  .next (if s.alive && s.rd R.mgmt_STAGE == 7 then
    let s := (List.range 512).foldl (fun s c => s.startHealth found.rows c) s
    let s := (List.range 512).foldl (fun s c => s.showArrays c) s
    let s := (List.range 512).foldl (fun s c =>
      let f := match found.cal.find? (fun x => x.1.toNat == c) with
        | some x => x.2
        | none => { cols := [], refs := [] }
      s.startCal c f) s
    let s := { s with tier := { s.tier with reqs := [] } }
    let s := s.zeroGrans (520 * 32768) (8 * 32768)
    let s := if s.mgmt.burn then
        let v := max s.cfgFloor (s.rd R.mgmt_CFG_SVN)
        (s.updMgmt (fun m => { m with blown := v })).wr R.mgmt_CFG_FLOOR v
      else s
    let f := featOf s.mgmt.runHead
    let s := (s.wr R.acc_FEAT_DEV_LO (f % 2 ^ 32)).wr R.acc_FEAT_DEV_HI (f / 2 ^ 32)
    (((s.wr R.mgmt_FW_STATE 3).wr R.mgmt_STAGE 8).msix 0 7).flashGoOn
  else s)

/-! ### Live update (R569 to R572) -/

/-- 1 written to FW_SWAP: the request waits for the next tick edge (R569). -/
def State.swapAsk (s : State) : State := s.updMgmt (fun m => { m with swapReq := true })

/-- FW_SWAP. -/
def execFwSwap (s : State) : Out := .next (if s.hostOk then s.swapAsk else s)

/-- HANDOFF_AT. -/
def State.handoffAt (s : State) : Nat := s.wide R.mgmt_HANDOFF_AT_LO R.mgmt_HANDOFF_AT_HI

/-- HANDOFF_TICK. -/
def State.handoffTick (s : State) : Nat := s.wide R.mgmt_HANDOFF_TICK_LO R.live_HANDOFF_TICK_HI

/-- At a tick edge a requested swap is accepted or refused (R569). -/
def State.swapTake (s : State) : State :=
  if !s.mgmt.swapReq then s
  else
    let s := s.updMgmt (fun m => { m with swapReq := false })
    if s.rd R.mgmt_FW_STATE ≠ 4 then s.wr R.mgmt_FW_RESULT 0xA7
    else if cfgAt s.mgmt.stageHead 40 1 < 1 then s.wr R.mgmt_FW_RESULT 0xA6
    else if s.handoffAt < s.tickNum + 64 then s.wr R.mgmt_FW_RESULT 0xA8
    else
      let s := s.wr R.mgmt_FW_STATE 5
      if !s.epochsAhead then s
      else if s.mem.flashOp.isSome then s.updMgmt (fun m => { m with wbDue := true }) else s.writeBack

/-- At a tick edge from HANDOFF_AT - 16 on, the hand-off is fixed where no flash write, no check and no orderly stop stands in its way
(R569). -/
def State.handoffTest (s : State) : State :=
  if s.rd R.mgmt_FW_STATE = 5 ∧ s.handoffAt ≤ s.tickNum + 16 ∧ s.mem.flashOp = none ∧ s.mgmt.checkq = [] ∧ s.power.orderly = false then
    (s.setWide R.mgmt_HANDOFF_TICK_LO R.live_HANDOFF_TICK_HI (s.tickNum + 16)).wr R.mgmt_FW_STATE 6
  else s

/-- An orderly stop cancels a swap that has not reached H (R572, R622). -/
def State.cancelSwap (s : State) : State :=
  if s.rd R.mgmt_FW_STATE = 5 ∨ (s.rd R.mgmt_FW_STATE = 6 ∧ s.mgmt.handPhase < 2) then
    ((s.wr R.mgmt_FW_STATE 4).wr R.mgmt_FW_RESULT 0xAB).updMgmt (fun m => { m with handPhase := 0 })
  else s

/-- PART of the hand-off record (R572). -/
def State.handPart (s : State) (p : Nat) : List Byte :=
  let q := s.part p
  let pool := decide (s.enabled p ∧ s.rd R.ptier_POOL_FREE p < s.rd R.ptier_POOL_LOW p)
  let next := (s.idleRequests p).head?.getD 0
  toLe 1 (s.pstate p) ++ toLe 1 (b2n (s.mgmt.checkq.contains p) + 2 * b2n q.disableReq) ++ toLe 2 0 ++ toLe 4 (s.tenant p) ++ toLe 6 (s.enableAt p) ++
    toLe 6 (s.wide R.part_DISABLE_AT_LO R.part_DISABLE_AT_HI p) ++ toLe 4 ((q.frames + 2 ^ 32 - q.sinceAudit) % 2 ^ 32) ++ toLe 4 ((q.frames + 2 ^ 32 - q.sinceMaint) % 2 ^ 32) ++
    toLe 4 (s.gleans.filter (fun g => s.owner g.core == some p)).length ++ toLe 4 (if pool then 1 + 65536 * next else 0) ++ List.replicate 28 0

/-- CORE of the hand-off record (R572). -/
def State.handCore (s : State) (c : Nat) : List Byte :=
  let k := (s.core c).cal
  toLe 4 (s.rd R.cal_CAL_EPOCH c) ++ toLe 4 k.runs ++ toLe 1 (s.rd R.cal_DUE_CAUSE c) ++ toLe 1 ((k.runs + 1) % 7) ++ toLe 2 (min k.dueFrames 0xFFFF) ++
    toLe 4 (s.rd R.aud_AUD_FAIL c) ++ toLe 2 (usg 16 k.lastT) ++ List.replicate 14 0

/-- The hand-off record (R572). The spec gives the host mailbox no commands, so MBOX is empty. -/
def State.handRecord (s : State) : List Byte :=
  let m := s.mgmt
  withCheck (toLe 4 0x4B58484F ++ toLe 2 1 ++ (m.runHead.drop 30).take 2 ++ toLe 6 s.handoffTick ++ toLe 2 0 ++ toLe 4 24576 ++
    (m.runHead.drop 28).take 2 ++ List.replicate 234 0 ++ (List.range 64).flatMap s.handPart ++
    (List.range 64).map (fun i => BitVec.ofNat 8 (m.checkq.getD i 0xFF)) ++
    toLe 4 m.wbSeq ++ toLe 6 m.wbTick ++ toLe 6 m.sumTick ++ toLe 4 m.sumSeq ++ toLe 4 (s.rd R.err_LOG_RD) ++ toLe 4 (s.rd R.err_LOG_WR) ++
    toLe 4 512 ++ toLe 4 520 ++ List.replicate 156 0 ++ (List.range 512).flatMap s.handCore ++ List.replicate 3580 0)

/-- HANDOFF_RECORD: at H - 1 the old firmware writes the record at byte 0 of bushel 560 (R571). -/
def execHandoffRecord (s : State) : Out :=
  .next (if s.alive && s.rd R.mgmt_FW_STATE == 6 && s.mgmt.handPhase == 0 && s.tickNum + 1 == s.handoffTick then
    let b := s.handRecord
    let s := (List.range 384).foldl (fun s i => s.writeGran (560 * 32768 + i) ((b.drop (64 * i)).take 64) false) s
    s.updMgmt (fun m => { m with handPhase := 1 })
  else s)

/-- The management processors restart in the new half, or again in the old one: the measured images change places (R571, R572, R574). -/
def MgmtSt.restart (m : MgmtSt) (phase : Nat) : MgmtSt := { m with runHead := m.stageHead, stageHead := m.runHead, handPhase := phase }

/-- HANDOFF: at H the management processors are reset to the entry points of the new half (R571). -/
def execHandoff (s : State) : Out :=
  .next (if s.alive && s.rd R.mgmt_FW_STATE == 6 && s.mgmt.handPhase == 1 && decide (s.handoffTick ≤ s.tickNum) then
    s.updMgmt (fun m => m.restart 2)
  else s)

/-- The hand-off record in the Granary is readable and valid (R571). -/
def State.handOk (s : State) : Bool :=
  let b := s.granBytes (560 * 2097152) 24576
  cfgAt b 0 4 == 0x4B58484F && cfgAt b 4 1 == 1 && cfgAt b 24572 4 == crc32c (b.take 24572) &&
    (List.range 384).all (fun i => !s.granBad (560 * 32768 + i))

/-- The new firmware fails to take over: the old one is restarted, the staged image discarded and a corrected error logged (R572). -/
def State.revert (s : State) (code : Nat) : State :=
  ((s.updMgmt (fun m => m.restart 3)).wr R.mgmt_FW_RESULT code).logErr 1 0x12 code 0xFF 561

/-- FW_TAKEOVER: the restarted firmware checks the record and takes over, or the new one reports it invalid (R571, R572). -/
def execFwTakeover (s : State) : Out :=
  .next (if s.alive && s.rd R.mgmt_FW_STATE == 6 && decide (2 ≤ s.mgmt.handPhase) then
    let new := s.mgmt.handPhase == 2
    if s.handOk then
      let s := (s.wr R.mgmt_FW_STATE 3).updMgmt (fun m => { m with handPhase := 0, stageHead := [] })
      let s := if new then
          (s.wr R.mgmt_RUN_HALF (1 - s.rd R.mgmt_RUN_HALF)).wr R.mgmt_FW_SVN (cfgAt s.mgmt.runHead 28 2)
        else s
      (s.msix 0 7).flashGoOn
    else if new then s.revert 0xAA else s
  else s)

/-- HANDOFF_TIMEOUT: 8 ms have passed without a takeover: the old firmware is restarted, and where it was already, the device stops (R572). -/
def execHandoffTimeout (s : State) : Out :=
  .next (if s.alive && s.rd R.mgmt_FW_STATE == 6 && s.mgmt.handPhase == 2 then s.revert 0xA9
  else if s.alive && s.rd R.mgmt_FW_STATE == 6 && s.mgmt.handPhase == 3 then s.devFatal 0x12 0xA9 561
  else s)

/-- MP_WATCHDOG: a management processor misses its 10 ms watchdog, and the device stops (R633, R635). -/
def execMpWatchdog (s : State) : Out :=
  .next (if s.alive && s.mgmt.released then s.devFatal 0x12 0 561 else s)

end Sys2Proof.Machine
end

