-- ==== Sys2Proof/Machine/Stops.lean ====
section
/-! DEFINITION. The orderly stop's phases and the module's input (chapters 20 and 23: R600, R620 to R624, R675, R678, R680). -/

namespace Sys2Proof.Machine

/-- The first step of an orderly stop, at the tick edge S (R621): every ENABLED partition is to be disabled at its next publication, checks
are cancelled, PF vector 3 is sent, gleanings are dropped, and a swap that has not reached H is cancelled (R572, R622). -/
def State.orderlyEdge (s : State) : State :=
  if s.power.orderly && s.power.ordTick == 0 then
    let s := ((s.updPower (fun w => { w with ordTick := s.tickNum })).wr R.therm_SD_STATE 1).msix 0 3
    let s := (List.range 64).foldl (fun s p =>
      if s.pstate p = 3 then
        ((s.wr R.part_DISABLE_AT_LO 0 p).wr R.part_DISABLE_AT_HI 0 p).updPart p (fun q => { q with disableReq := true })
      else if s.pstate p = 1 ∨ s.pstate p = 2 then s.endCheck p 0xFE else s) s
    (s.dropGleans (fun _ => true)).cancelSwap
  else s

/-- The seconds left of ORD_MAX_S (R621). -/
def State.ordLeft (s : State) : Nat := s.rd R.therm_ORD_MAX_S - (s.now - s.power.ordSince)

/-- The next step after all partitions have stopped: cause record, calibration, summary, cause record, latched stop (R621, R624). -/
def State.orderlyNext (s : State) : State :=
  let step := fun (n : Nat) (s : State) => s.updPower (fun w => { w with ordStep := n })
  match s.power.ordStep with
  | 0 =>
    let s := (s.updPower (fun w => { w with ordDone := b2n (!w.ordForced) })).wr R.therm_SD_STATE 2
    step 1 (s.appendCause 0)
  | 1 => step 2 (if s.epochsAhead && decide (45 ≤ s.ordLeft) then s.writeBack else s)
  | 2 => step 3 (if decide (26 ≤ s.ordLeft) then s.writeSummary else s)
  | 3 => step 4 (s.appendCause 1)
  | _ => s.latchBegin

/-- ORDERLY_STOP: the stop goes on by one step: partitions still running 64 ticks after S are reset; once all are stopped, no flash write is in
progress and firmware runs, the next write begins (R621, R622). -/
def execOrderlyStop (s : State) : Out :=
  .next (if s.alive && s.power.orderly && s.power.ordTick != 0 then
    let up := (List.range 64).filter (fun p => [3, 5].contains (s.pstate p))
    if !up.isEmpty then
      if s.power.ordTick + 64 ≤ s.tickNum then
        up.foldl (fun s p => s.requestReset p 3) (s.updPower (fun w => { w with ordForced := true }))
      else s
    else if (List.range 64).any (fun p => s.pstate p == 4) || s.mem.flashOp.isSome || !s.fwRuns then s
    else s.orderlyNext
  else s)

/-- POWER_ON: the input is applied and the bulk bank begins to charge (R678). -/
def execPowerOn (s : State) : Out :=
  .next (if s.power.input then s else s.updPower (fun w => { w with input := true, vbulk := 0 }))

/-- POWER_STAGES_START: VBULK has reached 46 V and the power stages start (R678). -/
def execPowerStagesStart (s : State) : Out :=
  .next (if s.power.input && !s.power.stages then s.updPower (fun w => { w with stages := true, vbulk := 4600 }) else s)

/-- INPUT_REMOVED: the module has no supply that outlives its input: everything but the cells, the flash, the fuses and the host's memory is
lost, a latched stop ends and SDC_N is released (R620, R678, R680). -/
def execInputRemoved (s : State) : Out :=
  .next (if s.power.input then s.deviceReset.updPower (fun w => { w with input := false, stages := false, vbulk := 0 }) else s)

end Sys2Proof.Machine
end

