-- ==== Sys2Proof/Machine/Edge.lean ====
section
/-! DEFINITION. The tick edge (R66 to R69, R73, R80, R202, R376, R474, R478, R605, R669): what the device does at c 0, c 64, c 128, c 256 and c
512 of an edge, in this order. -/

namespace Sys2Proof.Machine

/-! ### c 0 -/

/-- Snapshots named for the edge latch once, before its number shows; those that an adopted count has passed by are late (R485, R669). -/
def State.snapLatch (s : State) (n : Nat) : State :=
  let due := s.snaps.filter (fun x => x.at_ == n)
  let past := s.snaps.filter (fun x => decide (x.at_ < n))
  let left := s.snaps.filter (fun x => decide (n < x.at_))
  let s := if past.isEmpty then s else s.bump R.msg_SNAP_LATE past.length
  let s := ({ s with snaps := left } : State).wr R.snap_PENDING (min left.length 7)
  match due with
  | [] => s
  | x :: r =>
    let s := { s with shadow := s.regs }
    let s := (s.wr R.snap_SNAP_SEQ (s.rd R.snap_SNAP_SEQ + 1)).setWide R.snap_SNAP_TICK_LO R.live_SNAP_TICK_HI n
    (s.wr R.snap_SNAP_LAST_NUM ((r.map (·.num)).foldl min x.num)).wr R.snap_SNAP_RES 2

/-- The slot schedules of the ending tick close, and every tail and completion head is sampled (R67, R465, R515). -/
def State.sampleEdge (s : State) : State :=
  let s := s.updNet (fun k => { k with ports := k.ports.map (fun e => (e.1, { e.2 with begun := [] })) })
  let s := s.updHost (fun h => { h with edgeVec := [] })
  (List.range 64).foldl (fun s p => s.updPart p (fun q => { q with
    tails := (List.range 4).map (fun r => s.rd R.ring_SQ_TAIL p r), cqHead := (List.range 2).map (fun r => s.rd R.ring_CQ_HEAD p r) })) s

/-- The edge's number and cycle offset. -/
def State.numberEdge (s : State) (n : Nat) : State := (s.setWide R.tick_NUM_LO R.live_NUM_HI (n % 2 ^ 48)).wr R.tick_CYCLE 0

/-- The writes that take effect at the edge (R610, R626). -/
def State.applyWrites (s : State) : State :=
  let ws := s.power.wr
  let s := s.updPower (fun w => { w with wr := [] })
  ws.foldl (fun s w => match regMap.find? (fun f => f.id == w.1) with
    | some f => s.wr f w.2.2 (w.2.1 / 1024) (w.2.1 % 1024)
    | none => s) s

/-- Power and temperature at the edge (R242, R605, R611, R626). -/
def State.powerEdge (s : State) : State :=
  let s := s.applyWrites.governorLevels.pinEdge
  let s := (List.range 512).foldl (fun s c => s.coreTempSample c) s
  if s.rd R.therm_THROT_CL = 0 then s else s.bump R.therm_THROT_TICKS

/-- The partitions whose frame is published at the edge. -/
def State.publishing (s : State) : List Nat :=
  (List.range 64).filter (fun p => s.pstate p == 3 && (match (s.part p).frame with
    | some f => match f.pubAt with
      | some n => decide (n ≤ s.tickNum)
      | none => false
    | none => false))

/-- The edge is a publication edge for the core: its partition publishes, or it belongs to no enabled partition (R202). -/
def State.coreEdge (s : State) (pubs : List Nat) (c : Nat) : Bool := match s.enabledOwner c with
  | some p => pubs.contains p
  | none => true

/-- Flips, ended passes, repairs and calibration of the cores at c 0 (R121, R200, R210, R222, R250, R251). A host-slot command is taken after
them: what it asks for takes effect at the first publication edge after it (R209, R221). -/
def State.coresEdge (s : State) (pubs : List Nat) : State :=
  (List.range 512).foldl (fun s c =>
    (if s.coreEdge pubs c then (s.weightEdge c).calEdge c else s).takeHostCmd c) s

/-- The ticks that frames in flight have spanned (R81). -/
def State.countSpans (s : State) : State :=
  (List.range 64).foldl (fun s p => match (s.part p).frame with
    | some f => s.wr R.frm_SPAN (min (s.tickNum - f.admitTick + 1) 255) p
    | none => s) s

/-! ### c 64 and c 128 -/

/-- A publication and what takes effect with it: the disable (R529). -/
def State.publishEdge (s : State) (cal : List Nat) (p : Nat) : State :=
  let maint := match (s.part p).frame with
    | some f => f.maint
    | none => false
  let s := s.publish p cal
  if s.disablesAt p s.tickNum then s.disableNow p maint else s

/-- A disable of a partition that has no frame in flight waits for no publication (log entry 51). -/
def State.disableIdle (s : State) (p : Nat) : State :=
  if s.pstate p == 3 && (s.part p).frame.isNone && s.disablesAt p s.tickNum then s.disableNow p false else s

/-- A CLOSE of a request that no enabled partition owns takes effect at any edge (R202). -/
def State.closeOrphans (s : State) : State :=
  (s.tier.closing.filter (fun n => (s.reqOwner n).isNone)).foldl (fun s n => s.closeReq (s.reqPart n) n) s

/-- The credit grants of the partitions that published, in ascending window number, which counts 16 windows for each core (R66, R473, R474). -/
def State.grantEdge (s : State) (pubs : List Nat) : State :=
  ((List.range 512).filter (fun c => match s.owner c with
    | some p => pubs.contains p && s.enabled p
    | none => false)).foldl (fun s c => (List.range 16).foldl (fun s v => s.windowGrant c v) s) s

/-! ### c 256 and c 512 -/

/-- The entries of the frame that starts at the edge, and the state after they are taken (R511, R514, R647, R664). -/
def State.edgeEntries (s : State) (p : Nat) (maint : Bool) : State × List Entry :=
  if maint then (s, [])
  else if (s.part p).rpOn then
    if s.rpRuns p then
      let r := s.rpEntries p (s.rd R.frm_FRAME_SEQ p) (s.rd R.rp_RP_SRC_UNITS p)
      (r.1.rpEnd p, r.2)
    else (s, [])
  else if s.span p then (s.updPart p (fun q => { q with taken := [] }), (s.part p).taken)
  else s.takeEntries p

/-- A partition's next frame is admitted (R73, R511, R512). -/
def State.admitEdge (s : State) (p : Nat) : State :=
  if !s.mayAdmit p then s
  else
    let maint := s.maintNow p (s.rd R.frm_FRAME_SEQ p)
    let r := s.edgeEntries p maint
    let s := if s.isLead p then r.1.writeRefusals p r.2 else r.1
    let s := s.admitFrame p r.2 maint
    s.updFrame p (fun f => { f with flip := (s.coresOf p).any (fun c => (s.core c).flip.isSome) })

/-! ### The edge -/

/-- The records of the tick that ends go to the logger's window of the next one (R629). -/
def State.logEdge (s : State) : State :=
  { s with log := { s.log with prev := s.log.prev ++ s.log.cur, cur := [], haePrev := s.log.haePrev ++ s.log.haeCur, haeCur := [] } }

/-- c 0 of an edge, up to the cores' work. -/
def State.edgeStart (s : State) : State :=
  let n := s.tickNum + 1
  let s := ((s.logEdge.snapLatch n).sampleEdge.numberEdge n).marksEdge
  let s := (s.applyPeriod n).powerEdge.tierEdge
  let s := s.orderlyEdge.swapTake.handoffTest.repairEdge
  let s := (List.range 64).foldl (fun s p => s.goEdge p) s
  ((List.range 64).foldl (fun s p => s.resetEdge p) s).countSpans

/-- The rest of an edge: the cores, enables, publications, grants, admissions and marks. -/
def State.edgeRest (s : State) : State :=
  let pubs := s.publishing
  let cal := (List.range 512).filter (fun c => (s.core c).cal.formed)
  let s := s.coresEdge pubs
  let s := (List.range 64).foldl (fun s p => (s.flipFails p).enableEdge p) s
  let s := pubs.foldl (fun s p => s.publishEdge cal p) s
  let s := ((List.range 64).foldl (fun s p => s.disableIdle p) s).closeOrphans
  let s := (List.range 64).foldl (fun s p => s.writeTierEvents p) s
  let s := s.grantEdge pubs
  (((List.range 64).foldl (fun s p => s.admitEdge p) s).gleanTake).sendMarks

/-- The next tick edge. A device that has stopped only goes on counting (R635). -/
def State.tickEdge (s : State) : State :=
  if s.power.fatal then (s.logEdge.numberEdge (s.tickNum + 1))
  else (s.toCycle (s.period - 1)).edgeStart.edgeRest

/-- TICK_EDGE. -/
def execTickEdge (s : State) : Out :=
  .next (if s.power.stages && !s.power.latched && s.flag R.tick_RUNNING then s.tickEdge else s)

end Sys2Proof.Machine
end

