-- ==== Sys2Proof/Machine/Gauge.lean ====
section
/-! DEFINITION. The gauge's table converters (chapter 19, R617): visits, filters, open-wire and over-range detection, and writes to the channel
table and its segments. -/

namespace Sys2Proof.Machine

/-! ### A visit (R583 to R588) -/

/-- Sums of N consecutive numbers. -/
def windowSums (n : Nat) (l : List Nat) : List Nat :=
  (List.range (l.length + 1 - n)).map (fun i => ((l.drop i).take n).foldl (· + ·) 0)

/-- The filter outputs in 1/16 LSB: a cascade of n averages of N conversions, rounded to nearest with ties to even (R584). -/
def filterOut (order n : Nat) (codes : List Nat) : List Nat :=
  ((List.range order).foldl (fun l _ => windowSums n l) codes).map (fun (x : Nat) => (rneDiv (16 * x : Nat) (n ^ order)).toNat)

/-- A privileged channel of the table and its bit in OVR_MAP (R594, R595). -/
def ovrBit (ch : Nat) : Option Nat := if ch = 0 then some 0 else if ch = 17 then some 2 else none

/-- Open-wire detection at the end of a visit (R593). -/
def State.openWire (s : State) (lo v : Nat) : State :=
  let ch := gChan lo
  let ow := gOw lo
  if ch < 16 ∧ ow ≠ 0 then
    let s := s.updPower (fun w => if ow ≤ 2 then { w with owUp := Tbl.set 0 w.owUp ch (v + 1) } else { w with owDown := Tbl.set 0 w.owDown ch (v + 1) })
    let up := Tbl.get 0 s.power.owUp ch
    let down := Tbl.get 0 s.power.owDown ch
    let now := decide (4032 * 16 + 1 ≤ up) && decide (1 ≤ down) && decide (down ≤ 63 * 16 + 1)
    let was := bitOf (s.rd R.gauge_OPEN_MAP) ch
    let s := s.wr R.gauge_OPEN_MAP (setBit (s.rd R.gauge_OPEN_MAP) ch now)
    if now && !was then (s.bump R.gauge_OW_EVENTS).logErr 1 0x0E 0 0xFF 561 0xFFFF ch else s
  else s

/-- COOL_FAULT after a result or an open-wire visit of AIN0 (R617); it is logged where it is set. -/
def State.coolFault (s : State) (bad : Bool) : State :=
  let s := if bad && !s.flag R.therm_COOL_FAULT then s.logErr 1 0x0F 0 0xFF 561 0xFFFF 0 else s
  s.wr R.therm_COOL_FAULT (b2n bad)

/-- A clean coolant result is compared with its thresholds (R615, R617, R619). -/
def State.coolReading (s : State) (v : Nat) : State :=
  let t := coolTemp v
  let warn : Int := 16 * s.rd R.therm_COOL_WARN_C
  let on := if s.power.coolWarn then !decide (t ≤ warn - 32) else decide (warn ≤ t)
  let s := if on && !s.power.coolWarn then s.logErr 1 0x0F 0 0xFF 561 0xFFFF 0 else s
  let s := s.updPower (fun w => { w with coolWarn := on, coolVal := v })
  if 16 * (s.rd R.therm_COOL_SHUT_C : Int) ≤ t then s.raiseCause 4 (usg 16 t) 0 else s

/-- A VIN result: the governor's voltage, and causes 0x8 and 0x9 (R603, R619). -/
def State.vinReading (s : State) (v : Nat) (ovr : Bool) : State :=
  let hi := ovr || decide (s.rd R.gov_VIN_OV * 128 ≤ v * 15)
  let lo := decide (v * 15 < s.rd R.gov_VIN_UV * 128)
  let s := s.updPower (fun w => { w with
    vin := v * 15 / 128, cntVinOv := if hi then w.cntVinOv + 1 else 0, cntVinUv := if lo then w.cntVinUv + 1 else 0 })
  let s := if ovr || decide (2 ≤ s.power.cntVinOv) then s.raiseCause 8 s.power.vin 17 else s
  if 2 ≤ s.power.cntVinUv then s.raiseCause 9 s.power.vin 17 else s

/-- A rail's result: cause 0xB outside 10 % of nominal on 2 consecutive results (R619). -/
def State.railReading (s : State) (ch v : Nat) : State :=
  let nom := Config.railNominal (ch - 19)
  let off := decide (10 * v < 9 * nom) || decide (11 * nom < 10 * v)
  let n := if off then Tbl.get 0 s.power.cntRail ch + 1 else 0
  let s := s.updPower (fun w => { w with cntRail := Tbl.set 0 w.cntRail ch n })
  if 2 ≤ n then s.raiseCause 0xB 0 ch else s

/-- What the device does with a result of a channel (R592, R617, R619). -/
def State.useResult (s : State) (g lo v : Nat) (ovr : Bool) : State :=
  let ch := gChan lo
  let s := s.openWire lo v
  if ch = 0 then
    let open_ := bitOf (s.rd R.gauge_OPEN_MAP) 0
    if gOw lo ≠ 0 then (if open_ then s.coolFault true else s)
    else
      let bad := open_ || ovr || !plausible v
      let s := s.coolFault bad
      if bad then s else s.coolReading v
  else if ch ≤ 7 ∧ gOw lo = 0 then (if plausible v then s else s.logErr 1 0x0F 0 0xFF 561 0xFFFF ch)
  else if ch = 17 then s.vinReading v ovr
  else if 19 ≤ ch ∧ ch ≤ 26 then s.railReading ch v
  else if 35 ≤ ch ∧ ch ≤ 38 then (if (s.rd R.therm_PST_SHUT_C * 16 + 640) * 16 ≤ v then s.raiseCause 3 (v / 16 - 640) ch else s)
  else if ch = 39 then (if v + 256 < 32768 ∨ 32768 + 256 < v then s.convFail (g + 2) else s)
  else if ch = 40 then (if 256 < v then s.convFail (g + 2) else s)
  else s

/-- A visit to a check channel adjusts the converter's trim by at most one step; its size and sign are open (R591; free value kind 8). -/
def State.adjustTrim (s : State) (g ch : Nat) : State :=
  if ch = 39 ∨ ch = 40 then
    let d : Int := ((s.free 8 % 3 : Nat) : Int) - 1
    let f := if ch = 40 then R.gauge_OFS_TRIM else R.gauge_GAIN_TRIM
    (s.wr f (usg f.width (sgn f.width (s.rd f 0 (g + 2)) + d)) 0 (g + 2)).drawn
  else s

/-- The result registers are written (R583 step 5, R595, R597). -/
def State.showResult (s : State) (e : Nat) (outs : List Nat) (ovr fs : Bool) (tick cyc : Nat) : State :=
  let v := outs.getLastD 0
  let s := (((s.wr R.gres_VALUE v e).wr R.gres_OVR (b2n ovr) e).wr R.gres_FS (b2n fs) e).wr R.gres_SEQ (s.rd R.gres_SEQ e + 1) e
  let s := (s.wr R.live_G_MIN (outs.foldl min v) e).wr R.live_G_MAX (outs.foldl max v) e
  (s.wr R.live_G_TICK tick e).wr R.live_G_CYC cyc e

/-- When the last conversion of a visit begins, in cycles from the start of the tick in which the visit begins at offset `cyc`: the channel may be held
by the other converter for `wait` cycles (R587); then run DELAY and, where the converter was powered down, its start-up delay, both from the
moment at which the channel is locked (DEDUCED, log entry 73); a notched entry waits on to a multiple of 2,048 (R583, R585, R588). -/
def State.lastConversion (s : State) (g : Nat) (v : Visit) (cyc wait : Nat) : Nat :=
  let t := cyc + wait + max (200 * bitsOf v.hi 0 12) (if v.cold then 200 * s.rd R.gauge_SU 0 (g + 2) else 0)
  let t := if gNotch v.lo = 0 then t else 2048 * ceilDiv t 2048
  t + (s.gCount v.lo - 1) * gSpacing v.lo

/-- A visit ends (R583, R587, R592 to R595): its conversions are filtered, and the result is shown and used. -/
def State.endVisit (s : State) (g : Nat) (v : Visit) (codes : List (BitVec 12 × Bool)) (tick cyc wait : Nat) : State :=
  let ch := gChan v.lo
  let trip := fun (x : BitVec 12 × Bool) => x.2 && (ovrBit ch).isSome
  let vals := codes.map (fun x => if trip x then 4095 else x.1.toNat)
  let ovr := codes.any trip
  let last := s.lastConversion g v cyc wait
  let s := if wait = 0 then s else s.bump R.gauge_MUX_WAIT wait
  let s := match ovrBit ch, ovr with
    | some b, true => (s.bump R.gauge_OVR_EVENTS (codes.filter trip).length).wr R.gauge_OVR_MAP (setBit (s.rd R.gauge_OVR_MAP) b true)
    | _, _ => s
  let outs := filterOut (gOrder v.lo) (s.gN v.lo) vals
  let s := s.showResult v.entry outs ovr (vals.contains 4095) ((tick + last / s.period) % 2 ^ 32) (last % s.period)
  let s := (s.useResult g v.lo (outs.getLastD 0) ovr).adjustTrim g ch
  let s := s.wr R.gres_OPEN (b2n (decide (ch < 16) && bitOf (s.rd R.gauge_OPEN_MAP) ch)) v.entry
  let pd := s.flag (if g = 0 then R.gauge_G2_PD_EN else R.gauge_G3_PD_EN)
  (s.wr R.gauge_POWERED (setBit (s.rd R.gauge_POWERED) (g + 2) (!pd))).updPower (fun w => { w with gaugeAt := Tbl.set 0 w.gaugeAt g (v.entry + 1) })

/-- GAUGE_VISIT: table converter G2, or G3, ends the visit in progress and begins the next one (R583): the codes converted with their over-range flags,
the tick number and cycle offset at which the visit began, and the cycles for which it waited for the channel. An idle converter looks for an
entry to visit first (R581). -/
def execGaugeVisit (g3 : Bool) (codes : List (BitVec 12 × Bool)) (tick : BitVec 48) (cyc : BitVec 17) (wait : BitVec 32) (s : State) : Out :=
  let g := if g3 then 1 else 0
  .next (if s.alive && s.flag R.gauge_RUN && !bitOf (s.rd R.gauge_CONV_FAIL) (g + 2) then
    let u := if (s.visit g).isSome then s else s.beginVisit g
    match u.visit g with
    | none => if (s.nextVisit g).2.isNone && !bitOf (s.rd R.gauge_POWERED) (g + 2) then s else u
    | some v =>
      if codes.length ≠ u.gCount v.lo then s
      else (u.endVisit g v codes tick.toNat cyc.toNat wait.toNat).beginVisit g
  else s)

/-! ### Writes (R582) -/

/-- A segment write is one that R582 takes: START not above END, no overlap, every locked entry in a segment. -/
def State.segOk (s : State) (g a b : Nat) : Bool :=
  let own := (List.range (b + 1 - a)).map (a + ·)
  let other := s.segment (1 - g)
  decide (a ≤ b) && own.all (fun e => !other.contains e) &&
    (List.range 64).all (fun e => !s.gLock e || own.contains e || other.contains e)

/-- A host write to the channel table or a segment register, at an offset from 0x0030_8000. -/
def State.gaugeWrite (s : State) (off v : Nat) : State :=
  let bad := s.hae 2 0 0 true 4 (0x00308000 + off) v
  if off = 4 ∨ off = 8 then
    let g := if off = 4 then 0 else 1
    let a := bitsOf v 0 6
    let b := bitsOf v 8 6
    if s.segOk g a b then
      let s := (s.wr (if g = 0 then R.gauge_G2_START else R.gauge_G3_START) a).wr (if g = 0 then R.gauge_G2_END else R.gauge_G3_END) b
      s.wr (if g = 0 then R.gauge_G2_PD_EN else R.gauge_G3_PD_EN) (bitsOf v 16 1)
    else bad
  else
    let e := (off - 0x400) / 8
    if s.gLock e then bad
    else if off % 8 = 0 then s.wr R.gauge_ENTRY_LO (bitsOf v 0 24 + 2 ^ 31 * bitsOf v 31 1) 0 e
    else s.wr R.gauge_ENTRY_HI (bitsOf v 0 12) 0 e

/-- The offsets of those registers. -/
def gaugeOff (off : Nat) : Bool := off == 4 || off == 8 || (decide (0x400 ≤ off) && decide (off < 0x600) && off % 4 == 0)

/-- ENTRY_WRITE: a write to the channel table or to SEG_G2 or SEG_G3 (R582). -/
def execEntryWrite (off : BitVec 12) (value : Word) (s : State) : Out :=
  .next (if s.hostOk && gaugeOff off.toNat then s.gaugeWrite off.toNat value.toNat else s)

end Sys2Proof.Machine
end

