-- ==== Sys2Proof/Machine/Logs.lean ====
section
/-! DEFINITION. The error logger, the host access ring, device-fatal stops, the trail's host mirror and snapshots (R526, R628 to R630, R635,
R651, R662, R668, R688). -/

namespace Sys2Proof.Machine

/-- Changes the log. -/
def State.updLog (s : State) (f : LogSt → LogSt) : State := { s with log := f s.log }

/-! ### Error records (R629, R630) -/

/-- The 64 bytes of an error record (R629). -/
def ErrRec.bytes (r : ErrRec) (seq : Nat) : List Byte :=
  withCheck (layout 36 [(0, 1, r.cls.toNat), (1, 1, r.src.toNat), (2, 1, r.code.toNat), (3, 1, r.part.toNat), (4, 2, r.station.toNat),
    (6, 6, r.tick.toNat), (12, 4, r.frame.toNat), (16, 2, r.req.toNat), (18, 2, r.item.toNat), (20, 8, r.addr.toNat), (28, 4, r.count.toNat),
    (32, 4, seq)] ++ (r.detail ++ List.replicate 24 0).take 24)

/-- The places left in a ring of 65,536 records (R630, R688). -/
def ringFree (wr rd : Nat) : Nat := 65535 - (wr + 65536 - rd) % 65536

/-- The device granule of record `i` of the error ring, in bushels 1,022 and 1,023 (R628). -/
def errGran (i : Nat) : Nat := 1022 * 32768 + i

/-- A record may be written: the last 64 places are kept for fatal records (R630). -/
def State.logRoom (s : State) (r : ErrRec) : Bool :=
  let free := ringFree (s.rd R.err_LOG_WR) (s.rd R.err_LOG_RD)
  if r.cls.toNat ≤ 2 then decide (64 ≤ free) else decide (0 < free)

/-- Writes one record, or drops and counts it; a device-fatal one is latched as well (R629, R630). -/
def State.logRec (s : State) (r : ErrRec) : State :=
  let b := r.bytes s.log.seq.toNat
  let room := s.logRoom r
  let s := s.updLog (fun l => { l with seq := l.seq + 1 })
  let s := if r.cls.toNat ≠ 4 then s
    else (List.range 16).foldl (fun s i => s.wr R.err_FATAL (leNat ((b.drop (4 * i)).take 4)) 0 i) s
  if room then (s.writeGran (errGran (s.rd R.err_LOG_WR)) b false).wr R.err_LOG_WR ((s.rd R.err_LOG_WR + 1) % 65536)
  else s.bump (if r.cls.toNat ≤ 2 then R.err_LOST_LOW else R.err_LOST_FATAL)

/-- The host signals of a record's class, as (function, vector) pairs (*Error classes*). -/
def ErrRec.signals (r : ErrRec) : List (Nat × Nat) :=
  match r.cls.toNat with
  | 1 => [(0, 2)]
  | 2 => [(0, 1)]
  | 3 => if r.part.toNat < 64 then [(0, 0), (r.part.toNat + 1, 2)] else [(0, 0)]
  | _ => [(0, 0)]

/-- The records in order of detection, and the signals of those that were written. -/
def State.logRecs (s : State) (rs : List ErrRec) : State × List (Nat × Nat) :=
  rs.foldl (fun (acc : State × List (Nat × Nat)) r =>
    (acc.1.logRec r, if acc.1.logRoom r then acc.2 ++ r.signals else acc.2)) (s, [])

/-! ### Host access records (R526, R688) -/

/-- The 32 bytes of a host access record (R526). -/
def HaeRec.bytes (r : HaeRec) : List Byte :=
  layout 32 [(0, 1, r.kind.toNat), (1, 1, r.func.toNat), (2, 1, r.bar.toNat), (3, 1, r.access.toNat), (4, 8, r.offset.toNat),
    (12, 4, r.data.toNat), (16, 6, r.tick.toNat)]

/-- Writes one host access record to the ring in bushel 1,021, or drops it (R628, R688). -/
def State.haeRec (s : State) (r : HaeRec) : State :=
  let i := s.rd R.err_HAE_WR
  if 0 < ringFree i (s.rd R.err_HAE_RD) then
    (s.putGranBytes (1021 * 2097152 + 32 * i) r.bytes).wr R.err_HAE_WR ((i + 1) % 65536)
  else s.bump R.err_HAE_LOST

/-- The host access records in order of arrival; PF vector 2 is sent once if any was written. -/
def State.haeRecs (s : State) (rs : List HaeRec) : State :=
  let s' := rs.foldl (fun s r => s.haeRec r) s
  if s'.rd R.err_HAE_WR = s.rd R.err_HAE_WR then s' else s'.msix 0 2

/-- The logger works: the device is powered, a device-fatal stop included. -/
def State.loggerRuns (s : State) : Bool := s.power.stages && !s.power.latched

/-- LOG_FLUSH: the records of the previous tick are written, then the signals of their classes are sent, each once (R629). -/
def execLogFlush (s : State) : Out :=
  .next (if s.loggerRuns then
    let errs := s.log.prev
    let haes := s.log.haePrev
    let r := (s.updLog (fun l => { l with prev := [], haePrev := [] })).logRecs errs
    (r.2.eraseDups.foldl (fun s v => s.msix v.1 v.2) r.1).haeRecs haes
  else s)

/-- A LOG_SEL write: the selected record is copied into LOG_DATA (R651). -/
def State.logSelect (s : State) (i : Nat) : State :=
  let r := s.readGran (errGran (i % 65536))
  (List.range 16).foldl (fun s k => s.wr R.err_LOG_DATA (leNat ((r.2.1.drop (4 * k)).take 4)) 0 k) (r.1.wr R.err_LOG_SEL i)

/-- The errors block answers the host: also after a device-fatal stop (R635). -/
def State.hostErr (s : State) : Bool := (s.alive || s.power.fatal) && !s.power.latched && s.booted && !s.fnBlocked 0

/-- LOG_SEL. -/
def execLogSel (sel : BitVec 16) (s : State) : Out := .next (if s.hostErr then s.logSelect sel.toNat else s)

/-- DEVICE_FATAL: an error of class 4 from the world: its source, code and station (R635). -/
def execDeviceFatal (src code : Byte) (station : BitVec 10) (s : State) : Out :=
  .next (if s.alive then s.devFatal src.toNat code.toNat station.toNat else s)

/-! ### The trail's mirror (R662) -/

/-- Copies one unit of a partition's ring to the mirror, as the partition's virtual function. -/
def State.mirrorUnit (s : State) (p i : Nat) : State :=
  let r := match s.linGran p (s.pair R.trail_TR_BASE_LO R.trail_TR_BASE_HI p + i) with
    | some d => s.readGran d
    | none => (s, List.replicate 64 0, false)
  r.1.sendHost (.bytes (p + 1) (s.pair R.trail_HM_BASE_LO R.trail_HM_BASE_HI p + 64 * i) r.2.1)

/-- MIRROR_COPY: the units written since the last copy, then TR_WR (R662). -/
def execMirrorCopy (p : BitVec 6) (s : State) : Out :=
  let n := p.toNat
  .next (if !s.alive || !s.flag R.trail_HM_EN n then s
  else
    let size := s.trSize n
    let from_ := (s.part n).mirrored
    let to_ := s.rd R.trail_TR_WR n
    if from_ = to_ then s
    else
      let s := (List.range ((to_ + size - from_ % size) % size)).foldl (fun s k => s.mirrorUnit n ((from_ + k) % size)) s
      (s.sendHost (.bytes (n + 1) (s.pair R.trail_HM_TAILPTR_LO R.trail_HM_TAILPTR_HI n) (toLe 4 to_))).updPart n
        (fun q => { q with mirrored := to_ }))

/-! ### Snapshots (R668) -/

/-- 1 written to SNAP_ARM. -/
def State.snapArm (s : State) : State :=
  let at_ := s.rd R.snap_SNAP_AT_LO + 2 ^ 32 * s.rd R.snap_SNAP_AT_HI
  let num := s.rd R.snap_SNAP_NUM
  if at_ < s.tickNum + 4 then s.wr R.snap_SNAP_RES 3
  else if 4 ≤ s.snaps.length then s.wr R.snap_SNAP_RES 4
  else
    let s := ({ s with snaps := s.snaps ++ [{ at_ := at_, num := num }] } : State).wr R.snap_SNAP_RES 1
    let s := s.wr R.snap_PENDING (min s.snaps.length 7)
    if s.flag R.snap_SNAP_SCOPE then
      let m := s.mkMsg 0x06 0 0 561 0xFFF 0 (at_ % 2 ^ 32) (at_ / 2 ^ 32 + 65536 * num)
      (List.range 24).foldl (fun s k => if s.portUp k then s.queueMsg k m else s) s
    else s

/-- SNAP_ARM. -/
def execSnapArm (s : State) : Out := .next (if s.hostOk then s.snapArm else s)

end Sys2Proof.Machine
end

