-- ==== Sys2Proof/Machine/Registers.lean ====
section
/-! DEFINITION. The host's register accesses: BAR0 of the physical function and the windows of the virtual functions (R5, R6, R12 to R16,
R57, R507, R509, R559, R635, R670), and the rules of the fields that a plain write does not cover. -/

namespace Sys2Proof.Machine

/-! ### Finding a field -/

/-- The instance of a field that lies in the register at an offset. -/
def Fld.at_ (f : Fld) (a : Nat) : Option (Nat × Nat) :=
  if a < f.off then none
  else
    let d := a - f.off
    let i := if f.s1 = 0 then 0 else d / f.s1
    let r := d - f.s1 * i
    let j := if f.s2 = 0 then 0 else r / f.s2
    if i < f.n1 ∧ j < f.n2 ∧ r = f.s2 * j then some (i, j) else none

/-- Every core window of a cluster shows the router registers of the cluster (R354). -/
def routerOff (a : Nat) : Nat :=
  if 0x1000000 ≤ a ∧ a < 0x2000000 ∧ 0x7C00 ≤ a % 0x8000 ∧ a % 0x8000 < 0x7C40 then
    0x1000000 + (a - 0x1000000) / 0x80000 * 0x80000 + a % 0x8000
  else a

/-- The fields of the register at a BAR0 offset, with their instances. -/
def fieldsAt (a : Nat) : List (Fld × Nat × Nat) :=
  regMap.filterMap (fun f => (f.at_ (routerOff a)).map (fun x => (f, x.1, x.2)))

/-! ### Reads -/

/-- The fields that a tick-numbered snapshot latches (R126, R669 and the register blocks that say so). -/
def latchables : List Fld :=
  [R.arr_PULSES, R.arr_PULSES_SKIP, R.arr_SAT_CONV, R.arr_ZERO_PROD, R.arr_DEFECTS, R.arr_POISON_COLS] ++
  [R.fmt_FB_STEP1, R.fmt_FB_STEP2, R.fmt_FB_EXCESS, R.fmt_CLIP_TILES, R.fmt_SAT_ACCEPT, R.fmt_RENORM, R.fmt_RENORM_OVF, R.fmt_ENTRY_CLAMP] ++
  [R.mx_MX_RETIRED, R.mx_MX_TAGMIS, R.mx_MX_CMDERR, R.mx_MX_GOV_WAIT, R.mx_MX_POISON_IN] ++
  [R.we_WE_PASSES, R.we_WE_REFRESHES, R.we_WE_REPAIRS, R.we_WE_FLIPS, R.we_WE_FLIP_REF] ++
  [R.cal_CAL_RUNS, R.cal_CAL_ABANDON, R.cal_CAL_WAIT, R.cal_CAL_COLFAULT] ++
  [R.core_CMD_RSVD, R.core_ECC_CORR, R.core_ECC_POISON, R.core_XFER_ERR] ++
  [R.vec_V_RETIRED, R.vec_V_BUSY_CYC, R.vec_NAN_POISON, R.vec_INF_OUT, R.vec_FP8_SAT, R.vec_CLIP_MARK, R.vec_POISON_PROP, R.vec_V_CMDERR,
    R.vec_REF_PROD, R.vec_REF_CYC] ++
  [R.rtr_GRAN_C, R.rtr_RED_SUMS, R.rtr_MC_COPIES, R.rtr_CRED_HOLD, R.rtr_BUF_CORR, R.rtr_BUF_POISON, R.rtr_RED_ERR] ++
  [R.wdw_WR_LANDED, R.wdw_WR_DROPPED, R.wdw_WS_FAIL, R.wdw_GRANT_DROP] ++
  [R.ptier_PARKS, R.ptier_RETURNS, R.ptier_EXPIRIES, R.ptier_TIER_ERRS] ++
  [R.win_DRAWS, R.win_DRAFT_DRAWS, R.win_CAND_DROP, R.win_W_BUSY_CYC, R.pwin_COMMITS, R.pwin_DRAFTED, R.pwin_ACCEPTED, R.pwin_VERIFIES,
    R.pwin_DC_OFFS, R.pwin_CNT_DROP, R.pwin_W_ERRS] ++
  [R.hbm_CE_COUNT, R.hbm_UE_COUNT, R.hbm_POISON_RD, R.hbm_ODECC, R.hbm_RD_GRAN, R.hbm_WR_GRAN, R.hbm_THROT_MS] ++
  [R.port_FEC_CW, R.port_FEC_CORR, R.port_FEC_UNCORR, R.port_CRC_ERR, R.port_REPLAYED, R.port_LATE_FLITS, R.port_RETRAINS, R.port_DEGRADES,
    R.port_PROTO_ERR, R.port_LANE_SER, R.port_AUTH_FAIL, R.port_MSG_TX, R.port_MSG_RX, R.port_LOST] ++
  [R.msg_MSG_FWD, R.msg_MSG_BAD, R.msg_UNREACH, R.msg_SNAP_LATE, R.msg_MGMT_DROP] ++
  [R.gauge_MUX_WAIT, R.gauge_ENTRY_SKIP, R.gauge_OW_EVENTS, R.gauge_OVR_EVENTS, R.gauge_IIN_OVR_CNT, R.gres_VALUE, R.gres_OVR, R.gres_FS,
    R.gres_OPEN, R.gres_SEQ, R.live_G_MIN, R.live_G_MAX, R.live_G_TICK, R.live_G_CYC] ++
  [R.gov_FAST_TRIPS, R.gov_IREV_TRIPS, R.gov_HOLD_TRIPS, R.pgov_GOV_DEFER, R.therm_WARN_EVENTS, R.therm_THROT_EVENTS, R.therm_THROT_TICKS,
    R.therm_SENS_FAULTS] ++
  [R.err_CNT_CORR, R.err_CNT_DEFER, R.err_CNT_PFATAL, R.err_CNT_DFATAL, R.err_LOST_LOW, R.err_LOST_FATAL, R.err_HAE_LOST] ++
  [R.ptest_AUDITS, R.ptest_AUDIT_FAILS, R.ptest_MAINT_FRAMES, R.ptest_GLEANS, R.aud_AUD_PASS, R.aud_AUD_FAIL, R.aud_AUD_SKIP] ++
  [R.trail_TR_LOST, R.trail_TR_HOLD, R.trail_TR_RSEQ, R.rp_RP_FRAMES]

/-- Two descriptors name one field. -/
def Fld.is (f g : Fld) : Bool := f.id == g.id

/-- The bank that a function's read of a field sees: the shadows while SNAP_VIEW is 1, for the physical function only (R670). -/
def State.viewed (s : State) (fn : Nat) (f : Fld) : Bank :=
  if fn = 0 ∧ s.flag R.snap_SNAP_VIEW ∧ latchables.any (fun g => f.is g) then s.shadow else s.regs

/-- The fields whose writes take effect at the next tick edge (R610, R626). -/
def atEdge : List Fld :=
  [R.cap_CAP_W, R.gov_CEIL_W, R.gov_SLEW, R.gov_OTHER_RES, R.gov_THROT_FRAC, R.therm_WARN_C, R.therm_THROT_C, R.therm_SHUT_C,
   R.therm_CROSS_MARGIN, R.therm_SD_MODE, R.therm_ORD_MAX_S, R.therm_COOL_WARN_C, R.therm_COOL_SHUT_C, R.therm_PST_SHUT_C]

/-- What a read of a field instance returns (R15). A field whose write takes effect later reads as last written. -/
def State.readField (s : State) (fn : Nat) (f : Fld) (i j : Nat) : Nat :=
  if f.acc = .wo then 0
  else if f.is R.fmtp_POLICY then ((s.part i).policyNext).getD (s.rd f i j)
  else if f.is R.ptier_SILO_COUNT then Tbl.get (s.rd f i j) s.tier.siloCount i
  else if f.is R.rtr_NODE_LO then s.node i (s.rd R.rtr_NODE_SEL i) % 2 ^ 32
  else if f.is R.rtr_NODE_HI then s.node i (s.rd R.rtr_NODE_SEL i) / 2 ^ 32
  else if f.is R.we_IMG_A then (s.wset i (s.rd R.we_IMG_SEL i)).imgA
  else if f.is R.we_IMG_B then (s.wset i (s.rd R.we_IMG_SEL i)).imgB
  else match s.power.wr.reverse.find? (fun w => atEdge.any (fun g => f.is g) && w.1 == f.id && w.2.1 == f.key i j) with
    | some w => w.2.2
    | none => ((s.viewed fn f).rd f i j).toNat

/-- The holding registers that a read of a low word fills, with the live parts that they take (R57 and the tables). -/
def holdings : List (Fld × List (Fld × Fld)) :=
  [(R.tick_NUM_LO, [(R.tick_NUM_HI, R.live_NUM_HI)]), (R.frm_PUB_LO, [(R.frm_PUB_HI, R.live_PUB_HI)]),
   (R.part_EN_TICK_LO, [(R.part_EN_TICK_HI, R.live_EN_TICK_HI)]), (R.snap_SNAP_TICK_LO, [(R.snap_SNAP_TICK_HI, R.live_SNAP_TICK_HI)]),
   (R.mgmt_HANDOFF_TICK_LO, [(R.mgmt_HANDOFF_TICK_HI, R.live_HANDOFF_TICK_HI)]), (R.hbm_UE_ADDR_LO, [(R.hbm_UE_ADDR_HI, R.live_UE_ADDR_HI)]),
   (R.gres_VALUE, [(R.gres_MIN, R.live_G_MIN), (R.gres_MAX, R.live_G_MAX), (R.gres_TICK_LO, R.live_G_TICK), (R.gres_CYC, R.live_G_CYC)])]

/-- A read of a field fills its holding registers. -/
def State.hold (s : State) (fn : Nat) (f : Fld) (i : Nat) : State :=
  match holdings.find? (fun h => h.1.is f) with
  | some h => h.2.foldl (fun s x => s.wr x.1 ((s.viewed fn x.2).rd x.2 i 0).toNat i) s
  | none => s

/-- A 32-bit read at a BAR0 offset: the state after it, and the value. Reserved bits read 0 (R16). -/
def State.readReg (s : State) (fn a : Nat) : State × Nat :=
  let fs := fieldsAt a
  (fs.foldl (fun s x => s.hold fn x.1 x.2.1) s,
   (fs.map (fun x => s.readField fn x.1 x.2.1 x.2.2 * 2 ^ x.1.lsb)).foldl (· + ·) 0)

/-! ### The windows of the virtual functions (R507) -/

/-- What an offset of a virtual function's window names: a register of the physical function's map, a word of the MSI-X table, a word of
the pending bits, a word of the tier command registers, or nothing. -/
inductive Win where
  | reg (a : Nat) (ro : Bool)
  | msix (w : Nat)
  | pba (w : Nat)
  | tier (w : Nat)
  | hole
  deriving DecidableEq, Repr

/-- The window of virtual function `fn`, at a word offset below the ring aperture (R507). -/
def vfWin (fn off : Nat) : Win :=
  let p := fn - 1
  let reg := fun (a : Nat) (ro : Bool) => if (fieldsAt a).isEmpty then Win.hole else Win.reg a ro
  if off < 0x1000 then reg (0x03810000 + 0x1000 * p + off) false
  else if off < 0x1020 then reg (0x00101000 + 0x20 * p + (off - 0x1000)) true
  else if 0x2000 ≤ off ∧ off < 0x2040 then reg (0x03802000 + 0x40 * p + (off - 0x2000)) false
  else if 0x3000 ≤ off ∧ off < 0x3080 then .msix ((off - 0x3000) / 4)
  else if 0x3800 ≤ off ∧ off < 0x3808 then .pba ((off - 0x3800) / 4)
  else if 0x4000 ≤ off ∧ off < 0x4018 then .tier ((off - 0x4000) / 4)
  else .hole

/-- A word of a function's MSI-X table: 16 bytes a vector, the mask in bit 0 of the last word (log entry 7). -/
def State.msixWord (s : State) (fn w : Nat) : Nat :=
  if w % 4 = 3 then b2n (!Marks.has s.host.masked (fn * 32 + w / 4)) else s.host.msixTab.le (fn * 4096 + 4 * w) 4

/-- A write of a word of the MSI-X table. -/
def State.msixPut (s : State) (fn w v : Nat) : State :=
  if w % 4 = 3 then (if bitOf v 0 then s.mask fn (w / 4) else s.unmask fn (w / 4))
  else s.updHost (fun h => { h with msixTab := h.msixTab.putLe (fn * 4096 + 4 * w) 4 v })

/-- The pending bits of a function's vectors. -/
def State.pbaWord (s : State) (fn w : Nat) : Nat :=
  if w = 0 then ((List.range 8).map (fun v => b2n (Marks.has s.host.msixPending (fn * 32 + v)) * 2 ^ v)).foldl (· + ·) 0 else 0

/-- A word of a virtual function's tier command registers: those at 0x10 to 0x24 of R386. -/
def State.tierRead (s : State) (fn w : Nat) : Nat :=
  if w < 4 then s.rd R.live_V_HCMD fn w
  else if w = 5 then s.rd R.live_V_HRES fn + 256 * s.rd R.live_V_HRES_CODE fn else 0

/-- A write of one of them. -/
def State.tierPut (s : State) (fn w off v : Nat) : State :=
  if w < 4 then s.wr R.live_V_HCMD v fn w else if w = 4 ∧ bitOf v 0 then s.tierGo fn off else s

/-! ### What BAR0 serves -/

/-- BAR0 answers at an offset: everything once start-up is past STAGE 4; before it, IDENT and the management block (R559); in a device-fatal
stop, those and the errors block (R635). -/
def State.serves (s : State) (fn a : Nat) : Bool :=
  let always := fn == 0 && (decide (a < 0x1000) || (decide (0x03C00000 ≤ a) && decide (a < 0x03E00000)))
  if s.power.fatal then always || (fn == 0 && decide (0x00500000 ≤ a) && decide (a < 0x00600000)) else s.booted || always

/-- The host can reach a function at all: power, link and IDE (R522, R620). -/
def State.linked (s : State) : Bool := (s.alive || s.power.fatal) && !s.power.latched && s.host.linkUp

/-- A 32-bit read by a function, at an offset of its own window. -/
def State.readWord (s : State) (fn off : Nat) : State × Nat :=
  if !s.serves fn off then (s, 0xFFFFFFFF)
  else if fn = 0 then s.readReg 0 off
  else match vfWin fn off with
    | .reg a _ => s.readReg fn a
    | .msix w => (s, s.msixWord fn w)
    | .pba w => (s, s.pbaWord fn w)
    | .tier w => (s, s.tierRead fn w)
    | .hole => (s.hae 7 fn 0 false 4 off 0, 0xFFFFFFFF)

/-- The device granules of `n` bytes at an offset of a virtual function's ring aperture (R508). -/
def State.ringGrans (s : State) (fn off n : Nat) : List (Nat × Option Nat) :=
  (aperSpan (off - 0x80000) n).map (fun g => (g, s.linGran (fn - 1) (32768 * s.main (fn - 1) 40 4 + g)))

/-- A read of a ring aperture. -/
def State.ringRead (s : State) (fn off n : Nat) : State :=
  let gs := s.ringGrans fn off n
  if gs.any (fun x => x.2.isNone) || decide (0x100000 < off + n) then
    (s.hae 7 fn 0 false n off 0).updHost (fun h => { h with answer := List.replicate n 0xFF, answerBad := false, answerUr := false })
  else
    let r := gs.foldl (fun (acc : State × List Byte × Bool) x =>
      let y := acc.1.readGran (x.2.getD 0)
      (y.1, acc.2.1 ++ y.2.1, acc.2.2 || y.2.2)) (s, [], false)
    r.1.updHost (fun h => { h with answer := (r.2.1.drop (off % 64)).take n, answerBad := r.2.2, answerUr := false })

/-- A write through a ring aperture. -/
def State.ringWrite (s : State) (fn off : Nat) (bs : List Byte) : State :=
  let n := bs.length
  let gs := s.ringGrans fn off n
  let a := off - 0x80000
  if gs.any (fun x => x.2.isNone) || decide (0x100000 < off + n) then s.hae 7 fn 0 true n off (leNat (bs.take 4))
  else gs.foldl (fun s x =>
    let lo := max a (64 * x.1)
    let hi := min (a + n) (64 * x.1 + 64)
    s.bar2Gran (x.2.getD 0) (lo - 64 * x.1) ((bs.drop (lo - a)).take (hi - lo)) false) s

/-- HOLDING_REGISTER_READ: a read of `len` bytes by a function; a 64-bit one is two of 32 bits, the lower first (R13). -/
def execHoldingRegisterRead (fn : BitVec 7) (off : BitVec 26) (len : BitVec 13) (s : State) : Out :=
  let f := fn.toNat
  let a := off.toNat
  let n := len.toNat
  let answer := fun (s : State) (bs : List Byte) => s.updHost (fun h => { h with answer := bs, answerBad := false, answerUr := false })
  .next (if !s.linked || decide (64 < f) || n == 0 then s
  else if s.fnBlocked f then s.unsupported
  else if inAperture f a && s.booted && s.alive then s.ringRead f a n
  else if !bar0Form n a then answer (s.hae 1 f 0 false n a 0) (List.replicate n 0xFF)
  else
    let x := s.readWord f a
    if n = 4 then answer x.1 (toLe 4 x.2)
    else
      let y := x.1.readWord f (a + 4)
      answer y.1 (toLe 4 x.2 ++ toLe 4 y.2))

/-! ### Plain writes -/

/-- The ranges outside which a write leaves its field unchanged (R232, R264, R386, R387, R439, R510, R515, R563, R626, R671). -/
def ranges : List (Fld × Nat × Nat) :=
  [(R.we_REFR_THR, 5, 30), (R.we_SAMPLE_LOG2, 0, 10), (R.we_WE_CEIL, 1, 2000000), (R.cal_CAL_DT, 1, 16), (R.cal_CAL_AGE, 1, 255),
   (R.tm_RATE_GBS, 8, 192), (R.ptier_IDLE_MS, 1, 65535), (R.ptier_TTL_DEF, 1, 86400), (R.hbm_SCRUB_H, 1, 168), (R.port_WIDTH_MIN, 0, 2),
   (R.cap_CAP_W, 0, 1100), (R.gov_CEIL_W, 400, 3600), (R.gov_SLEW, 2, 16), (R.gov_OTHER_RES, 0, 3600), (R.gov_THROT_FRAC, 25, 100),
   (R.therm_CROSS_MARGIN, 2, 20), (R.therm_ORD_MAX_S, 5, 120), (R.mgmt_FW_PAGE, 0, 5), (R.glean_GL_DEADLINE, 1, 65535),
   (R.trail_TR_SIZE_LOG2, 12, 26)]

/-- A value lies in a field's range. -/
def inRangeOf (f : Fld) (v : Nat) : Bool :=
  match ranges.find? (fun r => r.1.is f) with
  | some r => decide (r.2.1 ≤ v) && decide (v ≤ r.2.2)
  | none => true

/-- A write of one field (R15): an RW field takes the value, a W1C field loses the bits written as 1. -/
def State.writeField (s : State) (f : Fld) (i j v : Nat) : State :=
  match f.acc with
  | .rw =>
    if !inRangeOf f v then s
    else if atEdge.any (fun g => f.is g) then s.updPower (fun w => { w with wr := w.wr ++ [(f.id, f.key i j, v)] })
    else s.wr f v i j
  | .w1c => s.wr f (s.rd f i j - Nat.land (s.rd f i j) v) i j
  | .ro => s
  | .wo => s

/-- A 32-bit write at a BAR0 offset that changes every field of the register but those named; reserved bits have no effect (R16). -/
def State.plainBut (s : State) (a v : Nat) (skip : List Fld) : State :=
  ((fieldsAt a).filter (fun x => !skip.any (fun g => x.1.is g))).foldl (fun s x => s.writeField x.1 x.2.1 x.2.2 (bitsOf v x.1.lsb x.1.width)) s

/-- A 32-bit write that changes every field of the register. -/
def State.plain (s : State) (a v : Nat) : State := s.plainBut a v []

/-- A write by a function: its own offset, the offset in the physical function's map, and the value. -/
structure HostWr where
  fn : Nat
  off : Nat
  a : Nat
  v : Nat

/-- The write is discarded as a host access error. -/
def State.refuseWr (s : State) (w : HostWr) (kind : Nat := 2) : State := s.hae kind w.fn 0 true 4 w.off w.v

/-- A plain write that a state may forbid. -/
def State.plainIf (s : State) (w : HostWr) (ok : Bool) : State := if ok then s.plain w.a w.v else s.refuseWr w

/-! ### Blocks with rules of their own -/

/-- Partition control (chapter 17): the word with ENABLE and DISABLE, and the plain words. -/
def State.wrPart (s : State) (w : HostWr) : State :=
  let p := (w.a - 0x00201000) / 0x40
  if (w.a - 0x00201000) % 0x40 ≠ 0 then s.plain w.a w.v
  else
    let s := if bitOf w.v 0 then s.enableReq p else s
    if bitOf w.v 1 then s.disableReq p else s

/-- Format policy (R163): a write to POLICY takes effect at the next publication edge; a disabled partition has none to wait for. -/
def State.wrPolicy (s : State) (w : HostWr) : State :=
  let p := (w.a - 0x00204000) / 0x10
  if (w.a - 0x00204000) % 0x10 ≠ 0 then s
  else if s.enabled p then s.updPart p (fun q => { q with policyNext := some (w.v % 2) })
  else s.wr R.fmtp_POLICY (w.v % 2) p

/-- The thermal thresholds come in whole registers (R615): a write outside a range or out of order is discarded and logged. -/
def thermOk (r v : Nat) : Bool :=
  let x := bitsOf v 0 8
  let y := bitsOf v 8 8
  let z := bitsOf v 16 8
  if r = 0 then decide (60 ≤ x ∧ x ≤ 105 ∧ 70 ≤ y ∧ y ≤ 112 ∧ 90 ≤ z ∧ z ≤ 120 ∧ x < y ∧ y < z)
  else if r = 8 then decide (20 ≤ x ∧ x ≤ 60 ∧ 25 ≤ y ∧ y ≤ 70 ∧ 100 ≤ z ∧ z ≤ 140 ∧ x < y) else true

/-- Thermal registers (R615, R619, R626). -/
def State.wrTherm (s : State) (w : HostWr) : State :=
  let r := w.a - 0x00400000
  if r = 0x18 then (if bitOf w.v 0 then s.stopCause 6 0 0 else s) else s.plainIf w (thermOk r w.v)

/-- The thresholds of a stack (R432). -/
def hbmOk (v : Nat) : Bool :=
  let x := bitsOf v 0 8
  let y := bitsOf v 8 8
  let z := bitsOf v 16 8
  decide (70 ≤ x ∧ x ≤ 95 ∧ 80 ≤ y ∧ y ≤ 100 ∧ 90 ≤ z ∧ z ≤ 110 ∧ x < y ∧ y < z)

/-- Glean registers (R644, R651). -/
def State.wrGlean (s : State) (w : HostWr) : State :=
  let s := (s.plain w.a w.v).syncGlean
  if w.a = 0x00502008 ∧ bitOf w.v 0 ∧ s.alive then s.gleanGo else s

/-- Trail registers (R653, R671): all but TR_RD only while the partition is DISABLED. A mirror that is switched on starts at the present unit. -/
def State.wrTrail (s : State) (w : HostWr) : State :=
  let p := (w.a - 0x00600000) / 0x40
  if (w.a - 0x00600000) % 0x40 = 0x10 then s.plain w.a w.v
  else if s.pstate p ≠ 0 then s.refuseWr w
  else
    let was := s.flag R.trail_HM_EN p
    let s := s.plain w.a w.v
    if s.flag R.trail_HM_EN p && !was then s.updPart p (fun q => { q with mirrored := s.rd R.trail_TR_WR p }) else s

/-- Tier manager registers (R382, R386). -/
def State.wrTier (s : State) (w : HostWr) : State :=
  if w.a = 0x00800020 then (if bitOf w.v 0 then s.tierGo 0 w.off else s)
  else if w.a = 0x00800028 then s.rqSelect (w.v % 65536) else s.plain w.a w.v

/-- Partition tier registers (R381, R387). -/
def State.wrPtier (s : State) (w : HostWr) : State :=
  let p := (w.a - 0x00801000) / 0x40
  if (w.a - 0x00801000) % 0x40 = 0x28 then s.siloWrite p (w.v % 2 ^ 26) else s.plain w.a w.v

/-- 1 written to WE_HGO: the command in the host slot waits for the next edge; a second GO is ignored and logged (R210). -/
def State.weGo (s : State) (w : HostWr) (c : Nat) : State :=
  if (s.core c).hostCmd then s.refuseWr w 5
  else (s.updCore c (fun k => { k with hostCmd := true })).wr R.we_HRES 1 c

/-- Core windows: the fields with rules of their own (R198, R210, R243, R303, R354, R642). -/
def State.wrCore (s : State) (w : HostWr) : State :=
  let c := (w.a - 0x01000000) / 0x8000
  let r := w.a % 0x8000
  if r = 0x721C then s.wsSelect c (w.v % 4096)
  else if r = 0x7360 then (if bitOf w.v 0 then s.weGo w c else s)
  else if r = 0x7400 then
    let s := s.plain w.a w.v
    if bitOf w.v 24 then s.calDue c 3 else s
  else if r = 0x770C then
    let s := s.plain w.a w.v
    if bitOf w.v 31 then s.updCore c (fun k => { k with audits := [] }) else s
  else if 0x7800 ≤ r ∧ r < 0x7900 then s.tallyPut w.fn c ((r - 0x7800) / 4) (w.v % 65536)
  else if r = 0x7C34 ∨ r = 0x7C38 then s.nodeWrite w.a w.v
  else if 0x7300 ≤ r ∧ r < 0x7400 then (s.plain w.a w.v).syncDue c
  else s.plain w.a w.v

/-- An RWIN or LCIRC entry of a port is in use: an enabled partition's program record names it (R502, R535), or the entry is VALID and its
circuit's owner is not disabled. -/
def State.portEntryFree (s : State) (n r : Nat) : Bool :=
  if r < 0x4C0 then
    let i := (r - 0x480) / 4
    !(List.range 64).any (fun p => s.enabled p && (s.part p).ports.any (fun x => x.1 == n && bitOf x.2.1 i))
  else
    let i := (r - 0x4C0) / 4
    !(List.range 64).any (fun p => s.enabled p && (s.part p).ports.any (fun x => x.1 == n && bitOf x.2.2 i)) &&
      (!s.flag R.port_VALID n i || s.circFree (s.rd R.port_LOCAL n i))

/-- SLACK lies in the range of the port's mode (R462). -/
def State.slackOk (s : State) (n v : Nat) : Bool :=
  if s.flag R.port_MODE n then decide (8192 ≤ v ∧ v ≤ 32768) else decide (512 ≤ v ∧ v ≤ 4096)

/-- The control word of a port: MODE only while no enabled partition uses the port, WIDTH_MIN, ENABLE and RETRAIN (R452, R463, R467). -/
def State.wrPortCtl (s : State) (w : HostWr) (n : Nat) : State :=
  let s := if b2n (bitOf w.v 1) = s.rd R.port_MODE n then s
    else if s.portBusy n then s.refuseWr w else s.wr R.port_MODE (b2n (bitOf w.v 1)) n
  let s := (s.plainBut w.a w.v [R.port_ENABLE, R.port_MODE]).portEnable n (bitOf w.v 0)
  if bitOf w.v 8 then s.retrain n else s

/-- Port registers (R463, R466, R467, R488, R496, R502). -/
def State.wrPort (s : State) (w : HostWr) : State :=
  let n := (w.a - 0x02000000) / 0x10000
  let r := w.a % 0x10000
  if 24 ≤ n then s
  else if r = 0 then s.wrPortCtl w n
  else if r = 0x0C then
    if s.portBusy n then s.refuseWr w
    else if s.slackOk n (w.v % 65536) then s.wr R.port_SLACK (w.v % 65536) n else s
  else if 0x100 ≤ r ∧ r < 0x300 then
    let i := (r - 0x100) / 8
    if s.flag R.port_SLOT_VALID n i && s.pstate (s.rd R.port_SLOT_OWNER n i) != 0 then s.refuseWr w 6 else s.plain w.a w.v
  else if r = 0x408 then s.switchWrite n (w.v % 32) (bitOf w.v 8)
  else if 0x420 ≤ r ∧ r < 0x440 then s.wr R.port_KEY w.v n ((r - 0x420) / 4)
  else if r = 0x440 then (if bitOf w.v 0 then s.keyLoad n else s)
  else if 0x480 ≤ r ∧ r < 0x500 then
    if !s.portEntryFree n r then s.refuseWr w 6
    else
      let s := s.plain w.a w.v
      if 0x4C0 ≤ r then s.wr R.port_CONFIRMED 0 n ((r - 0x4C0) / 4) else s
  else s.plain w.a w.v

/-- A partition that spans modules is enabled here, or is on its way there (R472, R544). -/
def State.routesHeld (s : State) : Bool := (List.range 64).any (fun p => s.span p && [1, 2, 3, 5].contains (s.pstate p))

/-- Submission ring words (R510, R520): the size only while the partition and the ring are disabled. -/
def State.wrSq (s : State) (w : HostWr) (p i : Nat) : State :=
  let size := bitsOf w.v 0 4
  let s := if size = s.rd R.ring_SQ_SIZE_LOG2 p i then s
    else if s.pstate p ≠ 0 then s.refuseWr w
    else if s.flag R.ring_SQ_EN p i || size < 4 || 11 < size then s else s.wr R.ring_SQ_SIZE_LOG2 size p i
  s.setSqEn p i (bitOf w.v 8)

/-- Completion ring words (R515, R520). -/
def State.wrCq (s : State) (w : HostWr) (p i : Nat) : State :=
  let size := bitsOf w.v 0 5
  let s := if size = s.rd R.ring_CQ_SIZE_LOG2 p i then s
    else if s.pstate p ≠ 0 then s.refuseWr w
    else if s.flag R.ring_CQ_EN p i || size < 6 || 16 < size then s else s.wr R.ring_CQ_SIZE_LOG2 size p i
  s.plainBut w.a w.v [R.ring_CQ_SIZE_LOG2]

/-- Ring registers (R509, R510, R515, R520). -/
def State.wrRing (s : State) (w : HostWr) : State :=
  let p := (w.a - 0x03810000) / 0x1000
  let r := w.a % 0x1000
  let o := r % 0x20
  if r < 0x80 then (if o = 8 then s.wrSq w p (r / 0x20) else s.plain w.a w.v)
  else if o = 8 then s.wrCq w p ((r - 0x80) / 0x20)
  else if o = 0 ∨ o = 4 ∨ o = 0x14 ∨ o = 0x18 then
    if s.pstate p ≠ 0 then s.refuseWr w else s.plain w.a (if o = 0 then w.v / 4096 * 4096 else w.v)
  else s.plain w.a w.v

/-- Host copy registers (R519). -/
def State.wrCopy (s : State) (w : HostWr) : State :=
  let p := (w.a - 0x03802000) / 0x40
  if (w.a - 0x03802000) % 0x40 = 0x14 then (if bitOf w.v 0 then s.copyGo w.fn p w.off else s) else s.plain w.a w.v

/-- Management registers (R557, R563, R564, R569); `key` is the outcome of a configuration block's key digest and signature. -/
def State.wrMgmt (s : State) (w : HostWr) (key : Bool) : State :=
  let s := s.plain w.a w.v
  if w.a ≠ 0x03C00010 ∨ !(s.alive && s.booted) then s
  else
    let s := if bitOf w.v 8 then s.fwGo else s
    let s := if bitOf w.v 9 then s.swapAsk else s
    if bitOf w.v 10 then s.cfgGo key else s

/-- A write into the load window (R563). -/
def State.wrLoad (s : State) (w : HostWr) : State :=
  let o := w.a - 0x03D00000
  if !(s.loadOpen && s.booted && s.alive) then s.refuseWr w
  else if s.flag R.mgmt_FW_TARGET then
    if o < 65536 then s.updMem (fun m => { m with cfgStage := m.cfgStage.putLe o 4 w.v }) else s
  else s.updMem (fun m => { m with loadWin := m.loadWin.putLe (s.otherHalf + 0x100000 * s.rd R.mgmt_FW_PAGE + o) 4 w.v })

/-- Blocks below the core windows, by offset. -/
def State.wrLow (s : State) (w : HostWr) : State :=
  if w.a = 0x0010001C then (if bitOf w.v 0 then s.periodArm else s)
  else if 0x00201000 ≤ w.a ∧ w.a < 0x00202000 then s.wrPart w
  else if 0x00202000 ≤ w.a ∧ w.a < 0x00202800 then s.coreTable ((w.a - 0x00202000) / 4) w.v
  else if 0x00204000 ≤ w.a ∧ w.a < 0x00204400 then s.wrPolicy w
  else if 0x00208000 ≤ w.a ∧ w.a < 0x00218000 then s.nodeWrite w.a w.v
  else if 0x00218000 ≤ w.a ∧ w.a < 0x0021A000 then s.plainIf w (s.pstate ((w.a - 0x00218000) / 0x80) == 0)
  else if 0x00220000 ≤ w.a ∧ w.a < 0x00228000 then
    if s.pstate ((w.a - 0x00220000) / 0x200) ≠ 0 then s.refuseWr w
    else ((s.plain w.a (if w.a % 8 = 0 then w.v % 2 ^ 21 else w.v / 2 ^ 29 * 2 ^ 29 + w.v % 2 ^ 21)).reclaimPages
        ((w.a - 0x00220000) / 0x200)).syncTier ((w.a - 0x00220000) / 0x200)
  else if 0x00308000 ≤ w.a ∧ w.a < 0x00309000 ∧ gaugeOff (w.a - 0x00308000) then s.gaugeWrite (w.a - 0x00308000) w.v
  else if 0x00400000 ≤ w.a ∧ w.a < 0x00401000 then s.wrTherm w
  else if w.a = 0x00500028 then s.logSelect (w.v % 65536)
  else if 0x00502000 ≤ w.a ∧ w.a < 0x00503000 then s.wrGlean w
  else if 0x00600000 ≤ w.a ∧ w.a < 0x00601000 then s.wrTrail w
  else if 0x00601000 ≤ w.a ∧ w.a < 0x00602000 then s.plainIf w (s.pstate ((w.a - 0x00601000) / 0x40) == 0)
  else if w.a = 0x0060200C then (if bitOf w.v 0 then s.snapArm else s)
  else if 0x00800000 ≤ w.a ∧ w.a < 0x00801000 then s.wrTier w
  else if 0x00801000 ≤ w.a ∧ w.a < 0x00802000 then s.wrPtier w
  else s.plain w.a w.v

/-- The other blocks, by offset. -/
def State.wrHigh (s : State) (w : HostWr) (key : Bool) : State :=
  if w.a < 0x02000000 then s.wrCore w
  else if w.a < 0x02800000 then s.wrPort w
  else if 0x02800100 ≤ w.a ∧ w.a < 0x02800300 then s.plainIf w (!s.routesHeld)
  else if 0x03000000 ≤ w.a ∧ w.a < 0x03200000 ∧ w.a % 0x10000 = 8 then s.plainIf w (hbmOk w.v)
  else if 0x03200100 ≤ w.a ∧ w.a < 0x03200180 then s.mapWrite ((w.a - 0x03200100) / 4) w.v
  else if 0x03802000 ≤ w.a ∧ w.a < 0x03803000 then s.wrCopy w
  else if 0x03810000 ≤ w.a ∧ w.a < 0x03850000 then s.wrRing w
  else if 0x03C00000 ≤ w.a ∧ w.a < 0x03D00000 then s.wrMgmt w key
  else if 0x03D00000 ≤ w.a ∧ w.a < 0x03E00000 then s.wrLoad w
  else s.plain w.a w.v

/-- A 32-bit write that reaches the register map. -/
def State.regWrite (s : State) (w : HostWr) (key : Bool) : State := if w.a < 0x01000000 then s.wrLow w else s.wrHigh w key

/-- A 32-bit write by a function, at an offset of its own window. -/
def State.writeWord (s : State) (fn off v : Nat) (key : Bool) : State :=
  if !s.serves fn off then s
  else if fn = 0 then s.regWrite { fn := 0, off := off, a := off, v := v } key
  else match vfWin fn off with
    | .reg a ro => if ro then s else s.regWrite { fn := fn, off := off, a := a, v := v } key
    | .msix w => s.msixPut fn w v
    | .pba _ => s
    | .tier w => s.tierPut fn w off v
    | .hole => s.hae 7 fn 0 true 4 off v

/-- REGISTER_WRITE: a write of some bytes by a function; a 64-bit one is two of 32 bits, the lower first (R13). -/
def execRegisterWrite (fn : BitVec 7) (off : BitVec 26) (data : List Byte) (key : Bool) (s : State) : Out :=
  let f := fn.toNat
  let a := off.toNat
  let n := data.length
  .next (if !s.linked || decide (64 < f) || n == 0 || s.fnBlocked f then s
  else if inAperture f a then (if s.booted && s.alive then s.ringWrite f a data else s)
  else if !bar0Form n a then s.hae 1 f 0 true n a (leNat (data.take 4))
  else
    let s := s.writeWord f a (leNat (data.take 4)) key
    if n = 4 then s else s.writeWord f (a + 4) (leNat (data.drop 4)) key)

end Sys2Proof.Machine
end

