-- ==== Sys2Proof/Machine/Vector.lean ====
section
/-! DEFINITION. The vector engine (chapter 9): operands and destinations, refusals, VPSIN, VACT, VEW, VNORM, VSMAX and VATTN. -/

namespace Sys2Proof.Machine

/-! ### Types (R304) and operands -/

/-- Bytes of an element of types 0 to 4. -/
def elemSize (t : Nat) : Nat := [4, 2, 1, 1, 1].getD t 4

/-- A type code of an element type or a B-format. -/
def typeOk (t : Nat) : Bool := decide (t ≤ 4) || (decide (8 ≤ t) && decide (t ≤ 12))

/-- Bytes of `rows` rows of `e` elements of a type; a reserved type is laid out as FP32 (log entry 21). -/
def typeBytes (t rows e : Nat) : Nat :=
  if 8 ≤ t ∧ t ≤ 12 then rows * ceilDiv e 1024 * segBytes (t - 8) else rows * e * elemSize t

/-- The value of an element of types 0 to 4 (R305). -/
def readElem (t v : Nat) : Fp :=
  if t = 0 then fp32.decode v else if t = 1 then bf16.decode v else if t = 2 then e4m3.decode v
  else if t = 3 then e5m2.decode v else Fp.ofInt (sgn 8 v)

/-- An element with the poison of its granule. -/
abbrev Elem := Fp × Bool

/-- `n` elements of types 0 to 4 from a Loft byte address. -/
def State.plainElems (s : State) (c a t n : Nat) : List Elem :=
  (List.range n).map (fun i => (readElem t (s.loftLe c (a + i * elemSize t) (elemSize t)), s.loftBad c ((a + i * elemSize t) / 64)))

/-- The elements of block `b` of a segment image at a Loft byte address: q times 2^E, above the FP32 range an infinity (R305); poisoned
with the granule of its exponent or of its values. -/
def State.blkElems (s : State) (c a f b : Nat) : List Elem :=
  let n := fmtM f + 1
  let lo := a + 32 + 4 * n * b
  let bad := s.loftBad c (a / 64) || s.anyBad c (lo / 64) (granSpan lo (4 * n))
  let k := readBlk f (s.loftBytes c a (segBytes f)) b
  k.q.map (fun q => ((Fp.fin (decide (q < 0)) q.natAbs (k.exp.getD 0)).r32, bad))

/-- Row `r` of an operand of `e` elements a row. -/
def State.rowElems (s : State) (c a t e r : Nat) : List Elem :=
  if 8 ≤ t then
    (List.range (e / 32)).flatMap (fun b =>
      s.blkElems c (a + (r * ceilDiv e 1024 + b / 32) * segBytes (t - 8)) (t - 8) (b % 32))
  else s.plainElems c (a + r * e * elemSize t) t e

/-! ### Destinations (R308, R131) -/

/-- A stored element: its code, whether its granule is written poisoned, and whether it counts as a saturation or an infinity. -/
structure Stored where
  code : Nat
  bad : Bool := false
  sat : Bool := false
  inf : Bool := false
  deriving DecidableEq, Repr

/-- A finite value or an infinity stored in a format that has infinities; beyond the largest finite value it saturates where `hold`. -/
def storeInf (f : FmtF) (hold : Bool) (v : Fp) : Stored :=
  let s := 2 ^ (f.width - 1) * b2n v.neg
  match v with
  | .nan => { code := f.top + 1, bad := true }
  | .inf _ => { code := s + f.top, inf := true }
  | .fin _ m e =>
    let k := f.round m e
    if k < f.top then { code := s + k }
    else if hold then { code := s + f.top - 1, sat := true }
    else { code := s + f.top, inf := true }

/-- A value stored as E4M3 (R308). -/
def storeE4 (hold : Bool) (v : Fp) : Stored :=
  let s := 128 * b2n v.neg
  let top : Stored := if hold then { code := s + 0x7E, sat := true } else { code := s + 0x7F, bad := true }
  match v with
  | .nan => { code := 0x7F, bad := true }
  | .inf _ => top
  | .fin _ m e => if e4m3.round m e < 0x7F then { code := s + e4m3.round m e } else top

/-- A finite magnitude in units of 2^e, rounded to nearest, ties to even. -/
def rneUnits (m : Nat) (k e : Int) : Nat :=
  if e ≤ k then m * 2 ^ (k - e).toNat else (rneShr m (e - k).toNat).toNat

/-- A value stored as INT8 (R305, R308). -/
def storeInt (v : Fp) : Stored :=
  match v with
  | .nan => { code := 0, bad := true }
  | .inf s => { code := if s then 128 else 127, sat := true }
  | .fin s m e =>
    let k := rneUnits m e 0
    if s then (if 128 < k then { code := 128, sat := true } else { code := usg 8 (-(k : Int)) })
    else if 127 < k then { code := 127, sat := true } else { code := k }

/-- A value stored in a destination type of 0 to 4. -/
def storeElem (t : Nat) (hold : Bool) (v : Fp) : Stored :=
  if t = 0 then storeInf fp32 false v else if t = 1 then storeInf bf16 false v else if t = 2 then storeE4 hold v
  else if t = 3 then storeInf e5m2 hold v else storeInt v

/-- The exponent that a block of finite values takes before it is limited (R131), for `n` magnitude bits; `m` and `k` are the
largest magnitude. -/
def blkExp (n m : Nat) (k : Int) : Int :=
  let e := k + bitLen m - n
  if rneUnits m k e ≤ 2 ^ n - 1 then e else e + 1

/-- A block of finite values converted to a format (R131). -/
def toBlk (n : Nat) (vs : List Fp) : Blk :=
  let mags := vs.map (fun v => match v with
    | .fin s m k => (s, m, k)
    | _ => (false, 0, 0))
  if mags.all (fun x => x.2.1 == 0) then Blk.zero false
  else
    let e0 := (mags.filter (fun x => x.2.1 != 0)).foldl (fun a x => max a (blkExp n x.2.1 x.2.2)) (-200)
    let e := clampI (-127) 127 e0
    Blk.norm ⟨some e, mags.map (fun x => let q : Int := min (rneUnits x.2.1 x.2.2 e) (2 ^ n - 1)
                                         if x.1 then -q else q), decide (127 < e0)⟩

/-- The value bytes of a block in a format (R129, R130). -/
def blkBytes (f : Nat) (b : Blk) : List Byte :=
  let n := fmtM f + 1
  toLe (4 * n) ((b.q.zipIdx).foldl (fun v x => v + (x.1.natAbs + 2 ^ (n - 1) * b2n (decide (x.1 < 0))) * 2 ^ (n * x.2)) 0)

/-- The bytes of a segment image (R130). -/
def segImage (f : Nat) (bs : List Blk) : List Byte :=
  let bs := (bs ++ List.replicate (32 - bs.length) (Blk.zero false)).take 32
  let img := bs.map (fun b => match b.exp with
    | some e => BitVec.ofNat 8 (usg 8 e)
    | none => 0x80) ++ bs.flatMap (blkBytes f)
  img ++ List.replicate (segBytes f - img.length) 0

/-- A result element: its value, and 0 clean, 1 derived from a poisoned input, 2 poisoned under R141. -/
abbrev Res := Fp × Nat

/-- A list in parts of `n`; `k` bounds the parts. -/
def chunks {α : Type} (n : Nat) : Nat → List α → List (List α)
  | 0, _ => []
  | k + 1, l => if l.isEmpty then [] else l.take n :: chunks n k (l.drop n)

/-- What a destination write makes: the bytes, the granules (counted from DST) poisoned under R308, because of a poisoned
input, and under R141, and the counts. -/
structure Dest where
  bytes : List Byte
  nan : List Nat := []
  prop : List Nat := []
  ovf : List Nat := []
  sat : Nat := 0
  inf : Nat := 0
  clamp : Nat := 0
  /-- the bytes from DST on that hold the exponents of blocks stored with entry_clamp (R132) -/
  clampAt : List Nat := []
  deriving DecidableEq, Repr

/-- The destination of types 0 to 4. -/
def plainDest (t : Nat) (hold : Bool) (rs : List Res) : Dest :=
  let st := rs.map (fun r => (storeElem t hold r.1, r.2))
  let g := fun (p : Stored × Nat → Bool) => ((st.zipIdx.filter (fun x => p x.1)).map (fun x => x.2 * elemSize t / 64)).eraseDups
  { bytes := st.flatMap (fun x => toLe (elemSize t) x.1.code), nan := g (fun x => x.1.bad), prop := g (fun x => x.2 == 1),
    ovf := g (fun x => x.2 == 2), sat := (st.filter (fun x => x.1.sat)).length, inf := (st.filter (fun x => x.1.inf)).length }

/-- A value that a B-format cannot hold. -/
def Fp.unfit : Fp → Bool
  | .fin _ _ _ => false
  | _ => true

/-- One segment image of a B-format destination, at granule `g0` from DST. -/
def segDest (f g0 : Nat) (rs : List Res) : Dest :=
  let n := fmtM f + 1
  let cs := chunks 32 32 rs
  let bad := cs.map (fun b => b.any (fun r => r.1.unfit))
  let bs := cs.map (fun b => if b.any (fun r => r.1.unfit) then Blk.zero false else toBlk (fmtM f) (b.map (·.1)))
  let all := (List.range (segBytes f / 64)).map (g0 + ·)
  { bytes := segImage f bs
    nan := ((bad.zipIdx.filter (·.1)).flatMap (fun x =>
      (List.range (granSpan (32 + 4 * n * x.2) (4 * n))).map (fun i => g0 + (32 + 4 * n * x.2) / 64 + i))).eraseDups
    prop := if rs.any (fun r => r.2 == 1) then all else []
    ovf := if rs.any (fun r => r.2 == 2) then all else []
    clamp := (bs.filter (·.clamp)).length
    clampAt := ((bs.zipIdx.filter (fun x => x.1.clamp)).map (fun x => 64 * g0 + x.2)) }

/-- Two parts of a destination, one after the other. -/
def Dest.join (a b : Dest) : Dest :=
  ⟨a.bytes ++ b.bytes, a.nan ++ b.nan, a.prop ++ b.prop, a.ovf ++ b.ovf, a.sat + b.sat, a.inf + b.inf, a.clamp + b.clamp, a.clampAt ++ b.clampAt⟩

/-- The destination of a list of rows in a type. -/
def rowsDest (t : Nat) (hold : Bool) (rows : List (List Res)) : Dest :=
  if 8 ≤ t then
    ((rows.flatMap (fun r => chunks 1024 2048 r)).zipIdx).foldl (fun d x =>
      d.join (segDest (t - 8) (x.2 * (segBytes (t - 8) / 64)) x.1)) { bytes := [] }
  else plainDest t hold rows.flatten

/-- Notes the blocks stored with entry_clamp set, by the bytes of their exponents from a Loft address on (R132). -/
def State.markClamped (s : State) (c a : Nat) (offs : List Nat) : State :=
  if offs.isEmpty then s
  else s.updMem (fun m => { m with loftClamp := (offs.filter (fun i => decide (a + i < 8388608))).foldl (fun l i =>
    Marks.put l (c * 8388608 + a + i) true) m.loftClamp })

/-- Writes a destination at a Loft granule, with its poison, counters and deferred errors (R308, R330). -/
def State.putDest (s : State) (c g req : Nat) (d : Dest) : State :=
  let s := (s.putBytes c (64 * g) d.bytes).markClamped c (64 * g) d.clampAt
  let s := (d.nan ++ d.prop ++ d.ovf).foldl (fun s i => if g + i < 131072 then s.poisonLoft c (g + i) true else s) s
  let s := ((s.bump R.vec_NAN_POISON d.nan.length c).bump R.vec_POISON_PROP d.prop.length c).bump R.vec_FP8_SAT d.sat c
  let s := (s.bump R.vec_INF_OUT d.inf c).bump R.fmt_ENTRY_CLAMP d.clamp c
  d.nan.foldl (fun s i => s.logCore 2 0x06 0 c req 0 (64 * (g + i))) s

/-! ### The shared body (R311) -/

/-- FUNC. -/
def vFunc (cmd : Cmd) : Nat := cmd.fld 143 5
/-- Elements of a row. -/
def vElems (cmd : Cmd) : Nat := 32 * (cmd.fld 148 16 + 1)
/-- Rows. -/
def vRows (cmd : Cmd) : Nat := cmd.fld 164 12 + 1
/-- REQ. -/
def vReq (cmd : Cmd) : Nat := cmd.fld 184 16
/-- Rows of the destination: one for VPSIN with SUM. -/
def vRowsOut (cmd : Cmd) : Nat := if cmd.opcode = 0x60 ∧ (vFunc cmd).testBit 2 then 1 else vRows cmd
/-- Byte addresses of A, B and DST. -/
def vA (cmd : Cmd) : Nat := 64 * cmd.fld 80 17
/-- Byte address of B. -/
def vB (cmd : Cmd) : Nat := 64 * cmd.fld 97 17
/-- Byte address of DST. -/
def vDst (cmd : Cmd) : Nat := 64 * cmd.fld 114 17
/-- IMM as a value. -/
def vImm (cmd : Cmd) : Fp := Fp.ofBits (cmd.fld 200 32)

/-- The destination type as written: a B-format follows the promotion state of (REQ, PCLASS) (R154, R314). -/
def State.vDt (s : State) (cmd : Cmd) : Nat :=
  let t := cmd.fld 139 4
  if 8 ≤ t ∧ t ≤ 12 then 8 + promFmt (t - 8) (s.promo (vReq cmd) (cmd.fld 176 6)) else t

/-- An operand as a byte range and what R313 compares: the element size, or 16 with a B-format. -/
structure Opnd where
  addr : Nat
  len : Nat
  key : Nat
  deriving DecidableEq, Repr

/-- What R313 compares of a type. -/
def typeKey (t : Nat) : Nat := if 8 ≤ t then 16 + t else elemSize t

/-- The operands that a command of the shared body reads (R312, R315, R318). -/
def vOpnds (cmd : Cmd) : List Opnd :=
  let e := vElems cmd
  let rows := vRows cmd
  let at_ := cmd.fld 131 4
  let a : Opnd := ⟨vA cmd, typeBytes at_ rows e, typeKey at_⟩
  if cmd.opcode = 0x60 then
    [⟨vA cmd, rows * (64 + 4 * e), 99⟩, ⟨vB cmd, 2 * e, 2⟩] ++
      (if (vFunc cmd).testBit 0 then [⟨64 * (cmd.fld 200 17), 2 * e, 2⟩] else [])
  else if cmd.opcode = 0x62 then [a, ⟨vB cmd, typeBytes (cmd.fld 135 4) rows e, typeKey (cmd.fld 135 4)⟩]
  else if cmd.opcode = 0x63 then [a, ⟨vB cmd, if vFunc cmd = 1 then 4 * e else 2 * e, 2⟩]
  else [a]

/-- The number of functions that an opcode lists; VSMAX lists none and takes 0 (log entry 22). -/
def vFuncs (op : Nat) : Nat := [8, 14, 7, 2, 1].getD (op - 0x60) 0

/-- The code under which a command of the shared body is refused (R312, R313, R315), the lowest that applies (log entry 12);
0 where it runs. -/
def State.vCode (s : State) (cmd : Cmd) : Nat :=
  let op := cmd.opcode
  let at_ := cmd.fld 131 4
  let dt := s.vDt cmd
  let dst : Opnd := ⟨vDst cmd, typeBytes dt (vRowsOut cmd) (vElems cmd), typeKey dt⟩
  if (if op = 0x60 then at_ != 5 else !typeOk at_) || !typeOk (cmd.fld 135 4) || !typeOk dt then 0x21
  else if vFuncs op ≤ vFunc cmd ∨ (op = 0x60 ∧ (vFunc cmd).testBit 1 ∧ dt ≠ 0) then 0x22
  else if (dst :: vOpnds cmd).any (fun o => decide (8388608 < o.addr + o.len)) then 0x23
  else if (vOpnds cmd).any (fun o => decide (o.addr < dst.addr + dst.len) && decide (dst.addr < o.addr + o.len) && o != dst) then 0x24
  else if op = 0x60 ∧ 31 < cmd.fld 148 16 then 0x26
  else 0

/-- The granules of a byte range, as far as the Loft reaches. -/
def byteRun (a n : Nat) : Run := (a / 64, granSpan a (min n (8388608 - a)))

/-- The granules that a command of the shared body reads before it computes (R312, R315). -/
def vReads (cmd : Cmd) : List Run := (vOpnds cmd).map (fun o => byteRun o.addr o.len)

/-- The granules that it writes. -/
def State.vWrites (s : State) (cmd : Cmd) : Run := byteRun (vDst cmd) (typeBytes (s.vDt cmd) (vRowsOut cmd) (vElems cmd))

/-- The state in which a command of the shared body has read its operands, the destination among them where it accumulates (R281). -/
def State.vRead (s : State) (c : Nat) (cmd : Cmd) : State :=
  (vReads cmd ++ if cmd.opcode == 0x60 && (vFunc cmd).testBit 1 then [s.vWrites cmd] else []).foldl (fun s r => s.eccLoftN c r.1 r.2) s

/-- The cycles of a command of the shared body (R309, R310). -/
def State.vCycles (s : State) (cmd : Cmd) : Nat :=
  let n := vRows cmd * vElems cmd
  let f := vFunc cmd
  let fast := ceilDiv n 256
  let slow := ceilDiv n 64
  let op := cmd.opcode
  24 + (if op = 0x60 then fast
        else if op = 0x61 then (if 2 ≤ f ∧ f ≤ 11 then slow else fast)
        else if op = 0x62 then (if f = 5 ∨ f = 6 then slow else fast)
        else if op = 0x63 then 2 * fast + ceilDiv (vRows cmd) 64
        else fast + slow + slow) +
    (if 8 ≤ s.vDt cmd then ceilDiv (vRowsOut cmd * vElems cmd) 256 else 0)

/-- A refused command (R330): its destination inside the Loft is poisoned, it is recorded, and it retires. -/
def State.vRefuse (s : State) (c code req : Nat) (cmd : Cmd) (dst : List Run) : State :=
  let s := dst.foldl (fun s r => (List.range r.2).foldl (fun s i =>
    if r.1 + i < 131072 then s.poisonLoft c (r.1 + i) true else s) s) s
  let s := ((s.wr R.vec_ERR_CODE code c).wr R.vec_ERR_OP cmd.opcode c).wr R.vec_ERR_VALID 1 c
  (((s.bump R.vec_V_CMDERR 1 c).bump R.vec_V_BUSY_CYC 24 c).logCore 2 0x06 code c req).retire c .vector cmd

/-- A command of the shared body: its hazards, its checks, its operands' errors, and then its rows, formed by `rows` from the state as
read; poison read fails the request (R632). -/
def State.vRun (s : State) (c : Nat) (cmd : Cmd) (rows : State → List (List Res)) : State :=
  let dt := s.vDt cmd
  let wr := s.vWrites cmd
  let req := vReq cmd
  s.guarded c .vector cmd (vReads cmd) [wr] (fun s =>
    let s := s.serve c req
    let code := s.vCode cmd
    if code != 0 then s.vRefuse c code req cmd [wr]
    else
      let rd := vReads cmd ++ if cmd.opcode == 0x60 && (vFunc cmd).testBit 1 then [wr] else []
      let s := s.vRead c cmd
      let bad := rd.find? (fun r => s.anyBad c r.1 r.2)
      let d := rowsDest dt (cmd.fld 182 1 == 1) (rows s)
      let cyc := s.vCycles cmd
      let s := match bad with
        | some r => s.consumePoison c req 0x06 0 (64 * r.1)
        | none => s
      let s := if 8 ≤ dt then s.useClass c req (cmd.fld 176 6) else s
      ((s.putDest c (cmd.fld 114 17) req d).bump R.vec_V_BUSY_CYC cyc c).retire c .vector cmd)

/-- A mark for an element. -/
def mark (b : Bool) : Nat := if b then 1 else 0

/-! ### VACT and VEW -/

/-- The VACT functions (R311). -/
def actFn (f : Nat) (imm a : Fp) : Fp :=
  match f with
  | 0 => a
  | 1 => a.max .zero
  | 2 => a.silu
  | 3 => a.gelu
  | 4 => a.sigmoid
  | 5 => a.tanh
  | 6 => a.exp
  | 7 => a.exp2
  | 8 => a.ln
  | 9 => a.recip
  | 10 => a.rsqrt
  | 11 => a.sqrtS
  | 12 => a.mul imm
  | _ => a.add imm

/-- The VEW functions (R311). -/
def ewFn (f : Nat) (a b : Fp) : Fp :=
  match f with
  | 0 => a.add b
  | 1 => a.sub b
  | 2 => a.mul b
  | 3 => a.max b
  | 4 => a.min b
  | 5 => a.silu.mul b
  | _ => a.gelu.mul b

/-- The rows of a VACT. -/
def State.vactRows (s : State) (c : Nat) (cmd : Cmd) : List (List Res) :=
  (List.range (vRows cmd)).map (fun r => (s.rowElems c (vA cmd) (cmd.fld 131 4) (vElems cmd) r).map (fun x =>
    (actFn (vFunc cmd) (vImm cmd) x.1, mark x.2)))

/-- VACT (R311). -/
def execVact (core : BitVec 9) (cmd : Cmd) (s : State) : Out :=
  let c := core.toNat
  .next (s.engRun c .vector cmd (fun s => s.vRun c cmd (fun s => s.vactRows c cmd)))

/-- The rows of a VEW. -/
def State.vewRows (s : State) (c : Nat) (cmd : Cmd) : List (List Res) :=
  (List.range (vRows cmd)).map (fun r =>
    List.zipWith (fun x y => (ewFn (vFunc cmd) x.1 y.1, mark (x.2 || y.2)))
      (s.rowElems c (vA cmd) (cmd.fld 131 4) (vElems cmd) r)
      (s.rowElems c (vB cmd) (cmd.fld 135 4) (vElems cmd) r))

/-- VEW (R311). -/
def execVew (core : BitVec 9) (cmd : Cmd) (s : State) : Out :=
  let c := core.toNat
  .next (s.engRun c .vector cmd (fun s => s.vRun c cmd (fun s => s.vewRows c cmd)))

/-! ### VPSIN (R315 to R317) -/

/-- The slabs that VPSIN takes in. -/
def State.inSlabs (s : State) (c : Nat) (cmd : Cmd) : List (List PsGroup) :=
  let g := cmd.fld 148 16 + 1
  (List.range (vRows cmd)).map (fun r => s.readSlab c (cmd.fld 80 17 + r * (1 + 2 * g)) g)

/-- The slabs summed in ascending order, the running sum first, with the groups whose exponent overflowed (R140, R141, R315). DEDUCED:
R306 names this intake among its sums too; R315 gives its order and is followed (log entry 69). -/
def sumSlabs : List (List PsGroup) → List (PsGroup × Bool)
  | [] => []
  | x :: rest => rest.foldl (fun acc y => List.zipWith (fun a b =>
      let r := a.1.addR b
      (r.1, a.2 || r.1.overflowed)) acc y) (x.map (fun g => (g, false)))

/-- Column `i` of a group: fp32(v) times 2^GEXP (R316). -/
def PsGroup.col (g : PsGroup) (i : Nat) : Fp :=
  ((Fp.ofInt (g.vals.getD i 0)).r32.prod (.fin false 1 g.exp)).r32

/-- One row of VPSIN from a slab's groups: scale, bias and accumulate, each step rounded once (R316). -/
def psinRow (gs : List (PsGroup × Bool)) (bad : Bool) (sc : List Elem) (bias acc : Option (List Elem)) : List Res :=
  (gs.zipIdx).flatMap (fun g => (List.range 32).map (fun i =>
    let k := 32 * g.2 + i
    let sk := sc.getD k (.zero, false)
    let y := (g.1.1.col i).mul sk.1
    let bk := (bias.getD []).getD k (.zero, false)
    let y := if bias.isSome then y.add bk.1 else y
    let ak := (acc.getD []).getD k (.zero, false)
    let y := if acc.isSome then ak.1.add y else y
    (y, if bad || (!g.1.2 && g.1.1.bad.getD (i / 16) false) || sk.2 || bk.2 || ak.2 then 1 else if g.1.2 then 2 else 0)))

/-- The rows of a VPSIN. -/
def State.psinRows (s : State) (c : Nat) (cmd : Cmd) : List (List Res) :=
  let e := vElems cmd
  let f := vFunc cmd
  let slabs := s.inSlabs c cmd
  let sc := s.plainElems c (vB cmd) 1 e
  let bias := if f.testBit 0 then some (s.plainElems c (64 * cmd.fld 200 17) 1 e) else none
  let acc := fun r => if f.testBit 1 then some (s.plainElems c (vDst cmd + 4 * e * r) 0 e) else none
  if f.testBit 2 then
    let bad := slabs.any (fun x => x.any (fun g => g.bad.any id)) || (sc ++ bias.getD [] ++ (acc 0).getD []).any (·.2)
    [psinRow (sumSlabs slabs) bad sc bias (acc 0)]
  else (slabs.zipIdx).map (fun x => psinRow (x.1.map (fun g => (g, false))) false sc bias (acc x.2))

/-- A sum of R140 whose exponent overflowed logs a deferred error and counts in RENORM_OVF (R141). -/
def State.psinOverflow (s : State) (c : Nat) (cmd : Cmd) : State :=
  let n := if (vFunc cmd).testBit 2 then ((sumSlabs (s.inSlabs c cmd)).filter (·.2)).length else 0
  if n = 0 then s else (s.bump R.fmt_RENORM_OVF n c).logCore 2 0x06 0 c (vReq cmd)

/-- A consumed group with CLIPPED marks the request clipped (R142, R317). -/
def State.psinClip (s : State) (c : Nat) (cmd : Cmd) : State :=
  if (s.inSlabs c cmd).any (fun x => x.any (fun g => g.flag.testBit 0)) then
    (s.bump R.vec_CLIP_MARK 1 c).markClipped c (vReq cmd)
  else s

/-- VPSIN (R315). -/
def execVpsin (core : BitVec 9) (cmd : Cmd) (s : State) : Out :=
  let c := core.toNat
  .next (s.engRun c .vector cmd (fun s =>
    let s' := if s.vCode cmd = 0 ∧ (s.findHazard c .vector (vReads cmd) [s.vWrites cmd]).isNone then
      (s.psinClip c cmd).psinOverflow c cmd else s
    s'.vRun c cmd (fun s => s.psinRows c cmd)))

/-! ### VNORM and VSMAX (R318, R319) -/

/-- A row normalised. Sums of squares are fused into their accumulators; s times 1/E plus ε, and the product with γ plus β, are
multiply-adds and so are rounded once (R305). -/
def normRow (layer : Bool) (e : Nat) (eps : Fp) (xs gam bet : List Fp) : List Fp :=
  let inv := Fp.one.div (Fp.ofInt e)
  let xs := if layer then
      let mu := (fpSum xs).mul inv
      xs.map (fun x => x.sub mu)
    else xs
  let r := ((dotSum (xs.map (fun x => (x, x)))).fma inv eps).rsqrt
  (xs.zipIdx).map (fun x =>
    let t := x.1.mul r
    let g := gam.getD x.2 .zero
    if layer then t.fma g (bet.getD x.2 .zero) else t.mul g)

/-- The rows of a VNORM. -/
def State.vnormRows (s : State) (c : Nat) (cmd : Cmd) : List (List Res) :=
  let e := vElems cmd
  let layer := vFunc cmd == 1
  let gam := s.plainElems c (vB cmd) 1 e
  let bet := if layer then s.plainElems c (vB cmd + 2 * e) 1 e else []
  let gb := gam.any (·.2) || bet.any (·.2)
  (List.range (vRows cmd)).map (fun r =>
    let xs := s.rowElems c (vA cmd) (cmd.fld 131 4) e r
    let bad := mark (gb || xs.any (·.2))
    (normRow layer e (vImm cmd) (xs.map (·.1)) (gam.map (·.1)) (bet.map (·.1))).map (fun y => (y, bad)))

/-- VNORM (R318). -/
def execVnorm (core : BitVec 9) (cmd : Cmd) (s : State) : Out :=
  let c := core.toNat
  .next (s.engRun c .vector cmd (fun s => s.vRun c cmd (fun s => s.vnormRows c cmd)))

/-- The maximum of a list of values. -/
def fpMax (xs : List Fp) : Fp := xs.foldl Fp.max (.inf true)

/-- The softmax of a row: not a number throughout where a value is none or the maximum is +∞ (R319). -/
def smaxRow (xs : List Fp) : List Fp :=
  let m := fpMax xs
  if m = .nan ∨ m = .inf false then xs.map (fun _ => .nan)
  else
    let ex := xs.map (fun x => if x = .inf true then Fp.zero else (x.sub m).exp)
    let t := fpSum ex
    List.zipWith (fun x y => if x = .inf true then Fp.zero else y.div t) xs ex

/-- The rows of a VSMAX. -/
def State.vsmaxRows (s : State) (c : Nat) (cmd : Cmd) : List (List Res) :=
  (List.range (vRows cmd)).map (fun r =>
    let xs := s.rowElems c (vA cmd) (cmd.fld 131 4) (vElems cmd) r
    let bad := mark (xs.any (·.2))
    (smaxRow (xs.map (·.1))).map (fun y => (y, bad)))

/-- VSMAX (R319). -/
def execVsmax (core : BitVec 9) (cmd : Cmd) (s : State) : Out :=
  let c := core.toNat
  .next (s.engRun c .vector cmd (fun s => s.vRun c cmd (fun s => s.vsmaxRows c cmd)))

/-! ### VATTN (R321 to R326) -/

/-- A VATTN command's fields. -/
structure Attn where
  qt : Nat
  kvt : Nat
  ot : Nat
  d : Nat
  q : Nat
  g : Nat
  ks : Nat
  vs : Nat
  qs : Nat
  qa : Nat
  ka : Nat
  va : Nat
  oa : Nat
  la : Nat
  scale : Fp
  deriving DecidableEq, Repr

/-- Reads the body of a VATTN (R321). -/
def attnOf (cmd : Cmd) : Attn where
  qt := cmd.fld 165 4
  kvt := cmd.fld 169 4
  ot := cmd.fld 173 4
  d := 64 * 2 ^ cmd.fld 177 2
  q := cmd.fld 179 4 + 1
  g := cmd.fld 183 4 + 1
  ks := cmd.fld 188 12
  vs := cmd.fld 200 12
  qs := cmd.fld 212 12
  qa := cmd.fld 80 17
  ka := cmd.fld 97 17
  va := cmd.fld 114 17
  oa := cmd.fld 131 17
  la := cmd.fld 148 17
  scale := bf16.decode (cmd.fld 224 16)

/-- Granules of a query row. -/
def Attn.qGran (t : Attn) : Nat := t.d * elemSize t.qt / 64
/-- Granules of an output row; an unassigned type is laid out as FP32 (log entry 21). -/
def Attn.oGran (t : Attn) : Nat := t.d * elemSize t.ot / 64
/-- Granules of a key or value row (R322). -/
def Attn.kGran (t : Attn) : Nat := if t.kvt = 12 then ceilDiv (t.d / 32 + t.d) 64 else t.d / 64
/-- Output row (i, g). -/
def Attn.oRun (t : Attn) (i g : Nat) : Run := (t.oa + (i * t.g + g) * t.qs, t.oGran)
/-- Query row (i, g). -/
def Attn.qRun (t : Attn) (i g : Nat) : Run := (t.qa + (i * t.g + g) * t.qs, t.qGran)
/-- Key row j. -/
def Attn.kRun (t : Attn) (j : Nat) : Run := (t.ka + j * t.ks, t.kGran)
/-- Value row j. -/
def Attn.vRun (t : Attn) (j : Nat) : Run := (t.va + j * t.vs, t.kGran)

/-- The (i, g) pairs of a VATTN. -/
def Attn.pairs (t : Attn) : List (Nat × Nat) :=
  (List.range t.q).flatMap (fun i => (List.range t.g).map (fun g => (i, g)))

/-- All output rows. -/
def Attn.outs (t : Attn) : List Run := t.pairs.map (fun x => t.oRun x.1 x.2)
/-- All query rows. -/
def Attn.queries (t : Attn) : List Run := t.pairs.map (fun x => t.qRun x.1 x.2)

/-- A run lies in the Loft. -/
def Run.inLoft (r : Run) : Bool := decide (r.1 + r.2 ≤ 131072)

/-- The key rows that lie in the Loft at most: no more are ever needed before code 0x23. -/
def Attn.keys (t : Attn) (l : Nat) : List Nat := List.range (min (l + t.q) 131073)

/-- The code under which a VATTN is refused, the lowest that applies but for DH = 3, which gives the rows no size (log entry
12). -/
def Attn.code (t : Attn) (l : Nat) (lBad : Bool) : Nat :=
  let ks := if lBad then [] else t.keys l
  if 1 < t.qt ∨ 1 < t.ot ∨ ¬(t.kvt = 2 ∨ t.kvt = 3 ∨ t.kvt = 12) then 0x21
  else if t.d = 512 then 0x25
  else if (t.outs ++ t.queries).any (fun r => !r.inLoft) || ks.any (fun j => !(t.kRun j).inLoft || !(t.vRun j).inLoft) then 0x23
  else if !(t.oa == t.qa && t.ot == t.qt) && t.outs.any (fun o => t.queries.any (fun q => o.meets q)) ||
      t.outs.any (fun o => o.meets (t.la, 1) || ks.any (fun j => o.meets (t.kRun j) || o.meets (t.vRun j))) then 0x24
  else if t.qs < t.qGran ∨ t.qs < t.oGran ∨ t.ks < t.kGran ∨ t.vs < t.kGran then 0x25
  else 0

/-- A key or value row (R322). -/
def State.kvRowElems (s : State) (c : Nat) (t : Attn) (r : Run) : List Fp :=
  if t.kvt = 12 then
    (List.range t.d).map (fun i =>
      let e := s.loftLe c (64 * r.1 + i / 32) 1
      let v := s.loftLe c (64 * r.1 + t.d / 32 + i) 1
      if e = 0x80 then Fp.zero
      else let q := signMag 8 v
           (Fp.fin (decide (q < 0)) q.natAbs (sgn 8 e)).r32)
  else (s.plainElems c (64 * r.1) t.kvt t.d).map (·.1)

/-- The running maximum, weight and accumulators of a query row (R323). -/
structure AttnAcc where
  m : Fp
  l : Fp
  acc : List Fp
  deriving DecidableEq, Repr

/-- One chunk of 32 keys (R323): its scores and its value rows. -/
def attnChunk (a : AttnAcc) (ss : List Fp) (vs : List (List Fp)) : AttnAcc :=
  let mn := a.m.max (fpMax ss)
  let al := if a.m = .inf true then Fp.zero else (a.m.sub mn).exp
  let p := ss.map (fun x => if x = .inf true then Fp.zero else (x.sub mn).exp)
  { m := mn, l := a.l.fma al (fpSum p)
    acc := (a.acc.zipIdx).map (fun x => x.1.fma al (dotSum (List.zipWith (fun w v => (w, v.getD x.2 .zero)) p vs))) }

/-- One output row of attention: the chunks of keys that query i uses, in ascending order (R323, R324). -/
def State.attnRow (s : State) (c : Nat) (t : Attn) (l i g : Nat) : List Fp :=
  let q := (s.plainElems c (64 * (t.qRun i g).1) t.qt t.d).map (·.1)
  let n := ceilDiv (l + i + 1) 32
  let r := (List.range n).foldl (fun (a : AttnAcc) k =>
    let js := (List.range 32).map (32 * k + ·)
    let ss := js.map (fun j => if j ≤ l + i then t.scale.mul (dotSum (q.zip (s.kvRowElems c t (t.kRun j)))) else .inf true)
    let vs := js.map (fun j => if j ≤ l + i then s.kvRowElems c t (t.vRun j) else [])
    attnChunk a ss vs) ⟨.inf true, .zero, List.replicate t.d .zero⟩
  r.acc.map (fun x => x.div r.l)

/-- The cycles of a VATTN (R325). -/
def Attn.cycles (t : Attn) (l : Nat) : Nat :=
  let sc := t.g * sumN ((List.range t.q).map (fun i => 32 * ceilDiv (l + i + 1) 32))
  32 + ceilDiv (2 * t.d * sc) (if t.kvt = 12 then 512 else 1024) + ceilDiv sc 64 + ceilDiv (t.q * t.g * t.d) 256

/-- The body of a VATTN: rows in order, each read before its output is written (R321 to R326). -/
def State.attnBody (s : State) (c : Nat) (cmd : Cmd) (t : Attn) : State :=
  let l := s.loftLe c (64 * t.la) 4
  let lBad := s.loftBad c t.la
  let code := t.code l lBad
  if code != 0 then s.vRefuse c code 0xFFFF cmd t.outs
  else
    let rd := t.queries ++ (if lBad then [] else (t.keys l).flatMap (fun j => [t.kRun j, t.vRun j]))
    let s := rd.foldl (fun s r => s.eccLoftN c r.1 r.2) s
    let kvBad := fun i => (List.range (l + i + 1)).any (fun j =>
      s.anyBad c (t.kRun j).1 t.kGran || s.anyBad c (t.vRun j).1 t.kGran)
    let s := t.pairs.foldl (fun s x =>
      let bad := lBad || s.anyBad c (t.qRun x.1 x.2).1 t.qGran || kvBad x.1
      let row := if bad then List.replicate t.d (Fp.zero, 1) else (s.attnRow c t l x.1 x.2).map (fun y => (y, 0))
      s.putDest c (t.oRun x.1 x.2).1 0xFFFF (plainDest t.ot false row)) s
    (s.bump R.vec_V_BUSY_CYC (t.cycles l) c).retire c .vector cmd

/-- VATTN (R321). -/
def execVattn (core : BitVec 9) (cmd : Cmd) (s : State) : Out :=
  let c := core.toNat
  let t := attnOf cmd
  .next (s.engRun c .vector cmd (fun s =>
    let l := s.loftLe c (64 * t.la) 4
    s.guarded c .vector cmd ((t.la, 1) :: t.queries ++ (t.keys l).flatMap (fun j => [t.kRun j, t.vRun j])) t.outs
      (fun s => (s.eccLoft c t.la).attnBody c cmd t)))

end Sys2Proof.Machine
end

