-- ==== Sys2Proof/Machine/Dispatch.lean ====
section
/-! DEFINITION. The dispatcher: one arm per command, one direct call of its meaning. -/

namespace Sys2Proof.Machine

def exec (i : Instr) (s : State) : Host.Outcome State Fault Refusal :=
  match i with
  | .tickEdge => Sys2Proof.Machine.execTickEdge s
  | .frameCut => Sys2Proof.Machine.execFrameCut s
  | .frameComplete p => Sys2Proof.Machine.execFrameComplete p s
  | .fdone p member seq => Sys2Proof.Machine.execFdone p member seq s
  | .publishCheck => Sys2Proof.Machine.execPublishCheck s
  | .publish p edge => Sys2Proof.Machine.execPublish p edge s
  | .frameWatchdog p => Sys2Proof.Machine.execFrameWatchdog p s
  | .tick port num period elapsed phase => Sys2Proof.Machine.execTick port num period elapsed phase s
  | .fieldTick port num period elapsed phase => Sys2Proof.Machine.execFieldTick port num period elapsed phase s
  | .upstreamSwitch => Sys2Proof.Machine.execUpstreamSwitch s
  | .holdoverEntry => Sys2Proof.Machine.execHoldoverEntry s
  | .holdoverTimeout => Sys2Proof.Machine.execHoldoverTimeout s
  | .holdoverRealign port num => Sys2Proof.Machine.execHoldoverRealign port num s
  | .periodArm => Sys2Proof.Machine.execPeriodArm s
  | .periodChangeApply => Sys2Proof.Machine.execPeriodChangeApply s
  | .firstTick mark => Sys2Proof.Machine.execFirstTick mark s
  | .mprod core cmd => Sys2Proof.Machine.execMprod core cmd s
  | .mframe core cmd => Sys2Proof.Machine.execMframe core cmd s
  | .grantAdmit holder cycles => Sys2Proof.Machine.execGrantAdmit holder cycles s
  | .productDecide core id => Sys2Proof.Machine.execProductDecide core id s
  | .fallbackRepeat core id => Sys2Proof.Machine.execFallbackRepeat core id s
  | .slabWrite core => Sys2Proof.Machine.execSlabWrite core s
  | .refProduct core id => Sys2Proof.Machine.execRefProduct core id s
  | .flipSwitchEnd core => Sys2Proof.Machine.execFlipSwitchEnd core s
  | .defectActive core array cols driver table => Sys2Proof.Machine.execDefectActive core array cols driver table s
  | .repairDone core done => Sys2Proof.Machine.execRepairDone core done s
  | .marginSample core array bank reads => Sys2Proof.Machine.execMarginSample core array bank reads s
  | .autoRefresh core array => Sys2Proof.Machine.execAutoRefresh core array s
  | .wprog core cmd => Sys2Proof.Machine.execWprog core cmd s
  | .wadopt core cmd => Sys2Proof.Machine.execWadopt core cmd s
  | .wflip core cmd => Sys2Proof.Machine.execWflip core cmd s
  | .wrefr core cmd => Sys2Proof.Machine.execWrefr core cmd s
  | .werase core cmd => Sys2Proof.Machine.execWerase core cmd s
  | .wverify core cmd => Sys2Proof.Machine.execWverify core cmd s
  | .passStart core id => Sys2Proof.Machine.execPassStart core id s
  | .passEnd core id found => Sys2Proof.Machine.execPassEnd core id found s
  | .calForce core => Sys2Proof.Machine.execCalForce core s
  | .calAgeExpiry core => Sys2Proof.Machine.execCalAgeExpiry core s
  | .calRunStart core => Sys2Proof.Machine.execCalRunStart core s
  | .calRunEnd core found => Sys2Proof.Machine.execCalRunEnd core found s
  | .calWriteback => Sys2Proof.Machine.execCalWriteback s
  | .flashWriteDone => Sys2Proof.Machine.execFlashWriteDone s
  | .nop core e cmd => Sys2Proof.Machine.execNop core e cmd s
  | .eofr core e cmd => Sys2Proof.Machine.execEofr core e cmd s
  | .jump core e cmd => Sys2Proof.Machine.execJump core e cmd s
  | .qwait core e cmd => Sys2Proof.Machine.execQwait core e cmd s
  | .unknownOpcode core e cmd => Sys2Proof.Machine.execUnknownOpcode core e cmd s
  | .fetch core cmd => Sys2Proof.Machine.execFetch core cmd s
  | .store core cmd => Sys2Proof.Machine.execStore core cmd s
  | .lcopy core cmd => Sys2Proof.Machine.execLcopy core cmd s
  | .fetchComplete core q => Sys2Proof.Machine.execFetchComplete core q s
  | .storeRead core q => Sys2Proof.Machine.execStoreRead core q s
  | .storeDone core q => Sys2Proof.Machine.execStoreDone core q s
  | .patrolScrub core found => Sys2Proof.Machine.execPatrolScrub core found s
  | .tallyWrite fn core t value => Sys2Proof.Machine.execTallyWrite fn core t value s
  | .vpsin core cmd => Sys2Proof.Machine.execVpsin core cmd s
  | .vact core cmd => Sys2Proof.Machine.execVact core cmd s
  | .vew core cmd => Sys2Proof.Machine.execVew core cmd s
  | .vnorm core cmd => Sys2Proof.Machine.execVnorm core cmd s
  | .vsmax core cmd => Sys2Proof.Machine.execVsmax core cmd s
  | .vattn core cmd => Sys2Proof.Machine.execVattn core cmd s
  | .rsend core cmd => Sys2Proof.Machine.execRsend core cmd s
  | .redFold router circ intact => Sys2Proof.Machine.execRedFold router circ intact s
  | .redDeliver circ held => Sys2Proof.Machine.execRedDeliver circ held s
  | .msend core cmd => Sys2Proof.Machine.execMsend core cmd s
  | .mcAck core q target => Sys2Proof.Machine.execMcAck core q target s
  | .mcComplete core q => Sys2Proof.Machine.execMcComplete core q s
  | .poisonNote router core q hit gran correctable => Sys2Proof.Machine.execPoisonNote router core q hit gran correctable s
  | .nodeWrite addr value => Sys2Proof.Machine.execNodeWrite addr value s
  | .openCmd fn req addr => Sys2Proof.Machine.execOpenCmd fn req addr s
  | .openDone req => Sys2Proof.Machine.execOpenDone req s
  | .close fn req => Sys2Proof.Machine.execClose fn req s
  | .parkCmd fn req => Sys2Proof.Machine.execParkCmd fn req s
  | .resume fn req => Sys2Proof.Machine.execResume fn req s
  | .setTtl fn req seconds => Sys2Proof.Machine.execSetTtl fn req seconds s
  | .pin fn req pinned => Sys2Proof.Machine.execPin fn req pinned s
  | .idleDeadline req => Sys2Proof.Machine.execIdleDeadline req s
  | .ttlDeadline req => Sys2Proof.Machine.execTtlDeadline req s
  | .tierPageMove req => Sys2Proof.Machine.execTierPageMove req s
  | .parkDone req => Sys2Proof.Machine.execParkDone req s
  | .parkAbort req => Sys2Proof.Machine.execParkAbort req s
  | .returnStart req => Sys2Proof.Machine.execReturnStart req s
  | .returnDone req => Sys2Proof.Machine.execReturnDone req s
  | .returnFail req => Sys2Proof.Machine.execReturnFail req s
  | .poolPressure p => Sys2Proof.Machine.execPoolPressure p s
  | .siloCountWrite p value => Sys2Proof.Machine.execSiloCountWrite p value s
  | .rqSel sel => Sys2Proof.Machine.execRqSel sel s
  | .wsSel core sel => Sys2Proof.Machine.execWsSel core sel s
  | .wdraw core cmd => Sys2Proof.Machine.execWdraw core cmd s
  | .wdrawSlice core q => Sys2Proof.Machine.execWdrawSlice core q s
  | .drawStart => Sys2Proof.Machine.execDrawStart s
  | .drawDone slot => Sys2Proof.Machine.execDrawDone slot s
  | .verifyDecide p req => Sys2Proof.Machine.execVerifyDecide p req s
  | .hbmScrub stack found odecc => Sys2Proof.Machine.execHbmScrub stack found odecc s
  | .hbmRefresh stack => Sys2Proof.Machine.execHbmRefresh stack s
  | .hbmTempRead stack reading => Sys2Proof.Machine.execHbmTempRead stack reading s
  | .hbmInterfaceFail stack => Sys2Proof.Machine.execHbmInterfaceFail stack s
  | .bar2Read addr len => Sys2Proof.Machine.execBar2Read addr len s
  | .bar2Write addr data poisoned => Sys2Proof.Machine.execBar2Write addr data poisoned s
  | .bar2MapWrite seg value => Sys2Proof.Machine.execBar2MapWrite seg value s
  | .bar2Resize n decode => Sys2Proof.Machine.execBar2Resize n decode s
  | .portEnable port en => Sys2Proof.Machine.execPortEnable port en s
  | .retrain port => Sys2Proof.Machine.execRetrain port s
  | .partnerTrain port full => Sys2Proof.Machine.execPartnerTrain port full s
  | .trainDone port found => Sys2Proof.Machine.execTrainDone port found s
  | .trainFail port code => Sys2Proof.Machine.execTrainFail port code s
  | .trainRetry port => Sys2Proof.Machine.execTrainRetry port s
  | .quickTrain port cause => Sys2Proof.Machine.execQuickTrain port cause s
  | .timingExchange port delay => Sys2Proof.Machine.execTimingExchange port delay s
  | .flitTx port => Sys2Proof.Machine.execFlitTx port s
  | .flitRx port u cwGood crcGood fec => Sys2Proof.Machine.execFlitRx port u cwGood crcGood fec s
  | .replayTimeout port => Sys2Proof.Machine.execReplayTimeout port s
  | .portFail port => Sys2Proof.Machine.execPortFail port s
  | .wwrite m => Sys2Proof.Machine.execWwrite m s
  | .wack m => Sys2Proof.Machine.execWack m s
  | .cgrant m => Sys2Proof.Machine.execCgrant m s
  | .radd m => Sys2Proof.Machine.execRadd m s
  | .snap port m => Sys2Proof.Machine.execSnap port m s
  | .poison m => Sys2Proof.Machine.execPoison m s
  | .cset m => Sys2Proof.Machine.execCset m s
  | .csetAck m => Sys2Proof.Machine.execCsetAck m s
  | .commit m => Sys2Proof.Machine.execCommit m s
  | .noteAck m => Sys2Proof.Machine.execNoteAck m s
  | .mgmt m taken => Sys2Proof.Machine.execMgmt m taken s
  | .wopen core cmd => Sys2Proof.Machine.execWopen core cmd s
  | .wclose core cmd => Sys2Proof.Machine.execWclose core cmd s
  | .wsend core cmd => Sys2Proof.Machine.execWsend core cmd s
  | .swEn port peer en => Sys2Proof.Machine.execSwEn port peer en s
  | .keyLoad port => Sys2Proof.Machine.execKeyLoad port s
  | .hcGo fn p => Sys2Proof.Machine.execHcGo fn p s
  | .hostCopyDone p => Sys2Proof.Machine.execHostCopyDone p s
  | .sqEn fn p ring en => Sys2Proof.Machine.execSqEn fn p ring en s
  | .msixUnmask fn v => Sys2Proof.Machine.execMsixUnmask fn v s
  | .flr vf => Sys2Proof.Machine.execFlr vf s
  | .hostLinkDown => Sys2Proof.Machine.execHostLinkDown s
  | .hostLinkUp gen width flit => Sys2Proof.Machine.execHostLinkUp gen width flit s
  | .ideFail stream => Sys2Proof.Machine.execIdeFail stream s
  | .spdmRequest req secured => Sys2Proof.Machine.execSpdmRequest req secured s
  | .bar0BadAccess fn write width off data => Sys2Proof.Machine.execBar0BadAccess fn write width off data s
  | .enable p => Sys2Proof.Machine.execEnable p s
  | .disable p => Sys2Proof.Machine.execDisable p s
  | .accordCheck p => Sys2Proof.Machine.execAccordCheck p s
  | .enablingDone p => Sys2Proof.Machine.execEnablingDone p s
  | .goTimeout p => Sys2Proof.Machine.execGoTimeout p s
  | .partitionReset p src code station entry => Sys2Proof.Machine.execPartitionReset p src code station entry s
  | .disableScrubDone p => Sys2Proof.Machine.execDisableScrubDone p s
  | .coreTableWrite core value => Sys2Proof.Machine.execCoreTableWrite core value s
  | .modRstN => Sys2Proof.Machine.execModRstN s
  | .perstN => Sys2Proof.Machine.execPerstN s
  | .resetRelease straps made found => Sys2Proof.Machine.execResetRelease straps made found s
  | .bootStepTimeout => Sys2Proof.Machine.execBootStepTimeout s
  | .fwGo => Sys2Proof.Machine.execFwGo s
  | .fwVerifyDone digest sig => Sys2Proof.Machine.execFwVerifyDone digest sig s
  | .fwFirstStart found => Sys2Proof.Machine.execFwFirstStart found s
  | .cfgGo key => Sys2Proof.Machine.execCfgGo key s
  | .fwSwap => Sys2Proof.Machine.execFwSwap s
  | .handoffRecord => Sys2Proof.Machine.execHandoffRecord s
  | .handoff => Sys2Proof.Machine.execHandoff s
  | .fwTakeover => Sys2Proof.Machine.execFwTakeover s
  | .handoffTimeout => Sys2Proof.Machine.execHandoffTimeout s
  | .mpWatchdog => Sys2Proof.Machine.execMpWatchdog s
  | .gaugeVisit g3 codes tick cyc wait => Sys2Proof.Machine.execGaugeVisit g3 codes tick cyc wait s
  | .iinSample code ovr g1 => Sys2Proof.Machine.execIinSample code ovr g1 s
  | .entryWrite off value => Sys2Proof.Machine.execEntryWrite off value s
  | .fastAverage => Sys2Proof.Machine.execFastAverage s
  | .irevTrip => Sys2Proof.Machine.execIrevTrip s
  | .sensorConvert sensor reading => Sys2Proof.Machine.execSensorConvert sensor reading s
  | .sensorCrossCheck => Sys2Proof.Machine.execSensorCrossCheck s
  | .sdReq => Sys2Proof.Machine.execSdReq s
  | .shutdownCause given => Sys2Proof.Machine.execShutdownCause given s
  | .latchedStop => Sys2Proof.Machine.execLatchedStop s
  | .orderlyStop => Sys2Proof.Machine.execOrderlyStop s
  | .orderlyLimit => Sys2Proof.Machine.execOrderlyLimit s
  | .powerOn => Sys2Proof.Machine.execPowerOn s
  | .powerStagesStart => Sys2Proof.Machine.execPowerStagesStart s
  | .inputRemoved => Sys2Proof.Machine.execInputRemoved s
  | .logFlush => Sys2Proof.Machine.execLogFlush s
  | .logSel sel => Sys2Proof.Machine.execLogSel sel s
  | .deviceFatal src code station => Sys2Proof.Machine.execDeviceFatal src code station s
  | .auditWitness core meas => Sys2Proof.Machine.execAuditWitness core meas s
  | .auditTile core => Sys2Proof.Machine.execAuditTile core s
  | .glGo => Sys2Proof.Machine.execGlGo s
  | .gleanKernel core fails => Sys2Proof.Machine.execGleanKernel core fails s
  | .mirrorCopy p => Sys2Proof.Machine.execMirrorCopy p s
  | .snapArm => Sys2Proof.Machine.execSnapArm s
  | .registerWrite fn off data key => Sys2Proof.Machine.execRegisterWrite fn off data key s
  | .holdingRegisterRead fn off len => Sys2Proof.Machine.execHoldingRegisterRead fn off len s
  | .sdcNFrame => Sys2Proof.Machine.execSdcNFrame s

end Sys2Proof.Machine
end

