-- ==== Sys2Proof/Machine/Sequencer.lean ====
section
/-! DEFINITION. What the device does by itself while no command waits (log entry 13): its engines go on with their lists (R271), messages that
wait in the module are delivered, and otherwise the cycle offset moves on (R24). -/

namespace Sys2Proof.Machine

/-- The command of an engine that reads an opcode (R266, R272). -/
def engineInstr (c : BitVec 9) (e : Engine) (cmd : Cmd) : Instr :=
  match e, cmd.opcode with
  | _, 0x00 => .nop c e cmd
  | _, 0x01 => .eofr c e cmd
  | _, 0x02 => .jump c e cmd
  | _, 0x03 => .qwait c e cmd
  | .matrix, 0x20 => .mprod c cmd
  | .matrix, 0x21 => .mframe c cmd
  | .weight, 0x40 => .wprog c cmd
  | .weight, 0x41 => .wadopt c cmd
  | .weight, 0x42 => .wflip c cmd
  | .weight, 0x43 => .wrefr c cmd
  | .weight, 0x44 => .werase c cmd
  | .weight, 0x45 => .wverify c cmd
  | .vector, 0x60 => .vpsin c cmd
  | .vector, 0x61 => .vact c cmd
  | .vector, 0x62 => .vew c cmd
  | .vector, 0x63 => .vnorm c cmd
  | .vector, 0x64 => .vsmax c cmd
  | .vector, 0x65 => .vattn c cmd
  | .transfer, 0xA0 => .fetch c cmd
  | .transfer, 0xA1 => .store c cmd
  | .transfer, 0xA2 => .lcopy c cmd
  | .transfer, 0xA3 => .wsend c cmd
  | .transfer, 0xA4 => .wopen c cmd
  | .transfer, 0xA5 => .wclose c cmd
  | .transfer, 0xA6 => .msend c cmd
  | .transfer, 0xA7 => .rsend c cmd
  | .transfer, 0xA8 => .wdraw c cmd
  | _, _ => .unknownOpcode c e cmd

/-- The command in a core's list that an engine has come to (R271). -/
def State.listCmd (s : State) (c : Nat) (e : Engine) : Cmd := BitVec.ofNat 256 (s.loftLe c (32 * s.rd (engPc e) c) 32)

/-- A list granule found poisoned stops the engine and resets the partition; no command of it is executed (R271, R633). -/
def State.listPoison (s : State) (c : Nat) (e : Engine) : State := (s.setEng c e 5).coreFatal 0x13 0 c

/-- An engine takes its next command, or tries again one that waits: none where nothing changes. -/
def State.engineStep (run : Instr → State → Out) (s : State) (c : Nat) (e : Engine) : Option Out :=
  if !s.runnable c e then none
  else
    let g := s.rd (engPc e) c / 2
    let s' := s.eccLoft c g
    if s'.loftBad c g then some (.next (s'.listPoison c e))
    else match run (engineInstr (BitVec.ofNat 9 c) e (s'.listCmd c e)) s' with
      | .next t => if t = s then none else some (.next t)
      | o => some o

/-- The first engine of a core that gets on. -/
def State.coreStep (run : Instr → State → Out) (s : State) (c : Nat) : Option Out :=
  [Engine.matrix, .vector, .transfer, .weight].findSome? (fun e => s.engineStep run c e)

/-- The command that delivers a message waiting in this module, by its type (R468). A mark waits for its edge, and a MGMT message for
firmware. -/
def deliverInstr (m : LinkMsg) : Option Instr :=
  match m.type.toNat with
  | 0x01 => some (.wwrite none)
  | 0x02 => some (.wack none)
  | 0x03 => some (.cgrant none)
  | 0x04 => some (.radd none)
  | 0x07 => some (.poison none)
  | 0x08 => some (.cset none)
  | 0x09 => some (.csetAck none)
  | 0x0C => some (.commit none)
  | 0x0D => some (.noteAck none)
  | _ => none

/-- The first waiting message whose delivery changes something. -/
def State.inboxStep (run : Instr → State → Out) (s : State) : Option Out :=
  s.net.inbox.findSome? (fun m => match deliverInstr m with
    | none => none
    | some i => match run i s with
      | .next t => if t = s then none else some (.next t)
      | o => some o)

/-- The device gets on by itself: the engines of its cores in order, then its messages; with nothing to do, a cycle passes until the tick's
last. -/
def State.selfStep (run : Instr → State → Out) (s : State) : Out :=
  match (List.range 512).findSome? (fun c => s.coreStep run c) with
  | some o => o
  | none =>
    match s.inboxStep run with
    | some o => o
    | none =>
      .next (if s.alive && s.flag R.tick_RUNNING && decide (s.cyc + 1 < s.period) then s.toCycle (s.cyc + 1) else s)

end Sys2Proof.Machine
end

