-- ==== Sys2Proof/Machine/Step.lean ====
section
/-! DEFINITION. The step: the command at the front of the queue, or what the device does by itself on an empty queue. -/

namespace Sys2Proof.Machine

/-- One step: the command that has waited longest runs with the queue's rest; on an empty queue the device
goes on by itself (log entry 13). -/
def step (s : State) : Host.Outcome State Fault Refusal :=
  match s.pending with
  | c :: rest => Sys2Proof.Machine.exec c { s with pending := rest }
  | [] => s.selfStep Sys2Proof.Machine.exec

/-- The state with the command that a word spells put at the front of its queue; unchanged where it spells none. -/
def State.withFetchWord (s : State) (nbits w : Nat) : State :=
  match Sys2Proof.decodeTableWord nbits w with
  | some c => { s with pending := c :: s.pending }
  | none => s

end Sys2Proof.Machine
end

