-- ==== Sys2Proof/Safety.lean ====
section
/-! DEFINITION. What a sound state is: its memories, its poison marks and its register bank stand in their canonical form, so that equal
contents are equal data. -/

namespace Sys2Proof.Machine

/-- Every memory, every set of poison marks and every table of pending memory errors is in canonical form: keys strictly rising, no entry
equal to what an unlisted key reads as. -/
structure MemSt.wf (m : MemSt) : Prop where
  loft : m.loft.wf
  granary : m.granary.wf
  host : m.host.wf
  flash : m.flash.wf
  loadWin : m.loadWin.wf
  cfgStage : m.cfgStage.wf
  loftPoison : Tbl.wf false m.loftPoison
  loftClamp : Tbl.wf false m.loftClamp
  granPoison : Tbl.wf false m.granPoison
  loftErr : Tbl.wf 0 m.loftErr
  granErr : Tbl.wf 0 m.granErr

/-- The register bank is in canonical form: field numbers strictly rising, none listed without an instance, and the instances of a field
strictly rising. -/
abbrev Bank.wf (b : Bank) : Prop := Tbl.wf [] b ∧ ∀ e ∈ b, e.2.sorted

/-- A sound state. -/
structure State.Sound (s : State) : Prop where
  mem : s.mem.wf
  regs : Bank.wf s.regs

/-- The stops that hold: a latched stop where `l` says so (R620), a device-fatal stop where `f` says so (R635). -/
structure PowerSt.Kept (l f : Bool) (p : PowerSt) : Prop where
  latched : l = true → p.latched = true
  fatal : f = true → p.fatal = true

/-- A sound state in which the stops that `l` and `f` name hold. -/
structure State.Good (l f : Bool) (s : State) : Prop where
  mem : s.mem.wf
  regs : Bank.wf s.regs
  power : s.power.Kept l f

/-- An outcome whose next state, if there is one, is such a state. -/
def Out.Good (l f : Bool) (o : Out) : Prop :=
  match o with
  | .next t => t.Good l f
  | .fault _ => True
  | .refused _ => True

/-! ### The words of statements about commands -/

/-- A command answers a next state, and that state has a property. -/
def State.Runs (s : State) (i : Instr) (P : State → Prop) : Prop := ∃ t, exec i s = .next t ∧ P t

/-- Every register instance but those listed reads in `t` as it reads in `s`. -/
def State.SameRegs (s t : State) (except : List (Fld × Nat × Nat)) : Prop :=
  ∀ (f : Fld) (i j : Nat), j < 1024 → (∀ e ∈ except, e.1.id = f.id → e.2 ≠ (i, j)) → t.rd f i j = s.rd f i j

/-- Every instance of every register field but those listed reads in `t` as it reads in `s`. -/
def State.KeepsRegs (s t : State) (except : List Fld) : Prop := ∀ (g : Fld) (i j : Nat), (∀ f ∈ except, f.id ≠ g.id) → t.rd g i j = s.rd g i j

/-- Nothing but the registers changes, and of them only those listed. -/
def State.RegsOnly (s t : State) (except : List (Fld × Nat × Nat)) : Prop := t = { s with regs := t.regs } ∧ s.SameRegs t except

/-- An engine can execute a command: it is runnable, the waits of the command's header are met (R273, R276), and a QWAIT's own wait is none
that the detector stops (R297). -/
def State.Takes (s : State) (c : Nat) (e : Engine) (cmd : Cmd) : Prop :=
  s.runnable c e = true ∧ s.tallyMet c cmd = true ∧ s.fqMet c cmd = true ∧ (cmd.opcode = 3 → s.waitHazard c e cmd = none)

/-- The registers that taking up a command writes: the engine's state, CMD_RSVD for a command with a reserved bit set (R267), and HEAD_WAIT,
BUSY and INFLIGHT of a matrix engine (R197). -/
def headRegs (c : Nat) (e : Engine) (cmd : Cmd) : List (Fld × Nat × Nat) :=
  (engState e, c, 0) :: ((if cmd.rsvdSet then [(R.core_CMD_RSVD, c, 0)] else []) ++ match e with
    | .matrix => [(R.mx_HEAD_WAIT, c, 0), (R.mx_BUSY, c, 0), (R.mx_INFLIGHT, c, 0)]
    | _ => [])

/-- The registers that the retirement of a command writes: the engine's program counter, its counter of retired commands where it has
one, and the tally that the command signals. -/
def retireRegs (c : Nat) (e : Engine) (cmd : Cmd) : List (Fld × Nat × Nat) :=
  (engPc e, c, 0) :: ((if cmd.sigEn then [(R.core_TALLY, c, cmd.sigTally)] else []) ++ match e with
    | .matrix => [(R.mx_MX_RETIRED, c, 0)]
    | .vector => [(R.vec_V_RETIRED, c, 0)]
    | _ => [])

/-- What the retirement of a command shows (R191, R271, R275): the engine runs, its program counter has moved to the next command, the
tally that the command signals has risen by SIG_ADD modulo 65,536, and its other tallies stand. -/
structure State.Retired (s t : State) (c : Nat) (e : Engine) (cmd : Cmd) : Prop where
  runs : t.rd (engState e) c = 1
  next : t.rd (engPc e) c = s.rd (engPc e) c + 1
  tally : ∀ k, k < 64 → t.rd R.core_TALLY c k =
    if cmd.sigEn = true ∧ cmd.sigTally = k then (s.rd R.core_TALLY c k + cmd.sigAdd) % 65536 else s.rd R.core_TALLY c k

/-- The hazard detector of debug mode finds nothing in the accesses of a command that has been taken up (R296, R297). -/
def State.NoHazard (s : State) (c : Nat) (e : Engine) (cmd : Cmd) (reads writes : List Run) : Prop :=
  (s.takeUp c e cmd).findHazard c e reads writes = none

/-- A command has been placed at the end of a store queue (R285), with its number and the GENs of its credits, and no other store queue of the
core has changed. -/
def State.Placed (s t : State) (c q op : Nat) (cmd : Cmd) (num : Nat) (gens : Tbl Nat := []) : Prop :=
  ∀ k, Tbl.get [] (t.core c).sqs k = Tbl.get [] (s.core c).sqs k ++ if k = q then
    [{ op := op, cmd := cmd, pc := s.rd R.core_PC_T c, read := false, data := [], num := num, done := false, gens := gens }] else []

/-- The opcodes that an engine knows: those of every engine, and its own. -/
def knownOpcodes : Engine → List Nat
  | .matrix => [0x00, 0x01, 0x02, 0x03, 0x20, 0x21]
  | .weight => [0x00, 0x01, 0x02, 0x03, 0x40, 0x41, 0x42, 0x43, 0x44, 0x45]
  | .vector => [0x00, 0x01, 0x02, 0x03, 0x60, 0x61, 0x62, 0x63, 0x64, 0x65]
  | .transfer => [0x00, 0x01, 0x02, 0x03, 0xA0, 0xA1, 0xA2, 0xA3, 0xA4, 0xA5, 0xA6, 0xA7, 0xA8]

/-- A store queue of a core has room for a command (R285). -/
def State.SqRoom (s : State) (c q : Nat) : Prop := (Tbl.get [] (s.core c).sqs q).length < 32

end Sys2Proof.Machine
end

