-- ==== Sys2Proof/Certificates/Slice0/Obligations.lean ====
section
/-! DEFINITION. The statements for the provers. -/

open Sys2Proof Sys2Proof.Machine

/-! ### The whole device -/

/-- The machine right after reset is sound. -/
def Obligations.ResetIsSound : Prop := State.reset.Sound

/-- Every step from a sound state leads to a sound state (every memory, mark set, error table and register bank keeps its canonical form). -/
def Obligations.StepKeepsSound : Prop := ∀ s t : State, s.Sound → step s = .next t → t.Sound

/-- A step takes the command at the front of the queue and runs it with the rest of the queue. -/
def Obligations.StepTakesFront : Prop :=
  ∀ (i : Instr) (rest : List Instr) (s : State), step { s with pending := i :: rest } = exec i { s with pending := rest }

/-- A latched stop (R620) outlasts every step but the removal of the input. -/
def Obligations.LatchedStopLasts : Prop :=
  ∀ s t : State, s.Sound → s.power.latched = true → s.pending.head? ≠ some .inputRemoved → step s = .next t → t.power.latched = true

/-- A device-fatal stop (R635) outlasts every step but a module reset and the removal of the input. -/
def Obligations.FatalStopLasts : Prop :=
  ∀ s t : State, s.Sound → s.power.fatal = true → s.pending.head? ≠ some .inputRemoved → s.pending.head? ≠ some .modRstN →
    step s = .next t → t.power.fatal = true

/-! ### The engines of a core -/

/-- NOP and QWAIT retire once their waits are met and every earlier command of the engine has retired; JUMP goes on at TARGET, and EOFR
stops the engine's fetching where it stands. None of them touches memory, and of the registers only those of the command's header and
retirement change. -/
def Obligations.ControlCommandsRetire : Prop :=
  ∀ (core : BitVec 9) (e : Engine) (cmd : Cmd) (s : State), s.Takes core.toNat e cmd → s.drained core.toNat e = true →
    let c := core.toNat
    let frame := fun t : State => t.mem = s.mem ∧ s.SameRegs t (headRegs c e cmd ++ retireRegs c e cmd)
    (s.rd (engPc e) c + 1 < 262144 → s.Runs (.nop core e cmd) fun t => s.Retired t c e cmd ∧ frame t) ∧
    (∀ n, s.qcount c cmd = some n → reached n (cmd.fld 96 16) = true → s.rd (engPc e) c + 1 < 262144 →
      s.Runs (.qwait core e cmd) fun t => s.Retired t c e cmd ∧ frame t) ∧
    (s.Runs (.jump core e cmd) fun t => t.rd (engPc e) c = cmd.fld 80 18 ∧ t.rd (engState e) c = 1 ∧ frame t) ∧
    (s.Runs (.eofr core e cmd) fun t => t.rd (engPc e) c = s.rd (engPc e) c ∧ t.rd (engState e) c = 4 ∧ frame t)

/-- A command whose header waits on a tally that has not come leaves its engine waiting, state 2, at the same command; a QWAIT whose queue
has not come leaves it waiting in state 3. Nothing but the header's registers changes. -/
def Obligations.EnginesWait : Prop :=
  ∀ (core : BitVec 9) (e : Engine) (cmd : Cmd) (s : State), s.runnable core.toNat e = true →
    s.flag R.core_DEBUG core.toNat = false →
    let c := core.toNat
    let waits := fun (n : Nat) (t : State) => t.rd (engState e) c = n ∧ t.rd (engPc e) c = s.rd (engPc e) c ∧ t.mem = s.mem ∧
      s.SameRegs t (headRegs c e cmd)
    (s.tallyMet c cmd = false → ∀ body, waits 2 (s.engRun c e cmd body)) ∧
    (s.tallyMet c cmd = true → s.fqMet c cmd = false → ∀ body, waits 3 (s.engRun c e cmd body)) ∧
    (s.tallyMet c cmd = true → s.fqMet c cmd = true → ∀ n, s.qcount c cmd = some n → reached n (cmd.fld 96 16) = false →
      s.Runs (.qwait core e cmd) (waits 3))

/-- An engine that reads any other opcode treats it as unknown: it stops, and the partition is reset as partition-fatal with core error
code 0x10. -/
def Obligations.UnknownOpcodeStops : Prop :=
  (∀ (c : BitVec 9) (e : Engine) (cmd : Cmd), ¬ cmd.opcode ∈ knownOpcodes e → engineInstr c e cmd = .unknownOpcode c e cmd) ∧
  ∀ (core : BitVec 9) (e : Engine) (cmd : Cmd) (s : State) (p : Nat), s.runnable core.toNat e = true → s.owner core.toNat = some p →
    (s.part p).resetDue = none →
    s.Runs (.unknownOpcode core e cmd) fun t => t.rd (engState e) core.toNat = 5 ∧ t.rd R.core_CORE_ERR core.toNat = 0x10 ∧
      t.rd R.core_CORE_ERR_ENG core.toNat = e.num ∧ t.rd R.core_CORE_ERR_VALID core.toNat = 1 ∧ (t.part p).resetDue = some 3 ∧
      t.rd R.err_CNT_PFATAL = satAdd32 (s.rd R.err_CNT_PFATAL) 1

/-! ### The transfer engine -/

/-- A transfer command whose waits are met retires as it is placed in its queue: FETCH in its fetch queue, STORE, RSEND, WDRAW, WSEND and
MSEND in their store queue. RSEND and MSEND under a circuit that does not take them are placed as failed sends (number 0x30) and count in
XFER_ERR; under a circuit whose entry fails its stored check they are not placed, and the entry's owner is reset (R355). WSEND and MSEND need
their credits and take them. The queues' other commands stand, and no memory changes. -/
def Obligations.TransfersArePlaced : Prop :=
  ∀ (core : BitVec 9) (cmd : Cmd) (s : State), s.Takes core.toNat .transfer cmd → s.rd R.core_PC_T core.toNat + 1 < 262144 →
    let c := core.toNat
    let u := s.takeUp c .transfer cmd
    let k := sendCirc cmd
    let placed := fun (q op num : Nat) (t : State) => s.Retired t c .transfer cmd ∧ s.Placed t c q op cmd num ∧ t.mem = s.mem
    let refused := fun (i : Instr) => s.enabled (s.circOwner k) = true → (s.part (s.circOwner k)).resetDue = none → s.Runs i fun t =>
      (t.part (s.circOwner k)).resetDue = some 3 ∧ (t.core c).sqs = (s.core c).sqs ∧ t.mem = s.mem
    (s.NoHazard c .transfer cmd [] (xferRuns cmd) → (Tbl.get [] (s.core c).fqs (xferQueue cmd)).length < 32 →
      s.Runs (.fetch core cmd) fun t => s.Retired t c .transfer cmd ∧ t.mem = s.mem ∧
        ∀ j, Tbl.get [] (t.core c).fqs j = Tbl.get [] (s.core c).fqs j ++ if j = xferQueue cmd then [(cmd, s.rd R.core_PC_T c)] else []) ∧
    (s.NoHazard c .transfer cmd (xferRuns cmd) [] → s.SqRoom c (xferQueue cmd % 8) →
      s.Runs (.store core cmd) (placed (xferQueue cmd % 8) 0xA1 0)) ∧
    (s.NoHazard c .transfer cmd [(cmd.fld 80 17, 1 + 2 * (cmd.fld 121 5 + 1))] [] →
      (Marks.has s.net.circBad k = true → refused (.rsend core cmd)) ∧
      (Marks.has s.net.circBad k = false → s.SqRoom c (rsendSq cmd) →
        s.Runs (.rsend core cmd) fun t => placed (rsendSq cmd) 0xA7 (if u.rsendOk c cmd then 0 else 0x30) t ∧
          (u.rsendOk c cmd = false → t.rd R.core_XFER_ERR c = satAdd32 (s.rd R.core_XFER_ERR c) 1))) ∧
    (s.NoHazard c .transfer cmd [(cmd.fld 80 17, msendLen cmd)] [(cmd.fld 141 17, 1)] →
      (Marks.has s.net.circBad k = true → refused (.msend core cmd)) ∧
      (Marks.has s.net.circBad k = false → s.SqRoom c (msendSq cmd) →
        (u.msendOk c cmd = true → u.mcReady c cmd = true → s.Runs (.msend core cmd) fun t => s.Retired t c .transfer cmd ∧
          s.Placed t c (msendSq cmd) 0xA6 cmd 0 (s.mcGens c cmd) ∧ t.mem = s.mem) ∧
        (u.msendOk c cmd = false → s.Runs (.msend core cmd) fun t => placed (msendSq cmd) 0xA6 0x30 t ∧
          t.rd R.core_XFER_ERR c = satAdd32 (s.rd R.core_XFER_ERR c) 1))) ∧
    (∀ e, s.NoHazard c .transfer cmd [(cmd.fld 80 17, wsendLen cmd)] [] → u.wsendEntry c cmd = some e → s.SqRoom c (cmd.fld 156 3) →
      s.Runs (.wsend core cmd) fun t => placed (cmd.fld 156 3) 0xA3 e.gen t ∧
        t.credit c e.mod_ e.core e.win = some { e with credits := e.credits - ceilDiv (wsendLen cmd) 64 }) ∧
    (s.NoHazard c .transfer cmd (if wdMode cmd = 3 then [] else [(cmd.fld 80 17, granSpan 0 (wdTok cmd * wdSize cmd))]) [] →
      s.SqRoom c (cmd.fld 203 3) → s.Runs (.wdraw core cmd) (placed (cmd.fld 203 3) 0xA8 0))

/-- LCOPY between ranges of the Loft, overlapping or not, leaves in every destination granule the bytes and the poison that its source
granule held before, and every other byte of every Loft as it was (R292). -/
def Obligations.LcopyCopies : Prop :=
  ∀ (core : BitVec 9) (cmd : Cmd) (s : State), s.Takes core.toNat .transfer cmd → s.rd R.core_PC_T core.toNat + 1 < 262144 →
    let c := core.toNat
    let src := cmd.fld 80 17
    let dst := cmd.fld 97 17
    let n := cmd.fld 114 16 + 1
    s.NoHazard c .transfer cmd [(src, n)] [(dst, n)] → s.mem.loftErr = [] → src + n ≤ 131072 → dst + n ≤ 131072 →
    s.Runs (.lcopy core cmd) fun t => s.Retired t c .transfer cmd ∧
      (∀ i, i < n → t.loftBytes c (64 * (dst + i)) 64 = s.loftBytes c (64 * (src + i)) 64 ∧ t.loftBad c (dst + i) = s.loftBad c (src + i)) ∧
      (∀ a, (a < c * 8388608 + 64 * dst ∨ c * 8388608 + 64 * (dst + n) ≤ a) → t.mem.loft.rd a = s.mem.loft.rd a) ∧
      t.mem.granary = s.mem.granary ∧ t.mem.host = s.mem.host

/-- WOPEN opens its window or is refused under its code, and WCLOSE marks its window to close; both retire, and no memory changes. -/
def Obligations.WindowsOpenAndClose : Prop :=
  ∀ (core : BitVec 9) (cmd : Cmd) (s : State), s.Takes core.toNat .transfer cmd → s.rd R.core_PC_T core.toNat + 1 < 262144 →
    let c := core.toNat
    let v := wopWin cmd
    (s.Runs (.wopen core cmd) fun t => s.Retired t c .transfer cmd ∧ t.mem = s.mem ∧
      if s.wopenCode c cmd = 0 then t.rd R.wdw_OPEN c v = 1 ∧ t.rd R.wdw_GEN c v = (s.rd R.wdw_GEN c v + 1) % 256 ∧
        t.rd R.wdw_AVAIL c v = cmd.fld 95 11 + 1 ∧ t.rd R.wdw_BASE c v = cmd.fld 84 11 ∧ t.rd R.wdw_LEN c v = cmd.fld 95 11 ∧
        (t.window c v).outstanding = 0 ∧ (t.window c v).grant = cmd.fld 106 12
      else t.rd R.msg_MSG_ERR = s.wopenCode c cmd ∧ t.rd R.core_XFER_ERR c = satAdd32 (s.rd R.core_XFER_ERR c) 1 ∧
        t.rd R.wdw_OPEN c v = s.rd R.wdw_OPEN c v) ∧
    (s.Runs (.wclose core cmd) fun t => s.Retired t c .transfer cmd ∧ t.mem = s.mem ∧ t.rd R.wdw_OPEN c v = s.rd R.wdw_OPEN c v ∧
      (t.window c v).closing = (s.flag R.wdw_OPEN c v || (s.window c v).closing))

/-- The queues of the transfer engine move in order: the oldest fetch of an enabled core lands and FQ_CPL counts it (R286), or, in debug mode,
stops the core where it would write a list or an open window (R297); the oldest unread command of a store queue is read and READ counts it
(R287); the command at the head of a store queue that has delivered its granules leaves it, and DONE counts it (R287). The patrol scrub of a
core moves on to the next row of its banks, after 4,095 to row 0 (R282); no pending error of the row it has read is left, a double-bit error
that it meets poisons its granule, and no byte of the Loft changes. A host write sets a tally of a core of no enabled partition; while the
core's partition is enabled, it is discarded and logged. -/
def Obligations.QueuesScrubAndTallies : Prop :=
  ((∀ (core : BitVec 9) (q : BitVec 4) (s : State) (p : Nat) (x : Cmd × Nat) (rest : List (Cmd × Nat)),
      s.goesOn core.toNat = true → s.enabledOwner core.toNat = some p → Tbl.get [] (s.core core.toNat).fqs q.toNat = x :: rest →
      let c := core.toNat
      let d := (s.tookHead c q.toNat).landFetch c p x.1 (Tbl.get [] (s.core c).fetchNoted q.toNat)
      (s.hazLate c (xferRuns x.1) = none → s.Runs (.fetchComplete core q) fun t => Tbl.get [] (t.core c).fqs q.toNat = rest ∧
        t.mem = d.mem ∧ t.rd R.core_FQ_CPL c q.toNat = (d.rd R.core_FQ_CPL c q.toNat + 1) % 65536 ∧
        t.rd R.core_FQ_DEPTH c q.toNat = rest.length % 64) ∧
      (s.hazLate c (xferRuns x.1) ≠ none → s.Runs (.fetchComplete core q) fun t => (∀ e, t.rd (engState e) c = 5) ∧
        t.rd R.core_HZ_VALID c = 1 ∧ (t.core c).fqs = (s.core c).fqs ∧ t.mem = s.mem)) ∧
    (∀ (core : BitVec 9) (q : BitVec 3) (s : State) (x : SqEnt), s.goesOn core.toNat = true → (s.enabledOwner core.toNat).isSome = true →
      s.findSq core.toNat q.toNat unread = some x →
      let c := core.toNat
      let d := (s.tookHead c (16 + q.toNat)).readSource c x
      s.Runs (.storeRead core q) fun t => t.mem = d.1.mem ∧
        t.rd R.core_SQ_READ c q.toNat = (d.1.rd R.core_SQ_READ c q.toNat + 1) % 65536 ∧
        Tbl.get [] (t.core c).sqs q.toNat = updFirst unread (fun y => { y with read := true, data := d.2.1, wait := d.2.2 })
          (Tbl.get [] (d.1.core c).sqs q.toNat)) ∧
    (∀ (core : BitVec 9) (q : BitVec 3) (s d : State) (x : SqEnt) (rest : List SqEnt), s.goesOn core.toNat = true →
      s.findSq core.toNat q.toNat undelivered = some x → s.deliverSq core.toNat x = some d →
      Tbl.get [] (d.core core.toNat).sqs q.toNat = x :: rest → (∀ y ∈ rest.head?, (y.read && y.done) = false) →
      let c := core.toNat
      s.Runs (.storeDone core q) fun t => t.mem = d.mem ∧ Tbl.get [] (t.core c).sqs q.toNat = rest ∧
        t.rd R.core_SQ_DONE c q.toNat = (d.rd R.core_SQ_DONE c q.toNat + 1) % 65536)) ∧
  ((∀ (core : BitVec 9) (found : List (BitVec 7 × Bool)) (s : State), s.alive = true →
        let c := core.toNat
        let row := (s.core c).scrubRow
        s.Runs (.patrolScrub core found) fun t =>
          (t.core c).scrubRow = (row + 1) % 4096 ∧ t.mem.loft = s.mem.loft ∧ t.mem.granary = s.mem.granary ∧
          (∀ b, b < 32 → ∀ k, k < 4 → Tbl.get 0 t.mem.loftErr (loftKey c (scrubGran row b) * 4 + k) = 0) ∧
          (∀ y, found = [(y, true)] → t.loftBad c (scrubGran row (y.toNat / 4)) = true)) ∧
    (∀ (fn : BitVec 7) (core : BitVec 9) (t : BitVec 6) (value : BitVec 16) (s : State), s.hostOk fn.toNat = true →
        (s.enabledOwner core.toNat = none → s.Runs (.tallyWrite fn core t value) fun u =>
          u.rd R.core_TALLY core.toNat t.toNat = value.toNat ∧ s.RegsOnly u [(R.core_TALLY, core.toNat, t.toNat)]) ∧
        (s.enabledOwner core.toNat ≠ none → s.Runs (.tallyWrite fn core t value) fun u =>
          s.SameRegs u [(R.host_HAE_COUNT, 0, 0)] ∧ u.rd R.host_HAE_COUNT = satAdd32 (s.rd R.host_HAE_COUNT) 1 ∧
            u.log.haeCur.length = s.log.haeCur.length + 1)))

/-! ### The vector engine -/

/-- A command of the shared body that passes its checks retires with its rows in the Loft at DST, in the destination's type and cut at the
Loft's end: VACT, VEW, VNORM, VSMAX and VPSIN. Its operands are read first, their pending errors corrected or poisoned. No other byte of any
Loft, and no byte of the host's memory, changes. -/
def Obligations.VectorRowsAreStored : Prop :=
  ∀ (core : BitVec 9) (cmd : Cmd) (s : State), s.Takes core.toNat .vector cmd → s.rd R.core_PC_V core.toNat + 1 < 262144 →
    let c := core.toNat
    let u := s.takeUp c .vector cmd
    s.NoHazard c .vector cmd (vReads cmd) [s.vWrites cmd] → s.vCode cmd = 0 →
    let stores := fun (rows : List (List Res)) (t : State) => s.Retired t c .vector cmd ∧
      t.mem.loft = s.mem.loft.write (c * 8388608 + vDst cmd)
        ((rowsDest (s.vDt cmd) (cmd.fld 182 1 == 1) rows).bytes.take (8388608 - vDst cmd)) ∧ t.mem.host = s.mem.host
    let r := (u.serve c (vReq cmd)).vRead c cmd
    s.Runs (.vact core cmd) (stores (r.vactRows c cmd)) ∧ s.Runs (.vew core cmd) (stores (r.vewRows c cmd)) ∧
    s.Runs (.vnorm core cmd) (stores (r.vnormRows c cmd)) ∧ s.Runs (.vsmax core cmd) (stores (r.vsmaxRows c cmd)) ∧
    s.Runs (.vpsin core cmd)
      (stores ((((((u.psinClip c cmd).psinOverflow c cmd).serve c (vReq cmd)).vRead c cmd).psinRows c cmd)))

/-- A command of the shared body, or a VATTN, that fails a check retires too (R330): its code, opcode and ERR_VALID are recorded, V_CMDERR counts
it, its destination inside the Loft is poisoned, and no byte of any Loft changes. A weight command of a core's own list that is refused
retires too, with its code and set recorded, and code 0x47 before every other: it queues no pass and changes no set (R234). -/
def Obligations.RefusalsAreRecorded : Prop :=
  (∀ (core : BitVec 9) (cmd : Cmd) (s : State), s.Takes core.toNat .vector cmd → s.rd R.core_PC_V core.toNat + 1 < 262144 →
      let c := core.toNat
      let Refused := fun (i : Instr) (code : Nat) (dst : List Run) => s.Runs i fun t => s.Retired t c .vector cmd ∧
        t.rd R.vec_ERR_CODE c = code ∧ t.rd R.vec_ERR_OP c = cmd.opcode ∧ t.rd R.vec_ERR_VALID c = 1 ∧
        t.rd R.vec_V_CMDERR c = satAdd32 (s.rd R.vec_V_CMDERR c) 1 ∧ t.mem.loft = s.mem.loft ∧
        ∀ r ∈ dst, ∀ i, i < r.2 → r.1 + i < 131072 → t.loftBad c (r.1 + i) = true
      (s.NoHazard c .vector cmd (vReads cmd) [s.vWrites cmd] → s.vCode cmd ≠ 0 →
        ∀ i ∈ [Instr.vact core cmd, .vew core cmd, .vnorm core cmd, .vsmax core cmd, .vpsin core cmd], Refused i (s.vCode cmd) [s.vWrites cmd]) ∧
      (let a := attnOf cmd
       let u := (s.takeUp c .vector cmd).eccLoft c a.la
       let l := s.loftLe c (64 * a.la) 4
       let code := a.code l (u.loftBad c a.la)
       s.NoHazard c .vector cmd ((a.la, 1) :: a.queries ++ (a.keys l).flatMap (fun j => [a.kRun j, a.vRun j])) a.outs → code ≠ 0 →
       Refused (.vattn core cmd) code a.outs)) ∧
  (∀ (core : BitVec 9) (cmd : Cmd) (s : State) (act : State → Nat → WCtx → Cmd → WRes) (i : Instr) (code : Nat),
      (i, act) ∈ [(.wprog core cmd, wprogAct), (.wadopt core cmd, wadoptAct), (.wflip core cmd, wflipAct), (.wrefr core cmd, wrefrAct),
        (.werase core cmd, weraseAct), (.wverify core cmd, wverifyAct)] →
      s.Takes core.toNat .weight cmd → s.rd R.core_PC_W core.toNat + 1 < 262144 →
      let c := core.toNat
      let u := s.takeUp c .weight cmd
      let v := if imageCmd cmd then u.eccImage (wImg cmd) else u
      act v c (v.listCtx c) cmd = .refused code →
      (v.noRight c (v.listCtx c) (wsidOf cmd) = true → code = 0x47) ∧
      s.Runs i fun t => s.Retired t c .weight cmd ∧ t.rd R.we_ERR_CODE c = code ∧ t.rd R.we_ERR_WSID c = wsidOf cmd ∧
        t.rd R.we_ERR_VALID c = 1 ∧ (t.core c).passes = (s.core c).passes ∧ (t.core c).sets = (s.core c).sets)

/-- VATTN that passes its checks retires with its output rows written in order, each formed from the Loft as it stands once the rows before it
are written (R321 to R326); a row that has read a poisoned granule, its length, its query row or a key or value row that it uses, is
written poisoned. -/
def Obligations.AttentionRuns : Prop :=
  ∀ (core : BitVec 9) (cmd : Cmd) (s : State), s.Takes core.toNat .vector cmd → s.rd R.core_PC_V core.toNat + 1 < 262144 →
    let c := core.toNat
    let a := attnOf cmd
    let u := (s.takeUp c .vector cmd).eccLoft c a.la
    let l := s.loftLe c (64 * a.la) 4
    let keys := (a.keys l).flatMap (fun j => [a.kRun j, a.vRun j])
    let noLen := u.loftBad c a.la
    s.NoHazard c .vector cmd ((a.la, 1) :: a.queries ++ keys) a.outs → a.code l noLen = 0 →
    let v := (a.queries ++ if noLen then [] else keys).foldl (fun s r => s.eccLoftN c r.1 r.2) u
    let clean := fun (s : State) (i g : Nat) => !noLen && !s.anyBad c (a.qRun i g).1 a.qGran && (List.range (l + i + 1)).all (fun j =>
      !s.anyBad c (a.kRun j).1 a.kGran && !s.anyBad c (a.vRun j).1 a.kGran)
    let rows := a.pairs.foldl (fun s x => s.putDest c (a.oRun x.1 x.2).1 0xFFFF (plainDest a.ot false
      (if clean s x.1 x.2 then (s.attnRow c a l x.1 x.2).map (fun y => (y, 0)) else List.replicate a.d (Fp.zero, 1)))) v
    s.Runs (.vattn core cmd) fun t => s.Retired t c .vector cmd ∧ t.mem = rows.mem

/-! ### The matrix engine -/

/-- An MPROD at the head of the list, whose waits are met, is issued where it passes every check (R185, R189): its input is loaded in the stored
format, the request for its grant is placed, and it pulses at once where the grant fits and no product is in flight; in reference mode, once no
earlier product is left, it goes to the integer lanes. An MPROD that fails a check has its slab poisoned; its code, set and tile are recorded, a tag
mismatch counts in MX_TAGMIS and any other failure in MX_CMDERR (R190, R199). With no product in flight it retires at once, otherwise it takes
its place behind the products in flight (R191). In debug mode a tag mismatch stops the core instead (R193). -/
def Obligations.ProductsAreIssuedOrFail : Prop :=
  ∀ (core : BitVec 9) (cmd : Cmd) (s : State) (p : Nat), s.Takes core.toNat .matrix cmd → s.owner core.toNat = some p →
    s.rd R.core_PC_M core.toNat + 1 < 262144 →
    let c := core.toNat
    let u := s.takeUp c .matrix cmd
    let src := u.storedSrc cmd
    let v := (u.prodSegs c cmd).foldl (fun s k => s.eccLoftN c (segRun src k).1 (segRun src k).2) u
    let code := v.prodCode c src
    let st := s.promo (prodReq src) (src.fld 122 6)
    let id := (s.core c).nextId
    let g : Grant := { holder := .part p, core := c, id := id, mw := (s.prodPieces c src).length * arrayMw (s.wset c (src.fld 80 12)).fmt }
    (∀ q ∈ (s.core c).products, q.atHead = false ∧ q.id ≠ id) →
    let clear := s.NoHazard c .matrix cmd ((u.prodSegs c cmd).map (segRun src)) [(cmd.fld 168 17, 1 + 2 * u.prodGroups c cmd)]
    (code = 0 → clear →
      (s.refMode p = false → (s.core c).products = [] →
        (s.Runs (.mprod core cmd) fun t => g ∈ t.power.waiting ++ t.power.held ∧ ∃ x, (t.core c).products = [x] ∧ x.id = id ∧ x.cmd = src ∧
          x.step = 0 ∧ x.fmt = promFmt (src.fld 164 3) st ∧ x.range = min 3 (src.fld 185 2 + st) ∧ x.input = v.prodInput c src ∧
          x.reference = false ∧ x.failed = false) ∧
        (s.headOf (.part p) = none → s.fits g = true → s.flag R.gov_HOLD = false → s.Runs (.mprod core cmd) fun t =>
          g ∈ t.power.held ∧ t.rd R.core_PC_M c = s.rd R.core_PC_M c + 1 ∧
          (t.core c).products.map (fun x => (x.id, x.stage, x.atHead)) = [(id, 1, false)])) ∧
      (s.refMode p = true → (s.core c).products = [] → s.Runs (.mprod core cmd) fun t => t.rd R.core_PC_M c = s.rd R.core_PC_M c + 1 ∧
        (t.core c).products.map (fun x => (x.cmd, x.stage, x.fmt, x.reference, x.input)) = [(src, 1, 4, true, v.prodInput c src)])) ∧
    (code ≠ 0 → (s.flag R.core_DEBUG c = false ∨ 3 < code ∧ clear) →
      let Fails := fun (P : State → Prop) => s.Runs (.mprod core cmd) fun t => P t ∧ t.rd R.mx_ERR_CODE c = code ∧
        t.rd R.mx_ERR_WSID c = cmd.fld 80 12 ∧ t.rd R.mx_ERR_TILE c = cmd.fld 112 10 ∧ t.rd R.mx_ERR_VALID c = 1 ∧
        t.rd R.fmt_ALLOW_LEFT c = s.rd R.fmt_ALLOW_LEFT c ∧
        (if code ≤ 3 then t.rd R.mx_MX_TAGMIS c = satAdd32 (s.rd R.mx_MX_TAGMIS c) 1
        else t.rd R.mx_MX_CMDERR c = satAdd32 (s.rd R.mx_MX_CMDERR c) 1) ∧
        ∀ i, i < 1 + 2 * u.prodGroups c cmd → cmd.fld 168 17 + i < 131072 → t.loftBad c (cmd.fld 168 17 + i) = true
      ((s.core c).products = [] → Fails fun t => s.Retired t c .matrix cmd) ∧
      ((s.core c).products ≠ [] → Fails fun t => t.rd R.core_PC_M c = s.rd R.core_PC_M c + 1 ∧ ∃ x, (t.core c).products =
        (s.core c).products ++ [x] ∧ x.failed = true ∧ x.stage = 3)) ∧
    (v.tagCode c src ≠ 0 → s.flag R.core_DEBUG c = true → s.Runs (.mprod core cmd) fun t => (∀ e, t.rd (engState e) c = 5) ∧
      t.rd R.core_HZ_VALID c = 1 ∧ (t.core c).products = (s.core c).products ∧ t.mem = s.mem)

/-- MFRAME sets ALLOW and ALLOW_LEFT to FB_ALLOW as it retires (R172); a second one in a frame sets neither and leaves error code 0x0B, naming
no set, with a deferred error (R173). Neither touches memory. -/
def Obligations.FrameAllowanceIsSet : Prop :=
  ∀ (core : BitVec 9) (cmd : Cmd) (s : State), s.Takes core.toNat .matrix cmd → s.rd R.core_PC_M core.toNat + 1 < 262144 →
    (s.core core.toNat).products = [] →
    let c := core.toNat
    s.Runs (.mframe core cmd) fun t => s.Retired t c .matrix cmd ∧ t.mem = s.mem ∧ (t.core c).mframe = true ∧
      if (s.core c).mframe then t.rd R.fmt_ALLOW c = s.rd R.fmt_ALLOW c ∧ t.rd R.fmt_ALLOW_LEFT c = s.rd R.fmt_ALLOW_LEFT c ∧
        t.rd R.mx_ERR_CODE c = 0x0B ∧ t.rd R.mx_ERR_WSID c = 0 ∧ t.rd R.mx_ERR_TILE c = 0 ∧ t.rd R.mx_ERR_VALID c = 1 ∧
        t.rd R.mx_MX_CMDERR c = satAdd32 (s.rd R.mx_MX_CMDERR c) 1 ∧ t.rd R.err_CNT_DEFER = satAdd32 (s.rd R.err_CNT_DEFER) 1
      else t.rd R.fmt_ALLOW c = cmd.fld 80 16 ∧ t.rd R.fmt_ALLOW_LEFT c = cmd.fld 80 16 ∧ t.rd R.mx_ERR_CODE c = s.rd R.mx_ERR_CODE c

/-- A product in flight moves through its stages. A grant that fits is given to the holder's first request, and the product at the queue head then
pulses (R185, R606). The last conversion of a pulsing product decides it (R143 to R152): its attempt's pulses and saturations are counted, and
it is final, its grant released, unless more conversions than SAT_THR have saturated; then it is repeated, charged to the allowance or, under
policy 0, beyond it, or it is clipped. A repeat counts in FB_STEP1 or FB_STEP2 and pulses its next step; the integer lanes form a reference
product, which counts in REF_PROD; and the oldest final product writes its slab and retires (R171, R179, R191). -/
def Obligations.ProductsMove : Prop :=
  (∀ (p : BitVec 6) (cycles : BitVec 32) (s : State) (g : Grant), s.headOf (.part p.toNat) = some g → s.alive = true → s.fits g = true →
    let c := g.core
    s.Runs (.grantAdmit (some p) cycles) fun t =>
      t.power = { s.power with waiting := s.power.waiting.erase g, held := s.power.held ++ [g] } ∧ t.mem = s.mem ∧
      t.rd R.mx_MX_GOV_WAIT c = satAdd32 (s.rd R.mx_MX_GOV_WAIT c) cycles.toNat ∧
      ∀ x, (s.core c).products = [x] → x.id = g.id → x.atHead = true → s.flag R.gov_HOLD = false →
        (t.core c).products = [{ x with stage := 1, atHead := false, start := (s.core c).nextStart }]) ∧
  (∀ (cycles : BitVec 32) (s : State) (g : Grant), s.headOf .cap = some g → s.alive = true → s.fits g = true →
    s.Runs (.grantAdmit none cycles) fun t =>
      t.power = { s.power with waiting := s.power.waiting.erase g, held := s.power.held ++ [g] } ∧ t.mem = s.mem ∧ t.cores = s.cores) ∧
  (∀ (core : BitVec 9) (id : Nat) (s : State) (p : Product), s.goesOn core.toNat = true → s.flag R.gov_HOLD = false →
    (s.core core.toNat).products.filter (fun x => x.id == id) = [p] → p.atHead = false → p.reference = false →
    let c := core.toNat
    let Now := fun (t : State) (q : Product) => (t.core c).products.find? (fun x => x.id == id) = some q
    (p.stage = 1 → s.sharing c p (fun q => !q.atHead && q.stage == 1 && decide (q.start < p.start)) = [] →
      let out := s.attempt c p.cmd p.input p.mode p.flags (s.clampDriven c p)
      let charge := s.repeatCharge c p
      let left := s.rd R.fmt_ALLOW_LEFT c
      let Final := fun (t : State) => Now t { p with groups := out.groups, stage := 3 } ∧ t.holds c id false = false
      let Again := fun (t : State) => Now t { p with groups := out.groups, stage := 2 } ∧ t.power.held = s.power.held
      s.Runs (.productDecide core id) fun t => t.rd R.arr_PULSES c = satAdd32 (s.rd R.arr_PULSES c) out.run ∧
        t.rd R.arr_SAT_CONV c = satAdd32 (s.rd R.arr_SAT_CONV c) out.sat ∧ t.mem = s.mem ∧
        (out.sat ≤ p.cmd.fld 192 8 → Final t ∧ t.rd R.fmt_ALLOW_LEFT c = left ∧
          t.rd R.fmt_SAT_ACCEPT c = if out.sat = 0 then s.rd R.fmt_SAT_ACCEPT c else satAdd32 (s.rd R.fmt_SAT_ACCEPT c) 1) ∧
        (p.cmd.fld 192 8 < out.sat →
          (p.step = 2 → Final t ∧ t.rd R.fmt_CLIP_TILES c = satAdd32 (s.rd R.fmt_CLIP_TILES c) 1) ∧
          (p.step ≠ 2 → charge ≤ left → Again t ∧ t.rd R.fmt_ALLOW_LEFT c = left - charge) ∧
          (p.step ≠ 2 → left < charge →
            if s.rd R.fmtp_POLICY ((s.owner c).getD 64) = 0 then Again t ∧ t.rd R.fmt_FB_EXCESS c = satAdd32 (s.rd R.fmt_FB_EXCESS c) 1
            else Final t ∧ t.rd R.fmt_CLIP_TILES c = satAdd32 (s.rd R.fmt_CLIP_TILES c) 1))) ∧
    (p.stage = 2 → (s.sharing c p (fun q => !q.atHead && q.stage == 1)).length < 2 →
      s.sharing c p (fun q => q.stage == 2 && decide (q.start < p.start)) = [] →
      let f := if p.nextStep.1 = 1 then R.fmt_FB_STEP1 else R.fmt_FB_STEP2
      s.Runs (.fallbackRepeat core id) fun t => t.rd f c = satAdd32 (s.rd f c) 1 ∧ t.mem = s.mem ∧ Now t
        { p with stage := 1, step := p.nextStep.1, fmt := p.nextStep.2.1, range := p.nextStep.2.2, start := (s.core c).nextStart })) ∧
  (∀ (core : BitVec 9) (id : Nat) (s : State) (p : Product), s.goesOn core.toNat = true →
    let c := core.toNat
    (s.core c).products.find? (fun x => x.id == id && x.reference && x.stage == 1) = some p →
    s.Runs (.refProduct core id) fun t => t.rd R.vec_REF_PROD c = satAdd32 (s.rd R.vec_REF_PROD c) 1 ∧
      t.rd R.vec_REF_CYC c = satAdd32 (s.rd R.vec_REF_CYC c) (s.refCycles c p.cmd) ∧ t.mem = s.mem ∧
      (t.core c).products = (s.core c).products.map (fun q => if q.id = id then
        { q with stage := 3, groups := (s.attempt c p.cmd p.input p.mode 0).groups } else q)) ∧
  (∀ (core : BitVec 9) (s : State) (p : Product) (rest : List Product), s.goesOn core.toNat = true →
    (s.core core.toNat).products = p :: rest → p.stage = 3 → p.failed = false → s.hazLate core.toNat [s.slabRun core.toNat p] = none →
    let c := core.toNat
    let dst := p.cmd.fld 168 17
    let n := s.prodGroups c p.cmd
    let r := if p.cmd.fld 200 1 = 1 then s.eccLoftN c dst (1 + 2 * n) else s
    s.Runs (.slabWrite core) fun t =>
      t.mem = (r.writeSlab c dst (if p.cmd.fld 200 1 = 1 then (addSlabs (r.readSlab c dst n) p.groups).1 else p.groups)).mem ∧
      ((∀ q ∈ rest.head?, q.failed = false) → (t.core c).products.map (·.id) = rest.map (·.id) ∧
        t.rd R.mx_MX_RETIRED c = satAdd32 (s.rd R.mx_MX_RETIRED c) 1 ∧ ∀ k, k < 64 → t.rd R.core_TALLY c k =
          if p.cmd.sigEn = true ∧ p.cmd.sigTally = k then (s.rd R.core_TALLY c k + p.cmd.sigAdd) % 65536 else s.rd R.core_TALLY c k))

/-! ### The weight engine -/

/-- A weight command of a core's own list that is accepted retires, and what it asks for is queued: WPROG, WADOPT, WREFR and WVERIFY a pass
under the next pass number, WFLIP a flip request; WERASE leaves the bank EMPTY without a version. A held one, with 16 passes queued, stays
at the head. Writing WS_SEL shows the selected weight-set entry: its words in WS_DATA0 to WS_DATA3 and its tenant in WS_TENANT (R198, R541);
nothing else changes. -/
def Obligations.WeightSetsAndCommands : Prop :=
  (∀ (core : BitVec 9) (cmd : Cmd) (s : State), s.Takes core.toNat .weight cmd → s.rd R.core_PC_W core.toNat + 1 < 262144 →
      let c := core.toNat
      let u := s.takeUp c .weight cmd
      let v := if imageCmd cmd then u.eccImage (wImg cmd) else u
      let x := v.listCtx c
      let w := s.wset c (wsidOf cmd)
      let arrays := if w.valid then v.setArrays c w else (v.image (wImg cmd)).arrays
      let inact := v.inactiveOf c arrays
      let b := v.setBank c (wsidOf cmd) false
      let queues := fun (kind : PassKind) (bank version : Nat) (arrays : List Nat) (tally : Bool) (t : State) =>
        s.Retired t c .weight cmd ∧ (t.core c).passes = (s.core c).passes ++
          [{ passOf s c x cmd kind bank version arrays with id := (s.core c).weNext, tallyEn := tally }]
      (v.imageCode c x cmd false = 0 → v.queuedPasses c < 16 → s.Runs (.wprog core cmd) fun t =>
        queues .prog inact (versionOf cmd) arrays (wTallyEn cmd) t ∧ (t.wset c (wsidOf cmd)).st inact = 1 ∧
          (t.wset c (wsidOf cmd)).ver inact = 0) ∧
      (v.imageCode c x cmd true = 0 → v.queuedPasses c < 16 →
        let bank := if wBank cmd = 1 then 1 - inact else inact
        s.Runs (.wadopt core cmd) fun t => queues .adopt bank (versionOf cmd) arrays (wTallyEn cmd) t ∧
          (t.wset c (wsidOf cmd)).st bank = 2 ∧ (t.wset c (wsidOf cmd)).active = 1 - inact) ∧
      (v.noRight c x (wsidOf cmd) = false → versionOf cmd ≠ 0 → s.Runs (.wflip core cmd) fun t => s.Retired t c .weight cmd ∧
        (t.core c).flipReqs = (s.core c).flipReqs ++ [{ set := wsidOf cmd, version := versionOf cmd, tally := some (wTally cmd)
                                                        frame := (s.owner c).map (fun p => s.frameSeq p), fromEnable := false }] ∧
        t.rd R.we_FLIP_RES c = (if (s.core c).flipReqs.length = 0 then 1 else 7) ∧ t.rd R.we_FLIP_WSID c = wsidOf cmd) ∧
      (v.noRight c x (wsidOf cmd) = false → w.valid = true → w.ver b ≠ 0 → (w.st b = 0 ∨ w.st b = 3) →
        (v.wearOk c b (v.flipGroup c (wsidOf cmd)) (v.rd R.we_WE_CEIL c) = true → v.queuedPasses c < 16 → s.Runs (.wrefr core cmd)
          (queues .refresh b (w.ver b) (v.flipGroup c (wsidOf cmd)) (wTallyEn cmd))) ∧
        s.Runs (.werase core cmd) (fun t => s.Retired t c .weight cmd ∧ (t.wset c (wsidOf cmd)).st b = 0 ∧
          (t.wset c (wsidOf cmd)).ver b = 0)) ∧
      (let k := v.setBank c (wsidOf cmd) (wBank cmd == 1)
       v.noRight c x (wsidOf cmd) = false → w.valid = true → v.busyBank c (wsidOf cmd) k = false → w.ver k ≠ 0 → v.queuedPasses c < 16 →
       s.Runs (.wverify core cmd) (queues .verify k (w.ver k) (v.setArrays c w) false)) ∧
      (∀ i act, (i, act) ∈ [(Instr.wprog core cmd, wprogAct), (.wadopt core cmd, wadoptAct), (.wrefr core cmd, wrefrAct),
        (.wverify core cmd, wverifyAct)] → act v c x cmd = .held → s.Runs i fun t => t.rd R.core_PC_W c = s.rd R.core_PC_W c ∧
          (t.core c).passes = (s.core c).passes ∧ (t.core c).sets = (s.core c).sets)) ∧
  (∀ (core : BitVec 9) (sel : BitVec 12) (s : State), s.hostOk = true →
      let c := core.toNat
      let w := s.wset c sel.toNat
      s.Runs (.wsSel core sel) fun t => t = { s with regs := t.regs } ∧ t.rd R.mx_WS_SEL c = sel.toNat ∧
        t.rd R.mx_WS_TENANT c = w.tenant % 2 ^ 32 ∧ (∀ i, i < w.words.length → t.rd R.mx_WS_DATA c i = w.words.getD i 0 % 2 ^ 32) ∧
        s.KeepsRegs t [R.mx_WS_SEL, R.mx_WS_TENANT, R.mx_WS_DATA])

/-- A queued pass whose arrays are free starts: one that programs no cells at once, one that programs them once it holds a grant, a program pass
counting in PROG_GEN of its set; a refresh that its check refuses ends under its code (R208, R216, R229). A running pass none of whose arrays
waits for a grant ends with a code, its grants gone and every code but 0 recorded: 0 for success, 0x46 at the wear ceiling, 0x49 for an image
that is bad, 0x4A for a bank that does not match, 0x4B where no spare is left. A program pass whose image and cells are good leaves its cells at
the levels of its image and its bank VERIFYING. -/
def Obligations.PassesStartAndEnd : Prop :=
  (∀ (core : BitVec 9) (id : Nat) (s : State) (p : Pass),
      let c := core.toNat
      s.pass c id = some p → s.alive = true → s.flag R.gov_HOLD = false → p.running = false → p.suspended = false → p.code = none →
      s.arraysFree c p = true → s.refreshWaits c p = false →
      let r := if p.kind = .refresh then s.readRefresh c p else s
      let started := fun (t : State) => t.pass c id = some { p with running := true, hot := p.hot || s.coreHot c }
      (p.kind.programs = false → s.Runs (.passStart core id) fun t => started t ∧ (t.core c).sets = (s.core c).sets ∧ t.mem = s.mem) ∧
      (p.kind.programs = true → (p.kind = .refresh → r.refreshCode c p = 0) →
        ((r.askProgram c p).holds c id true = true → s.Runs (.passStart core id) fun t => started t ∧
          (p.kind = .prog → (t.wset c p.set).progGen = ((s.wset c p.set).progGen + 1) % 2 ^ 32)) ∧
        ((r.askProgram c p).holds c id true = false → s.Runs (.passStart core id) fun t => t.pass c id = some p)) ∧
      (p.kind = .refresh → r.refreshCode c p ≠ 0 → s.Runs (.passStart core id) fun t =>
        t.pass c id = some { p with code := some (r.refreshCode c p) } ∧ t.rd R.we_ERR_CODE c = r.refreshCode c p ∧
          t.rd R.we_ERR_WSID c = p.set % 4096 ∧ (r.refreshCode c p = 0x46 → t.rd R.we_CEIL_HIT c = 1))) ∧
  (∀ (core : BitVec 9) (id : Nat) (found : PassFindings) (s : State) (p : Pass),
      let c := core.toNat
      s.pass c id = some p → s.alive = true → p.running = true → p.code = none →
      (s.waitsGrant c p = true → s.Runs (.passEnd core id found) fun t => t.pass c id = some p ∧ t.mem = s.mem ∧ t.cores = s.cores) ∧
      (s.waitsGrant c p = false → s.Runs (.passEnd core id found) fun t =>
        (∃ code, t.pass c id = some { p with running := false, code := some code } ∧ t.holds c id true = false ∧
          (code ≠ 0 → t.rd R.we_ERR_CODE c = code ∧ t.rd R.we_ERR_WSID c = p.set % 4096 ∧ t.rd R.we_ERR_VALID c = 1) ∧
          code ∈ (match p.kind with
            | .prog => [0, 0x46, 0x49, 0x4B]
            | .adopt => [0, 0x49, 0x4A]
            | .refresh => [0, 0x46, 0x49, 0x4B]
            | .verify => [0]
            | .repair => [0, 0x49]
            | .replace => [0, 0x49])) ∧
        let v := p.arrays.foldl (fun s a => s.updBank c a p.bank BankSt.absorb) ((s.readBlocks p.img).passWear c p)
        let m := v.image p.img
        let r := v.programImage c p.bank m.fmt (v.imgBlocks m)
        p.kind = .prog → r.2 = true → found.cells = [] → found.drivers = [] →
          t.pass c id = some { p with running := false, code := some 0 } ∧ (t.wset c p.set).st p.bank = 2 ∧
          t.rd R.we_WE_PASSES c = satAdd32 (s.rd R.we_WE_PASSES c) 1 ∧
          (∀ a row col, row < 1040 → col < 1064 → t.levels c a p.bank row col = r.1.levels c a p.bank row col) ∧
          ∀ a ∈ p.arrays, (t.bank c a p.bank).margin = 128 ∧ (t.bank c a p.bank).fixes = [] ∧ (t.bank c a p.bank).poisoned = []))

/-- The events of a core's banks: the end of a switch ends the flip and raises its tally, and where the flip was accepted every array of its group
changes its active bank (R194, R222); a margin sample leaves the least margin seen since the bank was programmed (R111, R227); a verified
repair of an array's columns ends its pass, costs its wear, counts in WE_REPAIRS and waits as done (R121, R215); a refresh due on an
inactive READY bank is queued (R228); a spoilt correction table marks its octet (R633); and a defect of the active bank counts, poisons
the user columns that it affects, and has them repaired on free spares, or the array replaced where there are too few (R116 to R121). -/
def Obligations.BankEvents : Prop :=
  (∀ (core : BitVec 9) (s : State) (f : Flip),
    let c := core.toNat
    (s.core c).flip = some f → s.Runs (.flipSwitchEnd core) fun t => t = s.endFlip c f ∧ (t.core c).flip = none ∧
      (∀ a, t.activeBank c a = if f.accepted && f.arrays.contains a then 1 - s.activeBank c a else s.activeBank c a) ∧
      ∀ k, k < 64 → t.rd R.core_TALLY c k = if f.req.tally = some k then (s.rd R.core_TALLY c k + 1) % 65536 else s.rd R.core_TALLY c k) ∧
  (∀ (core : BitVec 9) (array : BitVec 6) (bank : BitVec 1) (reads : List CellRead) (s : State), s.alive = true →
    let c := core.toNat
    let b := bank.toNat
    let old := s.bank c array.toNat b
    let m := s.leastMargin c b (reads.filter (fun x => x.array == array && !s.cellBad c b x))
    s.Runs (.marginSample core array bank reads) fun t => t.mem = s.mem ∧
      t.bank c array.toNat b = { old with margin := if old.sampled then min old.margin m else m, sampled := true }) ∧
  (∀ (core : BitVec 9) (done : RepairFindings) (s : State) (p : Pass),
    let c := core.toNat
    let a := done.array.toNat
    s.alive = true → (s.core c).passes.find? (fun p => (p.kind == .repair || p.kind == .replace) && p.running && p.code.isNone &&
      p.arrays == [a]) = some p → s.pass c p.id = some p → p.kind = .repair → s.waitsGrant c p = false →
    ((s.arrayFill c a p.bank).isSome = true → done.found.cells = [] → s.Runs (.repairDone core done) fun t =>
      t.pass c p.id = some { p with running := false, code := some 0 } ∧ t.rd R.we_WE_REPAIRS c = satAdd32 (s.rd R.we_WE_REPAIRS c) 1 ∧
      t.bank c a p.bank = { s.bank c a p.bank with
        wear := (s.bank c a p.bank).wear + (if p.hot || s.coreHot c then 2 else 1)
        fixes := (s.bank c a p.bank).fixes.map (fun f => if f.job = p.id then { f with done := true } else f) }) ∧
    (s.arrayFill c a p.bank = none → s.Runs (.repairDone core done) fun t => t.pass c p.id = some { p with running := false, code := some 0x49 } ∧
      t.rd R.we_ERR_CODE c = 0x49 ∧ (t.bank c a p.bank).poisoned = (s.bank c a p.bank).poisoned)) ∧
  (∀ (core : BitVec 9) (array : BitVec 6) (s : State) (e : Nat × WSet),
    let c := core.toNat
    let a := array.toNat
    let b := 1 - s.activeBank c a
    (s.setsOn c [a]).find? (fun e => e.2.st b == 3) = some e → s.alive = true → s.flag R.we_AUTO_REFR c = true →
    s.belowThr c a b = true → s.queuedPasses c < 16 →
    (s.core c).passes.any (fun p => p.kind == .refresh && p.bank == b && p.arrays.contains a && p.code.isNone) = false →
    s.Runs (.autoRefresh core array) fun t => t.mem = s.mem ∧ ∃ p : Pass, (t.core c).passes = (s.core c).passes ++ [p] ∧ p.kind = .refresh ∧
      p.bank = b ∧ p.set = e.1 ∧ p.id = (s.core c).weNext ∧ p.arrays = s.flipGroup c e.1 ∧ p.running = false ∧ p.code = none) ∧
  (∀ (core : BitVec 9) (array : BitVec 6) (cols : List (BitVec 11)) (driver : Bool) (s : State), s.alive = true →
    let c := core.toNat
    let a := array.toNat
    let b := s.activeBank c a
    let bk := s.bank c a b
    let us := if driver then List.range 1024 else
      (((cols.map (·.toNat)).filterMap bk.serves).eraseDups).filter (fun u => !bk.fixes.any (fun f => f.col == u))
    let Queued := fun (t : State) (k : PassKind) => ∃ p : Pass, p ∈ (t.core c).passes ∧ p.kind = k ∧ p.arrays = [a] ∧ p.bank = b ∧
      p.running = false ∧ p.code = none
    s.Runs (.defectActive core array cols driver true) (fun t => Marks.has (t.core c).cal.badTable (a / 8) = true) ∧
    s.Runs (.defectActive core array cols driver false) fun t => t.mem = s.mem ∧
      (t.bank c a b).poisoned = (bk.poisoned ++ us).eraseDups ∧ t.rd R.arr_NEW_DEFECT c = 1 ∧
      t.rd R.arr_DEFECTS c = min (s.rd R.arr_DEFECTS c + 1) 0xFFFF ∧
      (driver = false → (∀ x ∈ cols, x.toNat < 1024) → bk.refBad.eraseDups.length ≤ 2 → us ≠ [] → us.length ≤ bk.freeSpares.length →
        (s.wearOk c b [a] (s.rd R.we_WE_CEIL c) = true → Queued t .repair ∧
          (t.bank c a b).fixes.map (fun f => (f.col, f.done)) = bk.fixes.map (fun f => (f.col, f.done)) ++ us.map (fun u => (u, false))) ∧
        (s.wearOk c b [a] (s.rd R.we_WE_CEIL c) = false → t.rd R.we_ERR_CODE c = 0x46 ∧ t.rd R.we_CEIL_HIT c = 1 ∧
          (t.bank c a b).fixes = bk.fixes)) ∧
      (driver = true → Tbl.get 0 (s.core c).swap a = 0 →
        (s.spareTaken c (a / 8) = false → s.spareWearOk c (a / 8) = true → Queued t .replace) ∧
        (s.spareTaken c (a / 8) = true → Marks.has (s.core c).retired (a / 8) = false → Marks.has (t.core c).retireDue (a / 8) = true)))

/-! ### Calibration -/

/-- A calibration run falls due with the cause of its first request (R243): CAL_FORCE with cause 3, the expiry of CAL_AGE with cause 2; a later
request leaves the cause. A due run starts at its slot unless the matrix engine is busy or a flip is in progress, which counts in CAL_WAIT (R245,
R248); at its end it is no longer due, counts in CAL_RUNS and waits for its adoption under the next run number, its target set holding what
was measured of sound columns; faults that it declares count in CAL_COLFAULT (R239 to R241, R250). -/
def Obligations.CalibrationRuns : Prop :=
  ∀ (core : BitVec 9) (s : State),
    let c := core.toNat
    let due := fun (cause : Nat) (t : State) => t.rd R.cal_DUE c = 1 ∧
      t.rd R.cal_DUE_CAUSE c = (if s.flag R.cal_DUE c then s.rd R.cal_DUE_CAUSE c else cause) ∧
      s.RegsOnly t [(R.cal_DUE, c, 0), (R.cal_DUE_CAUSE, c, 0)]
    (s.rd R.cal_DUE c ≤ 1 → s.inReplay c = false →
      (s.hostOk = true → s.Runs (.calForce core) (due 3)) ∧
      (s.alive = true → s.flag R.cal_CAL_AUTO c = true → (s.core c).cal.lastTime + 3600 * s.rd R.cal_CAL_AGE c ≤ s.now →
        s.Runs (.calAgeExpiry core) (due 2))) ∧
    (∀ at_, s.alive = true → s.flag R.cal_DUE c = true → s.flag R.cal_RUNNING c = false → (s.core c).cal.formed = false →
      s.slotOpen c = some at_ → s.inReplay c = false →
      ((s.matrixBusy c = true ∨ (s.core c).flip.isSome = true ∨ s.rd R.mgmt_FW_STATE = 6) →
        s.Runs (.calRunStart core) fun t => t.rd R.cal_CAL_WAIT c = satAdd32 (s.rd R.cal_CAL_WAIT c) 1 ∧ t.cyc = at_ % 2 ^ 17 ∧
          s.SameRegs t [(R.cal_CAL_WAIT, c, 0), (R.tick_CYCLE, 0, 0)] ∧ (t.core c).cal.tried = s.tickNum + 1 ∧ t.mem = s.mem) ∧
      (s.matrixBusy c = false → (s.core c).flip = none → s.rd R.mgmt_FW_STATE ≠ 6 → s.flag R.gov_HOLD = false →
        s.Runs (.calRunStart core) fun t => t.rd R.cal_RUNNING c = 1 ∧ t.cyc = at_ % 2 ^ 17 ∧ (t.core c).cal.formedT = s.coreTemp c ∧
          (t.core c).cal.startTick = s.tickNum ∧ (t.core c).cal.startCyc = at_ ∧ t.mem = s.mem)) ∧
    (∀ found : CalFindings, s.alive = true → s.flag R.cal_RUNNING c = true →
      s.Runs (.calRunEnd core found) fun t => t.rd R.cal_RUNNING c = 0 ∧ t.rd R.cal_DUE c = 0 ∧
        t.rd R.cal_CAL_RUNS c = satAdd32 (s.rd R.cal_CAL_RUNS c) 1 ∧ (t.core c).cal.formed = true ∧
        (t.core c).cal.formedRun = (s.core c).cal.runs + 1 ∧ t.mem = s.mem ∧
        (∀ m : CalMeas, found.cols = [m] → found.refs = [] →
          let f := s.arrayFaults c found m.array.toNat
          let key := calKey m.array.toNat (s.activeBank c m.array.toNat) m.pos.toNat
          let v := ((measGain m).toNat, measOffset m)
          (f.cols.contains m.pos.toNat = false → Tbl.find (t.core c).cal.frm key =
            if ((s.core c).cal.gain key, (s.core c).cal.offs key) = v then none else some v) ∧
          (f.cols.contains m.pos.toNat = true → (t.core c).cal.frm = []) ∧
          (f.faults ≠ 0 → t.rd R.cal_CAL_FAULT c = 1 ∧ t.rd R.cal_CAL_COLFAULT c = satAdd32 (s.rd R.cal_CAL_COLFAULT c) f.faults)))

/-! ### Ticks -/

/-- A tick edge on a device that has stopped only goes on counting: the tick number rises by 1 modulo 2^48, the cycle offset is 0, and nothing
but the logger's window changes beside them (R635). On a device that runs, the ending tick runs to its last cycle, a snapshot due latches, and
the edge takes its number and offset 0; then, in this order, come the marks, a period change, power, tiers and the partitions' go-ahead and
resets; the cores; enables, publications in ascending partition and CLOSEs; grants; admissions; and the work of the free pool (R66, R485). -/
def Obligations.TickEdges : Prop :=
  ∀ s : State, s.power.stages = true → s.power.latched = false → s.flag R.tick_RUNNING = true →
    let n := s.tickNum + 1
    (s.power.fatal = true → s.Runs .tickEdge fun t => t.tickNum = n % 2 ^ 48 ∧ t.cyc = 0 ∧
      s.KeepsRegs t [R.tick_NUM_LO, R.live_NUM_HI, R.tick_CYCLE] ∧ t = { s with regs := t.regs, log := t.log } ∧
      t.log.prev = s.log.prev ++ s.log.cur ∧ t.log.cur = []) ∧
    (s.power.fatal = false → s.rd R.tick_PERIOD_LOG2 ≤ 17 → s.Runs .tickEdge fun t => ∃ u a b c d : State,
      s.period - 1 ≤ u.cyc ∧ u.tickNum = s.tickNum ∧ u.mem = s.mem ∧ u.cores = s.cores ∧ u.parts = s.parts ∧ s.KeepsRegs u [R.tick_CYCLE] ∧
      a = (u.logEdge.snapLatch n).sampleEdge.numberEdge n ∧ a.tickNum = n % 2 ^ 48 ∧ a.cyc = 0 ∧ a.mem = s.mem ∧ a.cores = s.cores ∧
      b = ((List.range 64).foldl (fun s p => s.resetEdge p) ((List.range 64).foldl (fun s p => s.goEdge p)
        ((a.marksEdge.applyPeriod n).powerEdge.tierEdge.orderlyEdge.swapTake.handoffTest.repairEdge))).countSpans ∧
      c = b.coresEdge b.publishing ∧
      d = (List.range 64).foldl (fun s p => s.writeTierEvents p) ((List.range 64).foldl (fun s p => s.disableIdle p)
        (b.publishing.foldl (fun s p => s.publishEdge ((List.range 512).filter (fun i => (b.core i).cal.formed)) p)
          ((List.range 64).foldl (fun s p => (s.flipFails p).enableEdge p) c))).closeOrphans ∧
      t = ((List.range 64).foldl (fun s p => s.admitEdge p) (d.grantEdge b.publishing)).gleanTake.sendMarks)

/-- A tick mark that a module follows, with a number that it expects: that of the coming edge for a block mark, and for a FIELD mark that of an
edge 16,384 cycles less its delay after the arrival. Its port has delivered, with its elapsed delay as the port's sum, and on a block mark its
own path delay added (R62, R498); from the upstream port, which is the first mark's where there is none (log entry 50), it shows its phase
error and ALIGN_ERR above 2 ns, unless it came in a flit sent again (R460). Block marks come by TICK, FIELD marks by FIELD_TICK. -/
def Obligations.TickMarksAreTaken : Prop :=
  ∀ (port : BitVec 5) (num : BitVec 48) (period : BitVec 5) (elapsed : BitVec 20) (phase : Option (BitVec 16)) (field : Bool) (s : State),
    s.alive = true → s.flag R.tick_RUNNING = true → s.tickPort port.toNat = true → s.followsMarks = true → s.followsField = field →
    s.expectsMark ⟨port.toNat, num.toNat, period.toNat, elapsed.toNat, phase, field⟩ = true → s.flag R.tick_HOLDOVER = false →
    (field = false → num.toNat = s.tickNum + 1) ∧
    s.Runs (if field then .fieldTick port num period elapsed phase else .tick port num period elapsed phase) fun t =>
      Marks.has t.tick.seen port.toNat = true ∧
      Tbl.get 0 t.tick.sums port.toNat = elapsed.toNat + (if field then 0 else s.rd R.port_PATH_DELAY port.toNat) ∧
      (s.rd R.tick_UPPORT = 0x1F → t.rd R.tick_UPPORT = port.toNat) ∧
      (s.rd R.tick_UPPORT = 0x1F ∨ s.rd R.tick_UPPORT = port.toNat →
        (∀ x, phase = some x → t.rd R.tick_PHASE_ERR = x.toNat ∧ (32 < x.toInt.natAbs → t.rd R.tick_ALIGN_ERR = 1))) ∧
      (phase = none → t.rd R.tick_PHASE_ERR = s.rd R.tick_PHASE_ERR ∧ t.rd R.tick_ALIGN_ERR = s.rd R.tick_ALIGN_ERR) ∧
      t.mem = s.mem

/-- The loss of marks (R82, R83): after 2 edges without a mark from the upstream port the candidate with the least sum takes its place, by the
sums of the last edge at which every candidate delivered where there was one, else by those of the marks so far (log entry 50); after 4 without
any the module is in holdover; after 256 ticks of it every spanning partition is reset; and a mark with the module's own next number ends it. -/
def Obligations.MarksAreLostAndFound : Prop :=
  ∀ s : State, s.alive = true →
    (∀ n, s.flag R.tick_RUNNING = true → s.followsMarks = true → s.flag R.tick_HOLDOVER = false → 2 ≤ s.tick.missUp →
      leastPort (if s.tick.sumsAll = [] then s.tick.sums else s.tick.sumsAll) (s.tickPorts.filter (· != s.rd R.tick_UPPORT)) = some n →
      s.Runs .upstreamSwitch fun t => t.rd R.tick_UPPORT = n ∧ t.tick.missUp = 0 ∧ t.rd R.err_CNT_CORR = satAdd32 (s.rd R.err_CNT_CORR) 1 ∧
        s.KeepsRegs t [R.tick_UPPORT, R.err_CNT_CORR] ∧ t.mem = s.mem) ∧
    (s.flag R.tick_RUNNING = true → s.followsMarks = true → s.flag R.tick_HOLDOVER = false → 4 ≤ s.tick.missAll →
      s.Runs .holdoverEntry fun t => t.rd R.tick_HOLDOVER = 1 ∧ t.rd R.tick_SOURCE_OK = 0 ∧ t.tick.holdTicks = 0 ∧
        s.KeepsRegs t [R.tick_HOLDOVER, R.tick_SOURCE_OK, R.err_CNT_CORR] ∧ t.mem = s.mem) ∧
    (s.flag R.tick_HOLDOVER = true → 256 ≤ s.tick.holdTicks →
      s.Runs .holdoverTimeout fun t => (∀ p ∈ s.spanning, (t.part p).resetDue = some 3) ∧
        (∀ p, p < 64 → ¬ p ∈ s.spanning → t.part p = s.part p) ∧ s.KeepsRegs t [R.err_CNT_PFATAL] ∧ t.mem = s.mem) ∧
    (∀ (port : BitVec 5) (num : BitVec 48), s.flag R.tick_HOLDOVER = true → s.tickPort port.toNat = true → num.toNat = s.tickNum + 1 →
      s.mayRealign = true → s.Runs (.holdoverRealign port num) fun t => t.rd R.tick_HOLDOVER = 0 ∧ t.rd R.tick_SOURCE_OK = 1 ∧
        t.rd R.tick_UPPORT = port.toNat ∧ t.tick.missUp = 0 ∧ t.tick.missAll = 0 ∧ t.tick.holdTicks = 0 ∧
        s.KeepsRegs t [R.tick_HOLDOVER, R.tick_SOURCE_OK, R.tick_UPPORT] ∧ t.mem = s.mem)

/-- A period change (R55, R58, R59, R498): writing 1 to PERIOD_ARM shows the first refusal that applies in PCHG, or 1, and then the change waits
with its tick; at offset 0 of that tick the period changes, unless a master still has a partition enabled. A follower changes at the tick that
it has learnt or that this command names (log entry 50), under NUM_ERR where it has a partition enabled. The first edge (R560), once the clock
is locked: a master counts from the number that it holds, a member from that of its first mark, or in holdover where there is none. -/
def Obligations.PeriodAndFirstTick : Prop :=
  (∀ s : State,
      (s.hostOk = true → s.Runs .periodArm fun t => t.rd R.tick_PCHG = (if s.partBusy then 3 else if s.periodAt < s.tickNum + 16 then 4
          else if s.rd R.tick_NEXT_LOG2 < 12 ∨ 17 < s.rd R.tick_NEXT_LOG2 then 5 else if s.followsMarks then 6 else 1) ∧
        (t.rd R.tick_PCHG = 1 → t.tick.change = some (s.rd R.tick_NEXT_LOG2, s.periodAt)) ∧
        (t.rd R.tick_PCHG ≠ 1 → t.tick = s.tick) ∧ s.KeepsRegs t [R.tick_PCHG] ∧ t.mem = s.mem) ∧
      (∀ l at_, s.alive = true → s.flag R.tick_RUNNING = true → s.cyc = 0 → s.tick.change = some (l, at_) →
        s.followsMarks = true ∨ at_ ≤ s.tickNum → l ≤ 17 →
        s.Runs .periodChangeApply fun t => t.tick.change = none ∧ t.mem = s.mem ∧
          s.KeepsRegs t [R.tick_PERIOD_LOG2, R.tick_PCHG, R.tick_NUM_ERR] ∧
          if s.followsMarks = false ∧ s.partBusy = true then t.rd R.tick_PCHG = 3 ∧ t.period = s.period
          else t.rd R.tick_PERIOD_LOG2 = l ∧ t.period = 2 ^ l ∧ (s.followsMarks = false → t.rd R.tick_PCHG = 2) ∧
            (s.followsMarks = true → s.partBusy = true → t.rd R.tick_NUM_ERR = 1) ∧
            t.tick.history = (at_, s.rd R.tick_PERIOD_LOG2) :: s.tick.history)) ∧
  (∀ (mark : Option (BitVec 5 × BitVec 48)) (s : State), s.alive = true → s.mgmt.released = true → s.flag R.tick_RUNNING = false →
      3 ≤ s.rd R.mgmt_STAGE → s.rd R.mgmt_STAGE ≤ 8 →
      s.Runs (.firstTick mark) fun t => t.rd R.tick_RUNNING = 1 ∧ t.cyc = 0 ∧ t.mem = s.mem ∧
        (s.rd R.tick_ROLE ≠ 0 → t.rd R.tick_SOURCE_OK = 1 ∧ t.tickNum = s.tickNum) ∧
        (s.rd R.tick_ROLE = 0 → match mark with
          | some m => t.tickNum = m.2.toNat ∧ t.rd R.tick_SOURCE_OK = 1 ∧ t.rd R.tick_UPPORT = m.1.toNat
          | none => t.rd R.tick_HOLDOVER = 1 ∧ t.tickNum = s.tickNum))

/-! ### Frames -/

/-- The cut and the publish check come at their offsets, or later where the tick has gone on, and take the partitions in ascending order. At its
cut a complete frame with room in the trail is to be published at the next edge; one that is not complete slips by one tick and its STATE reads
slipping. A publish check on a device without spanning partitions changes nothing but the offset and the marks sent; a lead that holds
every done note of its frame names the next edge (R72, R74, R76). -/
def Obligations.FramesAreCut : Prop :=
  ∀ s : State, s.rd R.tick_PERIOD_LOG2 ≤ 17 →
    let cut := s.toCycle (s.period - 32)
    let check := s.toCycle (s.period - 2048)
    s.period - 32 ≤ cut.cyc ∧ s.cyc ≤ cut.cyc ∧ s.period - 2048 ≤ check.cyc ∧ s.cyc ≤ check.cyc ∧
    (s.alive = true → s.flag R.tick_RUNNING = true →
      (s.Runs .frameCut fun t => t = (List.range 64).foldl (fun s p => s.cutFrame p) cut ∧ t.cyc = cut.cyc ∧ t.mem = s.mem ∧
        t.cores = s.cores ∧ ∀ (p : Nat) (f : FrameSt), p < 64 → (s.part p).frame = some f → s.pstate p = 3 →
          f.admitTick + s.rd R.frm_FRAME_TICKS p ≤ s.tickNum + 1 → f.cutTick ≠ s.tickNum + 1 → f.pubAt = none →
          (s.span p = false → f.complete = true → s.flag R.trail_TR_FULL p = true ∨ (s.part p).trailOn = false →
            (t.part p).frame = some { f with pubAt := some (s.tickNum + 1) }) ∧
          (f.complete = false → t.rd R.frm_STATE p = 2 ∧ ∃ g : FrameSt, (t.part p).frame = some g ∧
            g.slips = f.slips + 1 ∧ g.pubAt = none ∧ g.seq = f.seq ∧ g.entries = f.entries)) ∧
      (s.Runs .publishCheck fun t => t = (List.range 64).foldl (fun s p => s.leadCheck p) check ∧
        ((∀ p, p < 64 → s.span p = false) → t = check))) ∧
    ∀ (p : Nat) (f : FrameSt), (s.part p).frame = some f → s.pstate p = 3 → f.pubAt = none →
      (s.span p = false → f.admitTick + s.rd R.frm_FRAME_TICKS p ≤ s.tickNum + 1 → f.cutTick ≠ s.tickNum + 1 → f.complete = true →
        s.trailRoom p f = true →
        ((s.cutFrame p).part p).frame = some { f with pubAt := some (s.tickNum + 1) } ∧ (s.cutFrame p).regs = s.regs) ∧
      (s.span p = true → s.isLead p = true → s.allDone p f = true → ∃ g : FrameSt, ((s.leadCheck p).part p).frame = some g ∧
        g.pubAt = some (s.tickNum + 1) ∧ g.seq = f.seq ∧ g.complete = f.complete)

/-- A frame that has done all that R71 names becomes complete; a verify pass with a draw missing fails its request with it (R415). On a member of a
spanning partition, once the trail has room, its STATE reads awaiting a publish note and its done note goes to the lead: the lead notes its own,
another member's leaves by the port of its route. A done note of a member joins those of its frame; a publish note names the edge of the
publication, or, come too late, resets the partition; and a frame that has slipped for FRAME_LIMIT ticks stops its cores and resets its partition
(R71, R74, R79). -/
def Obligations.FramesComplete : Prop :=
  ∀ (p : BitVec 6) (s : State) (f : FrameSt), s.alive = true → s.pstate p.toNat = 3 → (s.part p.toNat).frame = some f →
    let n := p.toNat
    let done := fun (dones : List Nat) (t : State) => ∃ g : FrameSt, (t.part n).frame = some g ∧ g.complete = true ∧ g.dones = dones ∧
      f.failed <+: g.failed ∧ { g with complete := false, failed := f.failed, dones := f.dones } = f
    let win := [R.win_ERR_CODE, R.win_ERR_REQ, R.win_ERR_VALID, R.pwin_W_ERRS, R.err_CNT_DEFER]
    (f.complete = false → s.frameDone n f = true →
      (s.span n = false → s.Runs (.frameComplete p) fun t => done f.dones t ∧ t.mem = s.mem ∧ t.cores = s.cores ∧ s.KeepsRegs t win) ∧
      (s.span n = true → (s.missingDraws n).trailRoom n f = true →
        (s.isLead n = true → s.Runs (.frameComplete p) fun t => done (f.dones ++ [s.selfMod]) t ∧ t.rd R.frm_STATE n = 3 ∧ t.mem = s.mem ∧
          t.cores = s.cores ∧ t.net = s.net ∧ s.KeepsRegs t (R.frm_STATE :: win)) ∧
        (∀ k, s.isLead n = false → let m := s.mkMsg 0x0A 0 n 561 (s.leadMod n) 561 f.seq.toNat
          msgDstMod m ≠ s.selfMod → s.routePort m = some k →
          s.Runs (.frameComplete p) fun t => done f.dones t ∧ t.rd R.frm_STATE n = 3 ∧ t.mem = s.mem ∧ t.cores = s.cores ∧
            (t.port k).queue = (s.port k).queue ++ [m] ∧ s.KeepsRegs t (R.frm_STATE :: R.rtr_GRAN_C :: win)))) ∧
    (∀ (member : BitVec 12) (seq : Word), s.span n = true → s.isLead n = true → f.seq = seq →
      s.Runs (.fdone p member seq) fun t => ∃ g : FrameSt, (t.part n).frame = some g ∧ member.toNat ∈ g.dones ∧ f.dones <+: g.dones ∧
        { g with dones := f.dones } = f ∧ t.regs = s.regs ∧ t.mem = s.mem) ∧
    (∀ edge : BitVec 48, s.span n = true →
      (s.tickNum < edge.toNat → s.Runs (.publish p edge) fun t => (t.part n).frame = some { f with pubAt := some edge.toNat } ∧
        t.regs = s.regs ∧ t.mem = s.mem) ∧
      (edge.toNat ≤ s.tickNum → (s.part n).resetDue = none → s.Runs (.publish p edge) fun t => (t.part n).resetDue = some 3 ∧
        s.KeepsRegs t [R.err_CNT_PFATAL] ∧ t.mem = s.mem)) ∧
    (s.rd R.frm_FRAME_LIMIT n ≤ f.slips → f.pubAt = none → (s.part n).resetDue = none →
      s.Runs (.frameWatchdog p) fun t => t.rd R.frm_STATE n = 4 ∧ (t.part n).resetDue = some 3 ∧ t.mem = s.mem ∧
        ∀ c, c ∈ s.coresOf n → ∀ e, t.rd (engState e) c = 5)

/-! ### The reduction and multicast network -/

/-- A router folds a circuit once every input of its node holds a slab and the sum has a place (R342): until then nothing changes. The sum goes
to the root, or into its parent's input; the inputs are freed, the fold counts, and a sum formed poisoned under a code counts in RED_ERR (R345).
A circuit entry whose stored check fails on this read, or has failed, resets its owner, and nothing folds (R355). A root's sum goes on once
credits allow: into the root core's window, where it takes its units and raises the circuit's tally, or is dropped where the window's check fails; or
as a RADD by a link port. Until then it is held. -/
def Obligations.ReductionsFold : Prop :=
  (∀ (router : BitVec 5) (circ : BitVec 8) (s : State),
    let r := router.toNat
    let c := circ.toNat
    let len := (nodeIns (s.node r c)).length
    let heads := (List.range len).filterMap (fun i => (s.nodeBuf r c i).head?)
    s.alive = true → bitOf (s.node r c) 0 = true → s.circValid c = true → s.circKind c = 0 → s.enabled (s.circOwner c) = true →
    (Marks.has s.net.circBad c = false →
      (∀ i, i < len → s.nodeBuf r c i = [] → s.Runs (.redFold router circ true) fun t => t = s) ∧
      (∀ x ovf code, sumHeads heads = some (x, ovf, code) → s.placeSum r c x = none → s.Runs (.redFold router circ true) fun t => t = s) ∧
      (∀ x ovf code u, sumHeads heads = some (x, ovf, code) → (∀ i, i < len → s.nodeBuf r c i ≠ []) → s.placeSum r c x = some u →
        s.Runs (.redFold router circ true) fun t => t.rd R.rtr_RED_SUMS r = satAdd32 (s.rd R.rtr_RED_SUMS r) 1 ∧ t.mem = s.mem ∧
          t.cores = s.cores ∧ (∀ i, i < len → t.nodeBuf r c i = (s.nodeBuf r c i).drop 1) ∧
          (bitOf (s.node r c) 1 = true → Tbl.get [] t.net.sums c = [x]) ∧
          (∀ r' entry i, bitOf (s.node r c) 1 = false → neighbour r (bitsOf (s.node r c) 2 5) = some (r', entry) →
            s.inputOf r' c entry = some i → t.nodeBuf r' c i = s.nodeBuf r' c i ++ [x]) ∧
          (code ≠ 0 → t.rd R.rtr_RED_ERR r = satAdd32 (s.rd R.rtr_RED_ERR r) 1 ∧ t.rd R.rtr_ERR_CODE r = code ∧ t.rd R.rtr_ERR_VALID r = 1))) ∧
    (∀ intact : Bool, intact = false ∨ Marks.has s.net.circBad c = true → (s.part (s.circOwner c)).resetDue = none →
      s.Runs (.redFold router circ intact) fun t => (t.part (s.circOwner c)).resetDue = some 3 ∧ Marks.has t.net.circBad c = true ∧
        t.net = { s.net with circBad := t.net.circBad } ∧ s.KeepsRegs t [R.err_CNT_PFATAL] ∧ t.mem = s.mem ∧ t.cores = s.cores)) ∧
  (∀ (circ : BitVec 8) (held : BitVec 32) (s : State) (x : Slab) (rest : List Slab),
    let c := circ.toNat
    let n := 1 + 2 * (x.grp + 1)
    let need := ceilDiv n 64
    let root := s.circRoot c
    let v := s.circWin c
    Tbl.get [] s.net.sums c = x :: rest → s.alive = true → s.circValid c = true → Marks.has s.net.circBad c = false →
    (root < 512 → Tbl.get 0 s.net.circCred c < need → s.Runs (.redDeliver circ held) fun t => t = s) ∧
    (root < 512 → need ≤ Tbl.get 0 s.net.circCred c → s.Runs (.redDeliver circ held) fun t => t = s.deliverSum c x held.toNat ∧
      Tbl.get [] t.net.sums c = [] ∧ Tbl.get 0 t.net.circCred c = Tbl.get 0 s.net.circCred c - need ∧
      let ok := s.winStatus { core := root, win := v, gen := Tbl.get 0 s.net.circGen c, part := s.circOwner c, hkind := 1, hmod := 0, hst := c
                              woff := (x.seq % (s.circNslot c + 1)) * s.circStride c, ngran := n, units := need } = 0
      (ok → t.rd R.wdw_WR_LANDED root v = satAdd32 (s.rd R.wdw_WR_LANDED root v) need ∧
        t.rd R.core_TALLY root (s.circTally c) = (s.rd R.core_TALLY root (s.circTally c) + 1) % 65536) ∧
      (¬ ok → t.rd R.wdw_WR_DROPPED root v = satAdd32 (s.rd R.wdw_WR_DROPPED root v) need ∧ t.mem = s.mem ∧ t.cores = s.cores ∧
        ∀ k, t.rd R.core_TALLY root k = s.rd R.core_TALLY root k)) ∧
    (536 ≤ root → root < 560 → ∀ i, (List.range 16).find? (fun i => s.flag R.port_VALID (root - 536) i && !s.flag R.port_DIR (root - 536) i &&
        s.rd R.port_LOCAL (root - 536) i == c && s.flag R.port_CONFIRMED (root - 536) i) = some i →
      (Tbl.get 0 s.net.slabCred c = 0 → s.Runs (.redDeliver circ held) fun t => t = s) ∧
      (Tbl.get 0 s.net.slabCred c ≠ 0 → s.portUp (root - 536) = true → s.Runs (.redDeliver circ held) fun t => Tbl.get [] t.net.sums c = [] ∧
        Tbl.get 0 t.net.slabCred c = Tbl.get 0 s.net.slabCred c - 1 ∧ t.mem = s.mem ∧ t.cores = s.cores ∧ t.parts = s.parts ∧
        ∃ m : LinkMsg, (t.port (root - 536)).queue = (s.port (root - 536)).queue ++ [m] ∧ m.type = 0x04 ∧ m.data = x.grans.map (·.1) ∧
          m.srcMod = BitVec.ofNat 16 s.selfMod ∧ m.dstSt = BitVec.ofNat 16 (536 + s.rd R.port_NPORT (root - 536)))))

/-- A multicast (R349 to R351): the acknowledgement of a target ends the wait for it, and marks it poisoned where its copy was not clean: a
granule poisoned, or the window's check failed. Once no wait is left the completion record is written, with the tick of the last
acknowledgement, and DONE counts what has left the queue in order. A router's buffer error is corrected and counted, or replaces the granule that
it meets on that branch by a poison note, in a multicast's copy, a slab, a message, a fetch or a store (R350); with no such granule nothing
changes. The host's writes to circuit entries, target lists and node entries are carried out for a circuit that is not valid or whose owner is
DISABLED, and otherwise discarded and logged (R340, R355). -/
def Obligations.CircuitsAndMulticasts : Prop :=
  (∀ (core : BitVec 9) (q : BitVec 3) (s : State),
      let c := core.toNat
      let sq := fun (t : State) => Tbl.get [] (t.core c).sqs q.toNat
      let ready := fun (x : SqEnt) => x.op == 0xA6 && x.read && !x.done && x.wait.isEmpty && x.num != 0x30
      (∀ (target : BitVec 6) (x : SqEnt), s.alive = true → s.findSq c q.toNat (mcWaits target.toNat) = some x →
        let k := sendCirc x.cmd
        let dst := s.mcTarget k target.toNat
        let status := s.winStatus { core := dst.st, win := dst.win, gen := Tbl.get 0 x.gens target.toNat, part := s.circOwner k, hkind := 0
                                    hmod := s.selfMod, hst := c, woff := x.cmd.fld 121 17, ngran := x.data.length
                                    units := ceilDiv x.data.length 64 }
        let clean := status = 0 ∧ ((List.range x.data.length).all fun i =>
          !(x.data.getD i ([], true)).2 && !x.noted.contains (target.toNat, i)) = true
        s.Runs (.mcAck core q target) fun t => sq t = updFirst (mcWaits target.toNat) (fun y => { y with
            wait := y.wait.filter (· != (65536 + target.toNat, target.toNat)), ackTick := s.tickNum
            poisMask := if clean then y.poisMask else y.poisMask ||| 2 ^ target.toNat }) (sq s) ∧
          s.KeepsRegs t [R.wdw_WR_LANDED, R.wdw_WR_DROPPED, R.wdw_WS_FAIL, R.rtr_GRAN_C] ∧ (status ≠ 0 → t.mem = s.mem)) ∧
      (∀ x : SqEnt, s.goesOn c = true → s.findSq c q.toNat ready = some x → s.hazLate c [(x.cmd.fld 141 17, 1)] = none →
        let all := sumN ((s.mcTargets (sendCirc x.cmd)).map (fun t => 2 ^ t.1))
        let l := updFirst ready (fun y => { y with done := true }) (sq s)
        let n := (l.takeWhile (fun x => x.read && x.done)).length
        s.Runs (.mcComplete core q) fun t => t.mem.loft = s.mem.loft.write (c * 8388608 + 64 * x.cmd.fld 141 17)
          (layout 64 [(0, 8, all - (all &&& x.poisMask)), (8, 8, x.poisMask), (16, 6, x.ackTick)]) ∧
          t.loftBad c (x.cmd.fld 141 17) = false ∧ sq t = l.drop n ∧
          t.rd R.core_SQ_DONE c q.toNat = (s.rd R.core_SQ_DONE c q.toNat + n) % 65536 ∧ s.SameRegs t [(R.core_SQ_DONE, c, q.toNat)])) ∧
  (∀ (router : BitVec 5) (core : BitVec 9) (q : BitVec 4) (hit : BufHit) (gran : BitVec 32) (s : State), s.alive = true →
      let r := router.toNat
      let c := core.toNat
      let g := gran.toNat
      (s.Runs (.poisonNote router core q hit gran true) fun t => t.rd R.rtr_BUF_CORR r = satAdd32 (s.rd R.rtr_BUF_CORR r) 1 ∧
        s.KeepsRegs t [R.rtr_BUF_CORR, R.err_CNT_CORR] ∧ t.cores = s.cores ∧ t.net = s.net ∧ t.mem = s.mem) ∧
      (s.noteGran r c q.toNat g hit = none → s.Runs (.poisonNote router core q hit gran false) fun t => t = s) ∧
      (∀ u, s.noteGran r c q.toNat g hit = some u → s.Runs (.poisonNote router core q hit gran false) fun t =>
        t.rd R.rtr_BUF_POISON r = satAdd32 (s.rd R.rtr_BUF_POISON r) 1 ∧ s.KeepsRegs t [R.rtr_BUF_POISON, R.err_CNT_DEFER] ∧ t.mem = s.mem ∧
        (∀ k i x rest, hit = .slab k i → s.nodeBuf r k.toNat i.toNat = x :: rest →
          t.nodeBuf r k.toNat i.toNat = x.spoilGran g :: rest ∧ t.cores = s.cores) ∧
        (∀ i m, hit = .message i → s.net.inbox[i.toNat]? = some m →
          t.net.inbox = s.net.inbox.set i.toNat (spoilMsg m g) ∧ t.cores = s.cores) ∧
        (hit = .fetch → Tbl.get [] (t.core c).fetchNoted q.toNat = Tbl.get [] (s.core c).fetchNoted q.toNat ++ [g] ∧ t.net = s.net) ∧
        (hit = .store → Tbl.get [] (t.core c).sqs q.toNat =
          updFirst onItsWay (fun y => { y with data := spoilAt g y.data }) (Tbl.get [] (s.core c).sqs q.toNat) ∧ t.net = s.net) ∧
        (∀ code x, hit = .multicast code → s.findSq c q.toNat (fun x => x.op == 0xA6 && x.read && !x.wait.isEmpty) = some x →
          let behind := (s.mcTargets (sendCirc x.cmd)).filter (fun t => (s.mcBehind (sendCirc x.cmd) r code.toNat).contains t.2.st &&
            x.wait.contains (65536 + t.1, t.1))
          behind ≠ [] ∧ Tbl.get [] (t.core c).sqs q.toNat = updFirst (fun x => x.op == 0xA6 && x.read && !x.wait.isEmpty) (fun y => { y with
            noted := y.noted ++ behind.map (fun t => (t.1, g)) }) (Tbl.get [] (s.core c).sqs q.toNat) ∧ t.net = s.net))) ∧
  (∀ (addr : BitVec 26) (value : Word) (s : State), s.hostOk = true →
      let a := addr.toNat
      let refused := s.Runs (.nodeWrite addr value) fun t => t.rd R.host_HAE_COUNT = satAdd32 (s.rd R.host_HAE_COUNT) 1 ∧
        s.KeepsRegs t [R.host_HAE_COUNT] ∧ t.net = s.net ∧ t.mem = s.mem ∧ t.cores = s.cores
      (0x208000 ≤ a → a < 0x20C000 → let c := (a - 0x208000) / 64
        let j := (a - 0x208000) % 64 / 4
        (s.circFree c = true → s.Runs (.nodeWrite addr value) fun t => t.rd R.tab_CIRC c j = value.toNat ∧ s.SameRegs t [(R.tab_CIRC, c, j)] ∧
          Marks.has t.net.circBad c = false ∧ t = { s with regs := t.regs, net := { s.net with circBad := t.net.circBad } }) ∧
        (s.circFree c = false → refused)) ∧
      (0x210000 ≤ a → a < 0x218000 → let c := (a - 0x210000) / 128
        let j := (a - 0x210000) % 128 / 4
        (s.circFree c = true → s.Runs (.nodeWrite addr value) fun t => t.rd R.tab_TGT c j = value.toNat ∧ s.RegsOnly t [(R.tab_TGT, c, j)]) ∧
        (s.circFree c = false → refused)) ∧
      (∀ r, r < 32 → let c := s.rd R.rtr_NODE_SEL r
        (a = 0x1000000 + 0x80000 * r + 0x7C34 ∨ a = 0x1000000 + 0x80000 * r + 0x7C38 → s.circFree c = false → refused) ∧
        (s.circFree c = true →
          (a = 0x1000000 + 0x80000 * r + 0x7C34 → s.Runs (.nodeWrite addr value) fun t =>
            t.node r c = s.node r c / 2 ^ 32 * 2 ^ 32 + value.toNat ∧ t.regs = s.regs ∧ t.mem = s.mem) ∧
          (a = 0x1000000 + 0x80000 * r + 0x7C38 → s.Runs (.nodeWrite addr value) fun t =>
            t.node r c = s.node r c % 2 ^ 32 + 2 ^ 32 * value.toNat ∧ t.regs = s.regs ∧ t.mem = s.mem))))

/-! ### The Winnow -/

/-- Draws (R391 to R405): a slice for a slot outside the partition's is an error; the first slice of a draw of more than one opens it, a later
one but the last joins it, and a draw of one clean slice, which no other of its request contradicts, waits with its 1,024 largest pairs; a waiting
draw starts where fewer than 16 run; a draw that finishes counts its cycles and holds its token; and a verify pass whose draws have all
finished is decided: its commit waits for the publication, unless one of the request's draws was refused under 0x74. -/
def Obligations.DrawsRun : Prop :=
  (∀ (core : BitVec 9) (q : BitVec 3) (s : State) (p : Nat) (x : SqEnt), s.alive = true → s.enabledOwner core.toNat = some p →
    (Tbl.get [] (s.core core.toNat).sqs q.toNat).find? (fun x => x.op == 0xA8 && x.read && x.num == 0) = some x →
    let slot := s.rd R.pwin_SLOT_BASE p + x.cmd.fld 145 10
    let n := wdReq x.cmd
    (s.rd R.pwin_SLOT_COUNT p ≤ x.cmd.fld 145 10 → s.Runs (.wdrawSlice core q) fun t => t.rd R.win_ERR_CODE = 0x70 ∧
      t.rd R.win_ERR_VALID = 1 ∧ t.rd R.win_ERR_REQ = n ∧ t.rd R.pwin_W_ERRS p = satAdd32 (s.rd R.pwin_W_ERRS p) 1 ∧
      t.winnow = s.winnow ∧ t.mem = s.mem) ∧
    (x.cmd.fld 145 10 < s.rd R.pwin_SLOT_COUNT p → s.draw slot = none → wdMode x.cmd ≠ 3 →
      (x.cmd.fld 177 8 ≠ 0 → s.Runs (.wdrawSlice core q) fun t => t.mem = s.mem ∧ ∃ d : Draw, t.winnow.draws = s.winnow.draws ++ [d] ∧
        d.slot = slot ∧ d.part = p ∧ d.req = n ∧ d.mode = wdMode x.cmd ∧ d.out = wdOut x.cmd ∧ d.nslice = x.cmd.fld 177 8 ∧ d.arrived = 1 ∧
        d.stage = 0 ∧ d.code = s.sliceCode p x.cmd x.data ∧ d.pairs = if d.code = 0 then slicePairs x.data else []) ∧
      (x.cmd.fld 177 8 = 0 → s.sliceCode p x.cmd x.data = 0 →
        (∀ y ∈ s.drawsOf p n, 1 ≤ y.stage → y.code ≠ 0x78 → y.mode = wdMode x.cmd ∧ y.out ≠ wdOut x.cmd ∧ y.code ≠ 0x72) →
        (∀ d : Draw, d.req = n → d.mode = wdMode x.cmd → d.out = wdOut x.cmd → s.drawCode d = 0) →
        s.Runs (.wdrawSlice core q) fun t => t.mem = s.mem ∧ ∃ d : Draw, t.winnow.draws = s.winnow.draws ++ [d] ∧ d.slot = slot ∧ d.part = p ∧
          d.req = n ∧ d.stage = 1 ∧ d.code = 0 ∧ d.order = s.winnow.arrivals ∧ d.pairs = (sortPairs (slicePairs x.data)).take 1024)) ∧
    (x.cmd.fld 145 10 < s.rd R.pwin_SLOT_COUNT p → ∀ d, s.draw slot = some d → d.stage = 0 → d.arrived < d.nslice →
      s.Runs (.wdrawSlice core q) fun t => t.mem = s.mem ∧ ∃ d' : Draw,
        t.winnow.draws = s.winnow.draws.map (fun y => if y.slot = slot then d' else y) ∧ d'.arrived = d.arrived + 1 ∧ d'.stage = 0 ∧
        d'.pairs = (if s.sliceCode p x.cmd x.data = 0 then d.pairs ++ slicePairs x.data else d.pairs) ∧ (d.code ≠ 0 → d'.code = d.code))) ∧
  (∀ (s : State) (d : Draw), s.nextDraw = some d → s.alive = true → (s.winnow.draws.filter (fun x => x.stage == 2)).length < 16 →
    s.Runs .drawStart fun t => t.regs = s.regs ∧ t.mem = s.mem ∧
      t.winnow.draws = s.winnow.draws.map (fun x => if x.slot = d.slot then { x with stage := 2 } else x)) ∧
  (∀ (slot : BitVec 10) (s : State) (d : Draw), s.draw slot.toNat = some d → s.alive = true → d.stage = 2 →
    s.Runs (.drawDone slot) fun t => t.rd R.win_W_BUSY_CYC = satAdd32 (s.rd R.win_W_BUSY_CYC) (96 + d.pairs.length) ∧
      (if d.mode = 1 then t.rd R.win_DRAFT_DRAWS = satAdd32 (s.rd R.win_DRAFT_DRAWS) 1
      else t.rd R.win_DRAWS = satAdd32 (s.rd R.win_DRAWS) 1) ∧
      let r := (s.readCounts d.part d.req (d.pairs.map (·.1))).1.runDraw d
      t.draw slot.toNat = some { r with code := if d.code = 0 then r.code else d.code, stage := 3 }) ∧
  (∀ (p : BitVec 6) (req : BitVec 16) (s : State) (f : FrameSt), s.alive = true → (s.part p.toNat).frame = some f →
    let n := req.toNat
    (∀ k ∈ f.commits, k.req ≠ n) →
    (∀ i, i ≤ (s.req n).kround → ∃ d ∈ s.drawsOf p.toNat n, d.mode = 0 ∧ d.stage = 3 ∧ d.code ≠ 0x78 ∧ d.out = i) →
    ((∃ d ∈ s.drawsOf p.toNat n, d.code = 0x74) → s.Runs (.verifyDecide p req) fun t => t = s) ∧
    ((∀ d ∈ s.drawsOf p.toNat n, d.code ≠ 0x74) → s.Runs (.verifyDecide p req) fun t => t.winnow = s.winnow ∧ ∃ (g : FrameSt) (k : Commit),
      (t.part p.toNat).frame = some g ∧ g.commits = f.commits ++ [k] ∧ { k with full := false } = s.commitOf p.toNat n 0 (s.advancePend p.toNat n)))

/-! ### The tier manager -/

/-- The tier commands of a function on a request of its range whose entry reads clean (R382, R383, R694): where the request's state allows the
command it has its effect, and HRES of the function's command registers reads 2; where not, HRES reads 3 with the code, and the request's
entry stands. Pool pressure parks idle requests, longest idle first, until POOL_FREE and the pages being freed reach POOL_LOW (R379); a
write to SILO_COUNT waits for the next edge and clears SILO_ERR (R381); RQ_SEL shows the selected entry's 256 bytes in RQ_DATA (R386). -/
def Obligations.TierCommandsAndRegisters : Prop :=
  (∀ (fn : BitVec 7) (req : BitVec 16) (s : State), s.alive = true → s.booted = true → 1 ≤ fn.toNat → fn.toNat ≤ 64 →
      let f := fn.toNat
      let n := req.toNat
      let p := f - 1
      let v := (s.entryRead n).1
      let e := s.req n
      s.inRange p n = true → (s.entryRead n).2 = false →
      let res := fun (r code : Nat) (t : State) => t.rd R.live_V_HRES f = r ∧ t.rd R.live_V_HRES_CODE f = code
      let live := 1 ≤ e.tstate ∧ e.tstate ≤ 5
      (∀ addr : BitVec 36, (v.readOpen p n addr.toNat).openCode p n addr.toNat = 0 →
        s.Runs (.openCmd fn req addr) fun t => res 2 0 t ∧ (t.req n).tstate = 1 ∧ (t.req n).owner = p ∧ (t.req n).len = 0 ∧
          t.tier.opening = s.tier.opening ++ [n]) ∧
      (∀ addr : BitVec 36, e.tstate ≠ 0 → s.Runs (.openCmd fn req addr) fun t => res 3 0x62 t ∧ t.tier = s.tier) ∧
      (∀ addr : BitVec 36, let code := (v.readOpen p n addr.toNat).openCode p n addr.toNat
        code ≠ 0 → s.Runs (.openCmd fn req addr) fun t => res 3 code t ∧ t.tier = s.tier) ∧
      (e.tstate ≠ 0 → s.Runs (.close fn req) fun t => res 2 0 t ∧ n ∈ t.tier.closing ∧ t.req n = e) ∧
      (e.tstate = 0 → s.Runs (.close fn req) fun t => res 3 0x65 t ∧ t.tier = s.tier) ∧
      (e.tstate = 2 → (v.livePages p n).length ≤ (v.freeSilo p).length → s.Runs (.parkCmd fn req) fun t => res 2 0 t ∧ (t.req n).tstate = 3) ∧
      (e.tstate = 2 → (v.freeSilo p).length < (v.livePages p n).length → s.Runs (.parkCmd fn req) fun t => res 2 0 t ∧ t.req n = e ∧
        n ∈ t.tier.siloFull) ∧
      (e.tstate ≠ 2 → s.Runs (.parkCmd fn req) fun t => res 3 0x65 t ∧ t.tier = s.tier) ∧
      (e.tstate = 3 → s.Runs (.resume fn req) fun t => res 2 0 t ∧ (t.req n).tstate = 2) ∧
      (e.tstate = 4 → s.Runs (.resume fn req) fun t => res 2 0 t ∧ (t.req n).tstate = 5) ∧
      (e.tstate ≠ 3 → e.tstate ≠ 4 → s.Runs (.resume fn req) fun t => res 3 0x65 t ∧ t.tier = s.tier) ∧
      (∀ sec : BitVec 32, live → sec.toNat ≤ 86400 → s.Runs (.setTtl fn req sec) fun t => res 2 0 t ∧
        t.req n = { e with ttl := if sec.toNat = 0 then s.rd R.ptier_TTL_DEF p else sec.toNat }) ∧
      (∀ sec : BitVec 32, live → 86400 < sec.toNat → s.Runs (.setTtl fn req sec) fun t => res 3 0x63 t ∧ t.tier = s.tier) ∧
      (∀ sec : BitVec 32, ¬ live → s.Runs (.setTtl fn req sec) fun t => res 3 0x65 t ∧ t.tier = s.tier) ∧
      (∀ pinned : Bool, live → s.Runs (.pin fn req pinned) fun t => res 2 0 t ∧
        t.req n = { e with flags := e.flags % 8 + 8 * b2n pinned }) ∧
      (∀ pinned : Bool, ¬ live → s.Runs (.pin fn req pinned) fun t => res 3 0x65 t ∧ t.tier = s.tier)) ∧
  ((∀ (p : BitVec 6) (s : State) (n : Nat) (rest : List Nat), s.alive = true → s.fwRuns = true → s.enabled p.toNat = true →
      s.rd R.ptier_POOL_FREE p.toNat < s.rd R.ptier_POOL_LOW p.toNat → s.idleRequests p.toNat = n :: rest →
      let u := (s.entryRead n).1
      (s.rd R.ptier_POOL_LOW p.toNat ≤ s.rd R.ptier_POOL_FREE p.toNat + s.freeing p.toNat → s.Runs (.poolPressure p) fun t => t = s) ∧
      (s.rd R.ptier_POOL_FREE p.toNat + s.freeing p.toNat < s.rd R.ptier_POOL_LOW p.toNat → (s.entryRead n).2 = false →
        s.Runs (.poolPressure p) fun t => (∀ k, ¬ k ∈ n :: rest → t.req k = s.req k) ∧
          ((u.livePages p.toNat n).length ≤ (u.freeSilo p.toNat).length → (t.req n).tstate = 3) ∧
          t = rest.foldl (fun s k => s.pressPark p.toNat k) (u.beginPark p.toNat n))) ∧
    (∀ (p : BitVec 6) (value : BitVec 26) (s : State), s.hostOk = true → s.Runs (.siloCountWrite p value) fun t =>
      t.rd R.ptier_SILO_ERR p.toNat = 0 ∧ Tbl.find t.tier.siloCount p.toNat = some value.toNat ∧
        t.rd R.ptier_SILO_COUNT p.toNat = s.rd R.ptier_SILO_COUNT p.toNat ∧ t.mem = s.mem ∧ s.KeepsRegs t [R.ptier_SILO_ERR]) ∧
    (∀ (sel : BitVec 16) (s : State), s.hostOk = true → (s.entryRead sel.toNat).2 = false → s.Runs (.rqSel sel) fun t =>
      t.rd R.tm_RQ_SEL = sel.toNat ∧ t.tier = s.tier ∧
        ∀ i, i < 64 → t.rd R.tm_RQ_DATA 0 i = leNat (((s.req sel.toNat).bytes.drop (4 * i)).take 4)))

/-- The moves of requests between Granary and Silo and the deadlines (R370 to R377): each event takes its request to its next state. A deadline
that finds the request's entry unclean starts nothing (R359), and an idle one that the Silo list cannot take reports SILO_FULL (R373). Moves take turns, one page at a
time, in the order in which they started. -/
def Obligations.TierMoves : Prop :=
  ∀ (req : BitVec 16) (s : State), s.alive = true →
    let n := req.toNat
    let p := s.reqPart n
    let e := s.req n
    (e.tstate = 1 → s.Runs (.openDone req) fun t => (t.req n).tstate = 2 ∧ ¬ n ∈ t.tier.opening) ∧
    (e.tstate = 2 → s.flag R.ptier_AUTO_PARK p = true → bitOf e.flags 3 = false → s.idleDue n = true → ¬ n ∈ s.tier.rewrite →
      let u := (s.entryRead n).1
      ((s.entryRead n).2 = false → (u.livePages p n).length ≤ (u.freeSilo p).length → s.Runs (.idleDeadline req) fun t =>
        (t.req n).tstate = 3 ∧ ∃ m : Move, t.tier.moves = addMove m s.tier.moves ∧ m.req = n ∧ m.park = true ∧ m.begun = true ∧ m.start = s.tickNum ∧
          m.left.map (fun x => x.page) = u.livePages p n) ∧
      ((s.entryRead n).2 = false → (u.freeSilo p).length < (u.livePages p n).length → s.Runs (.idleDeadline req) fun t =>
        t.req n = e ∧ n ∈ t.tier.siloFull ∧ t.tier.moves = s.tier.moves) ∧
      ((s.entryRead n).2 = true → s.Runs (.idleDeadline req) fun t => t.req n = e)) ∧
    (e.tstate = 4 → s.ttlDue n = true → ¬ n ∈ s.tier.rewrite →
      ((s.entryRead n).2 = false → s.Runs (.ttlDeadline req) fun t => (t.req n).tstate = 6 ∧
        t.rd R.ptier_EXPIRIES p = satAdd32 (s.rd R.ptier_EXPIRIES p) 1) ∧
      ((s.entryRead n).2 = true → s.Runs (.ttlDeadline req) fun t => t.req n = e)) ∧
    ∀ m : Move, s.tier.moves.find? (fun m => m.req == n) = some m →
      (m.park = true → m.left = [] → m.cancel = false → s.Runs (.parkDone req) fun t => (t.req n).tstate = 4 ∧
        (t.req n).pagesS = m.done.length ∧ t.rd R.ptier_PARKS p = satAdd32 (s.rd R.ptier_PARKS p) 1 ∧
        t.tier.moves = s.tier.moves.filter (fun x => x.req != n)) ∧
      (m.park = true → s.Runs (.parkAbort req) fun t => (t.req n).tstate = 2 ∧ t.rd R.ptier_SILO_ERR p = 1 ∧
        t.tier.moves = s.tier.moves.filter (fun x => x.req != n)) ∧
      (m.park = false → m.begun = false →
        let k := ((List.range (s.viewPages p)).filter (fun l => decide (0 < l) && (s.mapEnt p n l).where_ == 2)).length
        ((s.freePages p).length < k → s.Runs (.returnStart req) fun t => t = s) ∧
        (k ≤ (s.freePages p).length → s.Runs (.returnStart req) fun t => ∃ x : Move, t.tier.moves.find? (fun m => m.req == n) = some x ∧
          x.begun = true ∧ x.left.length = k ∧ x.done = m.done ∧ x.left.map (fun y => y.gran) = (s.freePages p).take k)) ∧
      (m.park = false → m.begun = true → m.left = [] → m.bad = false → s.Runs (.returnDone req) fun t => (t.req n).tstate = 2 ∧
        (t.req n).pagesG = m.done.length ∧ (t.req n).pagesS = 0 ∧ t.rd R.ptier_RETURNS p = satAdd32 (s.rd R.ptier_RETURNS p) 1) ∧
      (m.park = false → s.Runs (.returnFail req) fun t => (t.req n).tstate = 7 ∧
        t.rd R.err_CNT_DEFER = satAdd32 (s.rd R.err_CNT_DEFER) 1) ∧
      (∀ k, s.nextMove = some k → k.req ≠ n → s.Runs (.tierPageMove req) fun t => t = s) ∧
      (∀ x rest, m.left = x :: rest → s.nextMove = some m →
        (m.park = true → s.Runs (.tierPageMove req) fun t => t.rd R.tm_BYTES_OUT = satAdd32 (s.rd R.tm_BYTES_OUT) 1 ∧ t.tier.mover = some n ∧
          t.tier.moves = s.tier.moves.map (fun y => if y.req = n then
            { y with left := rest, done := y.done ++ [(s.parkPage p n x).2] } else y)) ∧
        (m.park = false → s.Runs (.tierPageMove req) fun t => t.rd R.tm_BYTES_IN = satAdd32 (s.rd R.tm_BYTES_IN) 1 ∧ t.tier.mover = some n ∧
          t.tier.moves = s.tier.moves.map (fun y => if y.req = n then
            { y with left := rest, done := y.done ++ [x], bad := !(s.returnPage p x).2 } else y)))


/-! ### The Ewebo Link -/

/-- What starts a train (R447, R452): ENABLE set on a port that may train, RETRAIN, the partner's training on a port that is down or up, 100 ms
after a failure, and an event of R452 on an up link. The port leaves the up state and reads STATE 1; RETRAINS counts every train after its first;
a train is quick only where it is not asked to be full and a full one has succeeded with this partner. Clearing ENABLE takes the port down, unless the circuit switch binds it. -/
def Obligations.TrainingsStart : Prop :=
  ∀ (port : BitVec 5) (s : State), port.toNat < 24 →
    let n := port.toNat
    let Trains := fun (i : Instr) (full : Bool) => s.Runs i fun t => t.rd R.port_STATE n = 1 ∧ t.rd R.port_WIDTH n = 0 ∧
      t.rd R.port_RETRAINS n = (if (s.port n).trained then satAdd32 (s.rd R.port_RETRAINS n) 1 else s.rd R.port_RETRAINS n) ∧
      (t.port n).trained = true ∧ (t.port n).quick = (!full && (s.port n).fullDone) ∧ (t.port n).replay = (s.port n).replay ∧
      (t.port n).queue = (s.port n).queue ∧ t.mem = s.mem ∧
      s.KeepsRegs t [R.port_ENABLE, R.port_STATE, R.port_WIDTH, R.port_RETRAINS, R.err_CNT_CORR]
    let strap := s.strapsLet
    (s.hostOk = true → s.flag R.port_ENABLE n = false → s.rd R.port_STATE n ≠ 7 → strap = true → Trains (.portEnable port true) true) ∧
    (s.hostOk = true → s.flag R.port_ENABLE n = true → s.rd R.port_STATE n ≠ 7 → s.Runs (.portEnable port false) fun t =>
      t.rd R.port_ENABLE n = 0 ∧ t.rd R.port_STATE n = 0 ∧ t.rd R.port_WIDTH n = 0 ∧ (t.port n).replay = [] ∧ (t.port n).sent = [] ∧
      t.rd R.port_LOST n = satAdd32 (s.rd R.port_LOST n) ((s.port n).sent.length + (s.port n).queue.length) ∧ t.mem = s.mem) ∧
    (s.hostOk = true → s.flag R.port_ENABLE n = true → s.rd R.port_STATE n = 7 → s.Runs (.portEnable port false) fun t =>
      t.rd R.port_ENABLE n = 0 ∧ s.RegsOnly t [(R.port_ENABLE, n, 0)]) ∧
    (s.hostOk = true → s.mayTrain n = true → Trains (.retrain port) true) ∧
    (∀ full, s.mayTrain n = true → s.rd R.port_STATE n = 0 ∨ s.rd R.port_STATE n = 5 → Trains (.partnerTrain port full) full) ∧
    (s.mayTrain n = true → s.rd R.port_STATE n = 6 → Trains (.trainRetry port) true) ∧
    (∀ cause : BitVec 2, s.mayTrain n = true → s.rd R.port_STATE n = 5 → cause ≠ 2 ∨ (∃ h ∈ (s.port n).replay, 16 ≤ h.sends) →
      Trains (.quickTrain port cause) false)

/-- How a train ends (R447 to R453, R494): the first check that fails gives FAIL_CODE and STATE 6; otherwise the link comes up with the width
that its lanes allow (a quick train keeps a width that is less), its path delay and its neighbour, and sends again what was not
acknowledged. A failed port hands its messages back and counts them in LOST (R461). The timing exchange moves PATH_DELAY by at most one
step towards the delay measured (R450). -/
def Obligations.TrainingsEnd : Prop :=
  ∀ (port : BitVec 5) (s : State), port.toNat < 24 →
    let n := port.toNat
    (∀ found, s.mayTrain n = true → s.rd R.port_STATE n = 1 →
      let full := !(s.port n).quick
      let code := (s.showTrain n found full).trainCode n found full
      (code ≠ 0 → s.Runs (.trainDone port found) fun t => t.rd R.port_STATE n = 6 ∧ t.rd R.port_FAIL_CODE n = code ∧ t.rd R.port_WIDTH n = 0 ∧
        t.rd R.port_LANES_OK n = found.lanes.toNat ∧ t.mem = s.mem) ∧
      (code = 0 → s.Runs (.trainDone port found) fun t => t.rd R.port_STATE n = 5 ∧ t.rd R.port_PATH_DELAY n = found.delay.toNat ∧
        t.rd R.port_WIDTH n = (let best := laneWidth found.lanes (s.rd R.port_WIDTH_MIN n)
          if full then best else min best (s.port n).lastWidth) ∧
        t.rd R.port_NPOS n = found.npos.toNat ∧ t.rd R.port_NBLK n = found.nblk.toNat ∧ t.rd R.port_NPORT n = found.nport.toNat ∧
        t.rd R.port_NVALID n = 1 ∧ (t.port n).again = (s.port n).replay.map (·.seq) ∧ (t.port n).quick = false ∧ t.mem = s.mem)) ∧
    (∀ code : BitVec 8, s.mayTrain n = true → s.rd R.port_STATE n = 1 → s.Runs (.trainFail port code) fun t => t.rd R.port_STATE n = 6 ∧
      t.rd R.port_FAIL_CODE n = code.toNat ∧ t.rd R.err_CNT_CORR = satAdd32 (s.rd R.err_CNT_CORR) 1 ∧ t.mem = s.mem ∧
      s.KeepsRegs t [R.port_STATE, R.port_WIDTH, R.port_FAIL_CODE, R.err_CNT_CORR]) ∧
    (s.alive = true → s.rd R.port_STATE n = 6 → s.Runs (.portFail port) fun t => (t.port n).replay = [] ∧ (t.port n).sent = [] ∧
      t.rd R.port_LOST n = satAdd32 (s.rd R.port_LOST n) ((s.port n).sent.length + (s.port n).queue.length) ∧ t.rd R.port_STATE n = 6 ∧
      t.mem = s.mem ∧ s.KeepsRegs t [R.port_LOST, R.rtr_GRAN_C, R.msg_NOTES_Q, R.err_CNT_PFATAL]) ∧
    (∀ delay : BitVec 20, s.alive = true → s.rd R.port_STATE n = 5 → s.Runs (.timingExchange port delay) fun t =>
      t.rd R.port_PATH_DELAY n = (if s.rd R.port_PATH_DELAY n < delay.toNat then s.rd R.port_PATH_DELAY n + 1
        else if delay.toNat < s.rd R.port_PATH_DELAY n then s.rd R.port_PATH_DELAY n - 1 else s.rd R.port_PATH_DELAY n) % 2 ^ 20 ∧
      t.rd R.port_RT n = t.roundTrip n % 65536 ∧ s.KeepsRegs t [R.port_PATH_DELAY, R.port_RT] ∧ t.mem = s.mem)

/-- A flit that leaves an up port (R454 to R457): while a replay runs and no tick mark can go before it, the next flit of the replay with its
first TXSTAMP; else with bytes to send, a credit and room, a new data flit, kept in the replay buffer; else an idle flit. Each goes to the lanes by
way of the port's coder at the port's width (R443, R444). A replay timeout has every flit of the buffer sent again. -/
def Obligations.FlitsGoOut : Prop :=
  ∀ (port : BitVec 5) (s : State), s.alive = true → port.toNat < 24 → s.rd R.port_STATE port.toNat = 5 →
    let n := port.toNat
    let q := s.port n
    let room := decide (0 < q.txCred) && decide (q.replay.length < 4096)
    let next := (q.again.head?).bind (fun i => q.replay.find? (fun h => h.seq == i))
    let filled := ((s.fillPayload n 64).port n).txBytes
    let coded := fun (t : State) (f : Flit) => (t.port n).wire = some f ∧ (t.port n).tx = q.tx.send (s.rd R.port_WIDTH n) f
    (∀ h, next = some h → (s.tickWaits n && room) = false → s.Runs (.flitTx port) fun t => (∃ f : Flit, coded t f ∧
      f.type = 1 ∧ f.replay = true ∧ f.seq = BitVec.ofNat 16 h.seq ∧ f.stamp = BitVec.ofNat 24 h.stamp ∧ f.payload = h.payload ∧ f.nak = q.nak) ∧
      (t.port n).again = q.again.drop 1 ∧ (t.port n).nak = false ∧ t.rd R.port_REPLAYED n = satAdd32 (s.rd R.port_REPLAYED n) 1 ∧
      (t.port n).txCred = q.txCred ∧ t.mem = s.mem ∧ s.KeepsRegs t [R.port_REPLAYED]) ∧
    (next = none ∨ s.tickWaits n = true → room = true → filled ≠ [] → s.Runs (.flitTx port) fun t => (∃ f : Flit,
      coded t f ∧ f.type = 1 ∧ f.replay = false ∧ f.seq = BitVec.ofNat 16 q.txSeq ∧
        f.payload = filled.take 242 ++ List.replicate (242 - (filled.take 242).length) 0 ∧ ∃ h, (t.port n).replay = q.replay ++ [h] ∧
        h.seq = q.txSeq ∧ h.sends = 1 ∧ h.payload = f.payload ∧ h.stamp = s.stampNow) ∧ (t.port n).txBytes = filled.drop 242 ∧
      (t.port n).txSeq = (q.txSeq + 1) % 65536 ∧ (t.port n).txCred = q.txCred - 1 ∧ (t.port n).nak = false ∧ t.mem = s.mem ∧
      s.KeepsRegs t [R.port_MSG_TX]) ∧
    (next = none → room = false ∨ filled = [] → s.Runs (.flitTx port) fun t => (∃ f : Flit, coded t f ∧
      f.type = 0 ∧ f.replay = false ∧ f.payload = List.replicate 242 0 ∧ f.nak = q.nak) ∧ (t.port n).replay = q.replay ∧
      (t.port n).txCred = q.txCred ∧ (t.port n).txSeq = q.txSeq ∧ t.regs = s.regs ∧ t.mem = s.mem) ∧
    s.Runs (.replayTimeout port) fun t => (t.port n).again = q.replay.map (·.seq) ∧ (t.port n).replay = q.replay ∧ t.regs = s.regs ∧ t.mem = s.mem

/-- A flit that arrives at an up port (R455 to R457): one whose codeword or CRC is bad is answered by a NAK and shifts nothing; of a good one the
acknowledgement, NAK and credits are taken; a data flit with the expected number is accepted, one number too high is discarded with one NAK
for the gap, and one seen before is discarded. An accepted flit that holds only padding leaves no bytes, and one that holds a message without data
for this module hands it on (R468). A codeword that arrives is decoded and its corrected symbols, or it as uncorrectable, counted (R446); an
alignment codeword starts the receiver's scrambler again (R445). -/
def Obligations.FlitsComeIn : Prop :=
  ∀ (port : BitVec 5) (cw crc : Bool) (fec : FecCounts) (s : State), s.alive = true → port.toNat < 24 → s.rd R.port_STATE port.toNat = 5 →
    let n := port.toNat
    let q := s.port n
    (∀ f : Flit,
      let dist := (f.seq.toNat + 65536 - q.rxExp) % 65536
      let credits := min 1024 (q.txCred + f.cred.toNat)
      (cw = false → s.Runs (.flitRx port (.flit f) cw crc fec) fun t => (t.port n).nak = true ∧ (t.port n).gap = true ∧
        (t.port n).rxExp = q.rxExp ∧ (t.port n).replay = q.replay ∧ t.rd R.port_CRC_ERR n = s.rd R.port_CRC_ERR n ∧ t.mem = s.mem) ∧
      (cw = true → crc = false → s.Runs (.flitRx port (.flit f) cw crc fec) fun t => (t.port n).nak = true ∧ (t.port n).gap = true ∧
        (t.port n).rxExp = q.rxExp ∧ (t.port n).replay = q.replay ∧ t.rd R.port_CRC_ERR n = satAdd32 (s.rd R.port_CRC_ERR n) 1 ∧
        t.mem = s.mem) ∧
      (cw = true → crc = true →
        (f.type ≠ 1 → s.Runs (.flitRx port (.flit f) cw crc fec) fun t => (t.port n).rxExp = q.rxExp ∧ (t.port n).txCred = credits ∧
          (t.port n).rxBytes = q.rxBytes ∧ t.mem = s.mem ∧ (f.nak = true → (t.port n).again = (t.port n).replay.map (·.seq))) ∧
        (f.type = 1 → 0 < dist → dist < 32768 → s.Runs (.flitRx port (.flit f) cw crc fec) fun t => (t.port n).rxExp = q.rxExp ∧
          (t.port n).nak = (q.nak || !q.gapNaked) ∧ (t.port n).gap = true ∧ (t.port n).gapNaked = true ∧ (t.port n).txCred = credits ∧
          (t.port n).rxBytes = q.rxBytes ∧ t.mem = s.mem) ∧
        (f.type = 1 → 32768 ≤ dist → s.Runs (.flitRx port (.flit f) cw crc fec) fun t => (t.port n).rxExp = q.rxExp ∧ (t.port n).nak = q.nak ∧
          (t.port n).txCred = credits ∧ (t.port n).rxBytes = q.rxBytes ∧ t.mem = s.mem) ∧
        (f.type = 1 → dist = 0 → q.gap = true → f.replay = false → s.Runs (.flitRx port (.flit f) cw crc fec) fun t =>
          (t.port n).rxExp = q.rxExp ∧ (t.port n).nak = true ∧ t.rd R.port_PROTO_ERR n = satAdd32 (s.rd R.port_PROTO_ERR n) 1 ∧ t.mem = s.mem) ∧
        (f.type = 1 → dist = 0 → q.gap = false ∨ f.replay = true →
          let m := decodeMsg (f.payload.take 32)
          let accepted := fun (t : State) => (t.port n).rxExp = (q.rxExp + 1) % 65536 ∧ (t.port n).rxAny = true ∧ (t.port n).gap = false ∧
            (t.port n).gapNaked = false ∧ (t.port n).credOwed = q.credOwed + 1 ∧ (t.port n).txCred = credits ∧ (t.port n).rxBytes = [] ∧
            t.mem = s.mem
          s.Runs (.flitRx port (.flit f) cw crc fec) (fun t => t = ((s.countFec n fec).takeAckNak n f).acceptFlit n f) ∧
          (q.rxBytes = [] → f.payload.headD 0 = 0 → s.Runs (.flitRx port (.flit f) cw crc fec) accepted) ∧
          (q.rxBytes = [] → f.payload.length = 242 → (∃ most, granLimits m.type.toNat = some (0, most)) → f.payload.getD 2 0 = 0 →
            f.payload.getD 3 0 = 0 → f.payload.getD 32 0 = 0 → s.protected n = false → msgDstMod m = s.selfMod →
            s.Runs (.flitRx port (.flit f) cw crc fec) fun t => accepted t ∧ t.net.inbox = s.net.inbox ++ [m] ∧
              t.rd R.port_MSG_RX n = satAdd32 (s.rd R.port_MSG_RX n) 1)))) ∧
    (∀ w : List (BitVec 10),
      (rsDecode (w.map (·.toNat)) = none → s.Runs (.flitRx port (.word w) cw crc fec) fun t =>
        t.rd R.port_FEC_UNCORR n = satAdd32 (s.rd R.port_FEC_UNCORR n) 1 ∧ t.rd R.port_FEC_CORR n = s.rd R.port_FEC_CORR n) ∧
      (∀ v hit, rsDecode (w.map (·.toNat)) = some (v, hit) → s.Runs (.flitRx port (.word w) cw crc fec) fun t =>
        t.rd R.port_FEC_CORR n = satAdd32 (s.rd R.port_FEC_CORR n) hit.length ∧ t.rd R.port_FEC_UNCORR n = s.rd R.port_FEC_UNCORR n)) ∧
    s.Runs (.flitRx port .align cw crc fec) fun t => (t.port n).rx = {} ∧ (t.port n).rxExp = q.rxExp ∧ (t.port n).replay = q.replay ∧
      (t.port n).rxBytes = q.rxBytes ∧ t.regs = s.regs ∧ t.mem = s.mem

/-- The circuit switch and the outer-port key (R488, R496): a write of SW_EN while an enabled partition uses either port is refused; otherwise it
is taken, two ports that it binds read STATE 7 and two that it unbinds go down. KEY_LOAD loads the key while its owner is DISABLED and starts
both message counts at 0; else it is refused. -/
def Obligations.PortsAreBoundAndKeyed : Prop :=
  ∀ (port peer : BitVec 5) (en : Bool) (s : State), s.hostOk = true → port.toNat < 24 →
    let a := port.toNat
    let b := peer.toNat
    let old := s.rd R.port_PEER a
    let refused := satAdd32 (s.rd R.host_HAE_COUNT) 1
    (s.portBusy a || s.portBusy b = true → s.Runs (.swEn port peer en) fun t => t.rd R.host_HAE_COUNT = refused ∧
      s.KeepsRegs t [R.host_HAE_COUNT] ∧ t.mem = s.mem ∧ t.net = s.net) ∧
    ((s.portBusy a || s.portBusy b) = false → s.Runs (.swEn port peer en) fun t => t.rd R.port_PEER a = b ∧ t.rd R.port_SW_EN a = b2n en ∧
      t.mem = s.mem ∧ (s.bound a old = false → t.bound a b = true → s.strapsLet = true → t.rd R.port_STATE a = 7 ∧ t.rd R.port_STATE b = 7 ∧
        t.rd R.port_WIDTH a = 0 ∧ t.rd R.port_WIDTH b = 0) ∧
      (s.bound a old = true → t.bound a old = false → t.rd R.port_STATE old = 0 ∧ (t.bound a b = false → t.rd R.port_STATE a = 0))) ∧
    (s.pstate (s.rd R.port_KEY_OWNER a) = 0 → s.Runs (.keyLoad port) fun t => t.rd R.port_KEY_LOADED a = 1 ∧ (t.port a).cntTx = 0 ∧
      (t.port a).cntRx = 0 ∧ (t.port a).saltTx = s.rd R.port_SALT_TX a ∧ (t.port a).saltRx = s.rd R.port_SALT_RX a ∧
      (t.port a).key = (List.range 8).flatMap (fun i => toLe 4 (s.rd R.port_KEY a i)) ∧ s.KeepsRegs t [R.port_KEY_LOADED] ∧ t.mem = s.mem) ∧
    (s.pstate (s.rd R.port_KEY_OWNER a) ≠ 0 → s.Runs (.keyLoad port) fun t => t.rd R.host_HAE_COUNT = refused ∧
      s.KeepsRegs t [R.host_HAE_COUNT] ∧ t.net = s.net ∧ t.mem = s.mem)

/-! ### Messages -/

/-- A message for another module is passed on and counted in MSG_FWD, whatever its type (R471). -/
def Obligations.MessagesArePassedOn : Prop :=
  ∀ (m : LinkMsg) (s : State), s.alive = true → msgDstMod m ≠ s.selfMod →
    let On := fun i => s.Runs i fun t => t.rd R.msg_MSG_FWD = satAdd32 (s.rd R.msg_MSG_FWD) 1 ∧ t.mem = s.mem ∧ t.cores = s.cores ∧
      s.KeepsRegs t [R.msg_MSG_FWD, R.msg_UNREACH, R.msg_NOTES_Q, R.rtr_GRAN_C, R.err_CNT_PFATAL]
    (m.type = 0x01 → On (.wwrite (some m))) ∧ (m.type = 0x02 → On (.wack (some m))) ∧ (m.type = 0x03 → On (.cgrant (some m))) ∧
    (m.type = 0x04 → On (.radd (some m))) ∧ (m.type = 0x07 → On (.poison (some m))) ∧ (m.type = 0x08 → On (.cset (some m))) ∧
    (m.type = 0x09 → On (.csetAck (some m))) ∧ (m.type = 0x0C → On (.commit (some m))) ∧ (m.type = 0x0D → On (.noteAck (some m))) ∧
    (m.type = 0x0E → ∀ taken, On (.mgmt (some m) taken))

/-- A remote write at its window (R474 to R478, R486): one that passes lands its granules with their poison, consumes one unit and counts in
WR_LANDED; one that fails is discarded and counts in WR_DROPPED; a POISON note in its place poisons what it would have written. Its
acknowledgement counts a write that did not land in WS_FAIL. A credit grant adds to the entry of its generation, makes one where there is
none, and is dropped and counted where 64 stand; a grant that closes the window removes the entry; and one for a circuit gives its root slab or
window credits, or takes them back (R480, R481). -/
def Obligations.WindowMessages : Prop :=
  ∀ (m : LinkMsg) (s : State), s.alive = true → msgDstMod m = s.selfMod → msgDstSt m < 512 →
    let c := msgDstSt m
    let v := msgWin m
    let e : CreditEnt := ⟨msgSrcMod m, msgSrcSt m, m.arg0.toNat % 16, bitsOf m.arg0.toNat 8 8, bitsOf m.arg0.toNat 16 12⟩
    (m.type = 0x01 → s.winStatus (winReq m m.data.length) = 0 → s.Runs (.wwrite (some m)) fun t =>
      t.mem = (s.landGrans c v (m.arg0.toNat % 2 ^ 17) (msgData m)).mem ∧ t.rd R.wdw_WR_LANDED c v = satAdd32 (s.rd R.wdw_WR_LANDED c v) 1 ∧
      (t.window c v).outstanding = (s.window c v).outstanding - 1 ∧ t.rd R.core_TALLY c (s.window c v).tally =
        (if msgRaise m then (s.rd R.core_TALLY c (s.window c v).tally + 1) % 65536 else s.rd R.core_TALLY c (s.window c v).tally)) ∧
    (m.type = 0x01 → s.winStatus (winReq m m.data.length) ≠ 0 → s.Runs (.wwrite (some m)) fun t => t.mem = s.mem ∧
      t.rd R.wdw_WR_DROPPED c v = satAdd32 (s.rd R.wdw_WR_DROPPED c v) 1 ∧ t.cores = s.cores) ∧
    (m.type = 0x07 → msgRed m = false → s.winStatus (winReq m (m.arg1.toNat % 65536)) = 0 → s.Runs (.poison (some m)) fun t =>
      t.rd R.wdw_WR_LANDED c v = satAdd32 (s.rd R.wdw_WR_LANDED c v) 1 ∧ t.fresh = s.fresh + m.arg1.toNat % 65536 ∧
      (t.window c v).outstanding = (s.window c v).outstanding - 1 ∧ ∀ i, i < m.arg1.toNat % 65536 →
        let g := s.winGran c v + m.arg0.toNat % 2 ^ 17 + i
        g < 131072 → t.loftBad c g = true) ∧
    (m.type = 0x02 → let num := m.arg0.toNat % 65536
      let st := m.arg0.toNat / 65536 % 256
      match (List.range 8).find? (fun q => (s.findSq c q (awaits num)).isSome) with
      | none => s.Runs (.wack (some m)) fun t => t = s
      | some q => s.Runs (.wack (some m)) fun t =>
        t.rd R.wdw_WS_FAIL c = (if 2 ≤ st then satAdd32 (s.rd R.wdw_WS_FAIL c) 1 else s.rd R.wdw_WS_FAIL c) ∧ t.mem = s.mem ∧
        (st < 2 → t = (s.updSq c q (awaits num) (fun x => x.acked num st s.tickNum)).drainSq c q)) ∧
    (m.type = 0x03 → msgRed m = false → msgClosed m = false → (s.enabledOwner c).isSome = true →
      (∀ old, s.credit c e.mod_ e.core e.win = some old → s.Runs (.cgrant (some m)) fun t => t.credit c e.mod_ e.core e.win =
        some (if old.gen = e.gen then { old with credits := old.credits + e.credits } else e) ∧ t.mem = s.mem ∧ s.KeepsRegs t [R.wdw_CRED_ENTRIES]) ∧
      (s.credit c e.mod_ e.core e.win = none → (s.core c).credits.length < 64 → s.Runs (.cgrant (some m)) fun t =>
        (t.core c).credits = (s.core c).credits ++ [e] ∧ t.rd R.wdw_CRED_ENTRIES c = (s.core c).credits.length + 1 ∧ t.mem = s.mem ∧
        s.KeepsRegs t [R.wdw_CRED_ENTRIES]) ∧
      (s.credit c e.mod_ e.core e.win = none → 64 ≤ (s.core c).credits.length → s.Runs (.cgrant (some m)) fun t => t.cores = s.cores ∧
        t.rd R.wdw_GRANT_DROP c = satAdd32 (s.rd R.wdw_GRANT_DROP c) 1 ∧ t.mem = s.mem ∧ s.KeepsRegs t [R.wdw_GRANT_DROP])) ∧
    (m.type = 0x03 → msgRed m = false → msgClosed m = true → (s.enabledOwner c).isSome = true → s.Runs (.cgrant (some m)) fun t =>
      t.credit c e.mod_ e.core e.win = none ∧ t.mem = s.mem ∧ s.KeepsRegs t [R.wdw_CRED_ENTRIES]) ∧
    (m.type = 0x03 → msgRed m = true → let k := m.arg0.toNat % 256
      s.circValid k = true → s.circOwner k = msgPart m → s.Runs (.cgrant (some m)) fun t => t.regs = s.regs ∧ t.mem = s.mem ∧ t.cores = s.cores ∧
        if 536 ≤ s.circRoot k then Tbl.get 0 t.net.slabCred k = Tbl.get 0 s.net.slabCred k + e.credits
        else if msgClosed m then Tbl.get 0 t.net.circCred k = 0 ∧ Tbl.get 0 t.net.circGen k = 0
        else Tbl.get 0 t.net.circGen k = e.gen ∧ Tbl.get 0 t.net.circCred k =
          if Tbl.get 0 s.net.circGen k = e.gen then Tbl.get 0 s.net.circCred k + e.credits else e.credits)

/-- Messages at a link port (R481, R482): a RADD, or the POISON note that replaces one, enters its circuit's input while the input's buffer
has room, and waits otherwise. A CSET that meets an entry of the other direction, and a CSET_ACK that reports a match, confirm the entry. -/
def Obligations.PortMessages : Prop :=
  ∀ (m : LinkMsg) (s : State), s.alive = true → msgDstMod m = s.selfMod → 536 ≤ msgDstSt m → msgDstSt m < 560 →
    let n := msgDstSt m - 536
    let a := m.arg0.toNat
    (∀ r k i, s.portInput n (a % 256) (msgPart m) = some (r, k, i) →
      let In := fun (c : Instr) (x : Slab) => ((s.nodeBuf r k i).length < 2 → s.Runs c fun t => t.nodeBuf r k i = s.nodeBuf r k i ++ [x] ∧
          t.regs = s.regs ∧ t.mem = s.mem) ∧ (2 ≤ (s.nodeBuf r k i).length → s.Runs c fun t => t = s)
      (m.type = 0x04 → In (.radd (some m)) (slabOf (bitsOf a 8 16) (bitsOf a 24 5) (msgData m))) ∧
      (m.type = 0x07 → msgRed m = true → In (.poison (some m)) (lostSlab (bitsOf a 8 16) (bitsOf a 24 5)))) ∧
    (∀ i, m.type = 0x08 → s.lcirc n (bitsOf a 8 8) (bitsOf a 0 8) (1 - bitsOf a 16 1) (msgPart m) = some i →
      s.Runs (.cset (some m)) fun t => t.flag R.port_CONFIRMED n i = true ∧ t.mem = s.mem ∧ s.KeepsRegs t [R.port_CONFIRMED, R.rtr_GRAN_C]) ∧
    (∀ i, m.type = 0x09 → m.arg1.toNat % 2 = 1 → s.lcirc n (bitsOf a 0 8) (bitsOf a 8 8) (bitsOf a 16 1) (msgPart m) = some i →
      s.Runs (.csetAck (some m)) fun t => t.flag R.port_CONFIRMED n i = true ∧ t.mem = s.mem ∧ s.KeepsRegs t [R.port_CONFIRMED, R.rtr_GRAN_C])

/-- Notes between modules (R483, R485): a commit note of an enabled partition is kept for its edge; an acknowledgement takes one off those
awaited; a management message reaches the management complex, or is discarded and counted; and of a snapshot order the first copy is kept until
its tick, or counted as late. -/
def Obligations.NotesAreTaken : Prop :=
  ∀ (m : LinkMsg) (s : State), s.alive = true →
    let a := m.arg0.toNat
    let p := msgPart m
    (msgDstMod m = s.selfMod →
      (m.type = 0x0C → s.enabled p = true → s.Runs (.commit (some m)) fun t => (t.part p).notesIn = (s.part p).notesIn ++
        [(a % 65536, bitsOf a 16 3, m.arg1.toNat % 2 ^ 32, m.arg1.toNat / 2 ^ 32)] ∧ t.mem = s.mem) ∧
      (m.type = 0x0D → ∀ f : FrameSt, (s.part p).frame = some f → s.Runs (.noteAck (some m)) fun t =>
        (t.part p).frame = some { f with notes := f.notes - 1 } ∧ t.regs = s.regs ∧ t.mem = s.mem) ∧
      (m.type = 0x0E → (s.Runs (.mgmt (some m) true) fun t => t.net.mgmt = s.net.mgmt ++ [m] ∧ t.mem = s.mem) ∧
        s.Runs (.mgmt (some m) false) fun t => t.rd R.msg_MGMT_DROP = satAdd32 (s.rd R.msg_MGMT_DROP) 1 ∧ t.net = s.net ∧
          s.KeepsRegs t [R.msg_MGMT_DROP] ∧ t.mem = s.mem)) ∧
    (∀ port : BitVec 5, m.type = 0x06 → let num := m.arg1.toNat / 65536 % 65536
      (s.net.snaps.contains (msgSrcMod m, num) = true → s.Runs (.snap port (some m)) fun t => t = s) ∧
      (s.net.snaps.contains (msgSrcMod m, num) = false → msgSrcMod m ≠ s.selfMod →
        (s.tickNum < msgTick m → s.Runs (.snap port (some m)) fun t => t.snaps = s.snaps ++ [{ at_ := msgTick m, num := num }] ∧
          t.rd R.snap_PENDING = min (s.snaps.length + 1) 7 ∧ t.mem = s.mem) ∧
        (msgTick m ≤ s.tickNum → s.Runs (.snap port (some m)) fun t => t.snaps = s.snaps ∧
          t.rd R.msg_SNAP_LATE = satAdd32 (s.rd R.msg_SNAP_LATE) 1 ∧ t.mem = s.mem)))

/-! ### High-bandwidth memory and the aperture -/

/-- The controller of a stack (R426, R428, R430, R432, R433): the sweep reads its next granule, where a single-bit error is corrected and counted
and a double-bit error poisons the granule; refresh runs at the doubled rate above 85 °C; and a reading of the stack's temperature enters and
leaves the warning and throttle states at their thresholds, and is a shut-down cause from SHUT_C on. -/
def Obligations.StacksAreKept : Prop :=
  ∀ (stack : BitVec 5) (s : State), s.alive = true → stack.toNat < 24 →
    let n := stack.toNat
    let i := Tbl.get 0 s.mem.scrubAt n
    let d := stackGran n i
    (∀ found odecc,
      let errs := found.foldl (fun (e : Tbl Nat) (x : BitVec 36 × Bool) => if stackOf x.1.toNat = n ∧ x.1.toNat < granCount then
        Tbl.set 0 e x.1.toNat (if x.2 then 2 else 1) else e) s.mem.granErr
      s.Runs (.hbmScrub stack found odecc) fun t => Tbl.get 0 t.mem.scrubAt n = (i + 1) % stackGrans ∧ Tbl.get 0 t.mem.granErr d = 0 ∧
      t.mem.loft = s.mem.loft ∧ t.rd R.hbm_ODECC n = satAdd32 (s.rd R.hbm_ODECC n) odecc.toNat ∧
      (Tbl.get 0 errs d = 0 → t.mem.granPoison = s.mem.granPoison ∧ t.mem.granary = s.mem.granary) ∧
      (Tbl.get 0 errs d = 1 → t.rd R.hbm_CE_COUNT n = satAdd32 (s.rd R.hbm_CE_COUNT n) 1 ∧ t.mem.granary = s.mem.granary) ∧
      (2 ≤ Tbl.get 0 errs d → t.rd R.hbm_UE_COUNT n = satAdd32 (s.rd R.hbm_UE_COUNT n) 1 ∧ t.granBad d = true)) ∧
    (s.Runs (.hbmRefresh stack) fun t => t.rd R.hbm_REFRESH_2X n = b2n (decide (1360 < s.hbmT n)) ∧ s.KeepsRegs t [R.hbm_REFRESH_2X] ∧
      t.mem = s.mem) ∧
    (∀ v : BitVec 16, let c := sgn 16 v.toNat
      s.Runs (.hbmTempRead stack (some v)) fun t => t.rd R.hbm_TEMP n = v.toNat ∧
      t.rd R.hbm_WARN n = b2n (hysteresis (s.flag R.hbm_WARN n) c (16 * s.rd R.hbm_WARN_C n)) ∧
      t.rd R.hbm_THROTTLE n = b2n (hysteresis (s.flag R.hbm_THROTTLE n) c (16 * s.rd R.hbm_THROT_C n)) ∧
      t.rd R.hbm_REFRESH_2X n = b2n (decide (1360 < c)) ∧ Marks.has t.mem.tempFail n = false ∧
      (16 * (s.rd R.hbm_SHUT_C n : Int) ≤ c → s.power.orderly = false → t.power.causes.any (fun x => x.1 == 2) = true) ∧
      s.KeepsRegs t [R.hbm_TEMP, R.hbm_WARN, R.hbm_THROTTLE, R.hbm_REFRESH_2X, R.hbm_THROT_MS, R.err_CNT_CORR]) ∧
    (Marks.has s.mem.tempFail n = false → s.Runs (.hbmTempRead stack none) fun t => Marks.has t.mem.tempFail n = true ∧
      s.KeepsRegs t [R.hbm_THROT_MS] ∧ t.power = s.power)

/-- The events that stop the device (R429, R572, R633, R635): each is logged as device-fatal, every engine of every core and every link port stops,
and no memory changes. -/
def Obligations.DeviceFatalEventsStop : Prop :=
  ∀ s : State, s.alive = true →
    let Stops := fun i => s.Runs i fun t => t.power.fatal = true ∧ t.rd R.err_CNT_DFATAL = satAdd32 (s.rd R.err_CNT_DFATAL) 1 ∧
      (∀ c, c < 512 → ∀ e, t.rd (engState e) c = 5) ∧ (∀ n, n < 24 → t.rd R.port_STATE n = 0) ∧ t.mem = s.mem ∧
      s.KeepsRegs t [R.core_M_STATE, R.core_V_STATE, R.core_T_STATE, R.core_W_STATE, R.mx_HEAD_WAIT, R.mx_BUSY, R.mx_INFLIGHT, R.port_STATE,
        R.err_CNT_DFATAL]
    (∀ stack : BitVec 5, s.booted = true → stack.toNat < 24 → Stops (.hbmInterfaceFail stack)) ∧
    (∀ src code station, Stops (.deviceFatal src code station)) ∧ (s.mgmt.released = true → Stops .mpWatchdog) ∧
    (s.rd R.mgmt_FW_STATE = 6 → s.mgmt.handPhase = 3 → Stops .handoffTimeout)

/-- The aperture (R425, R435, R437): a read within one granule of an open segment returns the granule's bytes, or reports its poison; a read of
a closed segment returns no data and is logged. A write within one granule stores its bytes and no other; one to a closed segment or to a
bushel that the device owns is discarded and logged. The aperture's map and its size (R436, R506): an entry that R436 takes is written,
another is logged; a new size closes every segment. -/
def Obligations.ApertureWorks : Prop :=
  (∀ (addr : BitVec 36) (s : State), let a := addr.toNat
      let closed := fun (i : Instr) => s.Runs i fun t => t.rd R.host_HAE_COUNT = satAdd32 (s.rd R.host_HAE_COUNT) 1 ∧ t.mem = s.mem ∧
        s.KeepsRegs t [R.host_HAE_COUNT]
      (∀ len : BitVec 13, s.bar2Ok = true → 0 < len.toNat → a % 64 + len.toNat ≤ 64 → a + len.toNat ≤ 2 ^ s.rd R.bar2_SIZE_LOG2 →
        (s.aperGran (a / 64) = none → closed (.bar2Read addr len)) ∧
        (∀ d, s.aperGran (a / 64) = some d → Tbl.get 0 s.mem.granErr d = 0 → entryGran 65536 ≤ d →
          s.Runs (.bar2Read addr len) fun t => t.host.answerBad = s.granBad d ∧ t.host.answerUr = false ∧ t.mem.granary = s.mem.granary ∧
            t.host.answer = (if s.granBad d then List.replicate len.toNat 0 else s.mem.granary.bytes (64 * d + a % 64) len.toNat))) ∧
      (∀ data : List Byte, s.hostOk = true → 0 < data.length → a % 64 + data.length ≤ 64 → a + data.length ≤ 2 ^ s.rd R.bar2_SIZE_LOG2 →
        (s.aperGran (a / 64) = none → closed (.bar2Write addr data false)) ∧
        (∀ d, s.aperGran (a / 64) = some d →
          (d / 32768 < 1024 → closed (.bar2Write addr data false)) ∧
          (1024 ≤ d / 32768 → Tbl.get 0 s.mem.granErr d = 0 → s.granBad d = false → s.Runs (.bar2Write addr data false) fun t =>
            t.mem.loft = s.mem.loft ∧ t.granBad d = false ∧ ∀ k, t.mem.granary.rd k =
              if 64 * d + a % 64 ≤ k ∧ k < 64 * d + a % 64 + data.length then data.getD (k - (64 * d + a % 64)) 0 else s.mem.granary.rd k) ∧
          (1024 ≤ d / 32768 → data.length < 64 → Tbl.get 0 s.mem.granErr d = 0 → s.granBad d = true → s.Runs (.bar2Write addr data false) fun t =>
            t.granBad d = true ∧ t.mem.granary = s.mem.granary ∧
              t.rd R.hbm_POISON_RD (stackOf d) = satAdd32 (s.rd R.hbm_POISON_RD (stackOf d)) 1)))) ∧
  (∀ s : State,
      (∀ (seg : BitVec 5) (value : Word), s.hostOk = true →
        let v := value.toNat
        (s.mapOk (v % 2 ^ 21) = true → s.Runs (.bar2MapWrite seg value) fun t => t.rd R.bar2_BASE_BUSHEL 0 seg.toNat = v % 2 ^ 21 ∧
          t.rd R.bar2_VALID 0 seg.toNat = v / 2 ^ 31 ∧ s.SameRegs t [(R.bar2_BASE_BUSHEL, 0, seg.toNat), (R.bar2_VALID, 0, seg.toNat)] ∧
          t.mem = s.mem) ∧
        (s.mapOk (v % 2 ^ 21) = false → s.Runs (.bar2MapWrite seg value) fun t =>
          t.rd R.host_HAE_COUNT = satAdd32 (s.rd R.host_HAE_COUNT) 1 ∧ s.KeepsRegs t [R.host_HAE_COUNT] ∧ t.mem = s.mem)) ∧
      (∀ n : BitVec 6, s.alive = true → s.host.linkUp = true → 28 ≤ n.toNat → n.toNat ≤ 36 → s.Runs (.bar2Resize n false) fun t =>
        t.rd R.bar2_SIZE_LOG2 = n.toNat ∧ (∀ k, k < 32 → t.rd R.bar2_VALID 0 k = 0) ∧ s.KeepsRegs t [R.bar2_SIZE_LOG2, R.bar2_VALID] ∧
        t.mem = s.mem))

/-! ### The host -/

/-- The host's link (R505, R523 to R525): a link-down or a fundamental reset clears the link's fields and counts, and no partition notices; a
link-up shows the rate, width and flit mode; an integrity failure of a stream is counted and ends the stream's security; and the
responder answers a request, making the streams that were keyed secure, or gives the error of R575 while ID_OK is 0. -/
def Obligations.HostLinkChanges : Prop :=
  ∀ s : State,
    let Down := fun i => s.Runs i fun t => t.rd R.host_HOST_LINK = 0 ∧ t.rd R.host_WIDTH = 0 ∧ t.rd R.host_FLIT = 0 ∧ t.rd R.host_IDE_UP = 0 ∧
      t.rd R.host_LINK_DOWNS = satAdd32 (s.rd R.host_LINK_DOWNS) 1 ∧ t.host.linkUp = false ∧ t.host.held = s.host.held ∧ t.parts = s.parts ∧
      t.cores = s.cores ∧ t.mem = s.mem ∧ s.KeepsRegs t [R.host_HOST_LINK, R.host_WIDTH, R.host_FLIT, R.host_IDE_UP, R.host_LINK_DOWNS]
    (s.host.linkUp = true → Down .hostLinkDown) ∧
    (s.host.linkUp = true → s.power.stages = true → s.power.latched = false → Down .perstN) ∧
    (∀ (gen : BitVec 3) (width : BitVec 5) (flit : Bool), s.host.linkUp = false → s.power.stages = true → s.power.latched = false →
      2 ≤ s.rd R.mgmt_STAGE → 5 ≤ gen.toNat → width.toNat ∈ [1, 2, 4, 8, 16] → flit = true ∨ gen = 5 → s.Runs (.hostLinkUp gen width flit) fun t =>
        t.rd R.host_HOST_LINK = gen.toNat ∧ t.rd R.host_WIDTH = width.toNat ∧ t.rd R.host_FLIT = b2n flit ∧ t.host.linkUp = true ∧
        t.parts = s.parts ∧ t.mem.granary = s.mem.granary) ∧
    (s.host.linkUp = true → s.host.linkSecure = true → s.Runs (.ideFail none) fun t => t.rd R.host_IDE_UP = 0 ∧ t.host.linkSecure = false ∧
      t.rd R.host_HOST_IDE_FAIL = satAdd32 (s.rd R.host_HOST_IDE_FAIL) 1 ∧ (∀ f, f < 65 → Marks.has t.host.fnInsecure f = true) ∧
      t.mem = s.mem) ∧
    (∀ f : BitVec 7, s.host.linkUp = true → Marks.has s.host.fnSecure f.toNat = true → s.Runs (.ideFail (some f)) fun t =>
      Marks.has t.host.fnSecure f.toNat = false ∧ Marks.has t.host.fnInsecure f.toNat = true ∧
      t.rd R.host_HOST_IDE_FAIL = satAdd32 (s.rd R.host_HOST_IDE_FAIL) 1 ∧ s.KeepsRegs t [R.host_HOST_IDE_FAIL] ∧ t.mem = s.mem) ∧
    (∀ (req : List Byte) (secured : List (Option (BitVec 7))), s.alive = true → s.host.linkUp = true → 2 ≤ s.rd R.mgmt_STAGE →
      (s.flag R.mgmt_ID_OK = false → s.Runs (.spdmRequest req secured) fun t => t.host.answer = [0x14, 0x7F, 0x05, 0x00] ∧ t.regs = s.regs ∧
        t.mem = s.mem) ∧
      (s.flag R.mgmt_ID_OK = true → s.Runs (.spdmRequest req secured) fun t => t.host.answer = Config.spdmAnswer req s.measurements ∧
        (none ∈ secured → t.rd R.host_IDE_UP = 1 ∧ t.host.linkSecure = true) ∧
        (∀ f : BitVec 7, some f ∈ secured → Marks.has t.host.fnSecure f.toNat = true)))

/-- What the host asks of a function (R13, R14, R510, R519, R521, R525): unmasking a vector sends its pending message once; a copy joins its
partition's queue, or is logged where 16 wait, and counts in HC_DONE when it is complete; SQ_EN turns a ring on, or off with its head
and tail at 0; a function reset gives the ring registers their reset values and asks for the reset of its partition; and an access of
a wrong form is logged, reads returning all ones. -/
def Obligations.HostCommandsWork : Prop :=
  ∀ (fn : BitVec 7) (p : BitVec 6) (s : State),
    let f := fn.toNat
    let n := p.toNat
    (∀ v : BitVec 5, s.hostOk f = true → f ≤ 64 → v.toNat < vectorsOf f → (s.host.held.any fun h => h.fn == f) = false →
      s.Runs (.msixUnmask fn v) fun t => Marks.has t.host.masked (f * 32 + v.toNat) = true ∧
        Marks.has t.host.msixPending (f * 32 + v.toNat) = false ∧ t.regs = s.regs ∧ t.mem = s.mem ∧
        t.host.sent = s.host.sent ++ (if Marks.has s.host.msixPending (f * 32 + v.toNat) then [(f, v.toNat)] else [])) ∧
    (s.hostOk f = true → reaches f n = true → (s.part n).copies.length < 16 → s.Runs (.hcGo fn p) fun t =>
      ∃ k : HostCopy, (t.part n).copies = (s.part n).copies ++ [k] ∧ k.len = s.rd R.hc_HC_LEN n + 1 ∧ k.toHost = s.flag R.hc_HC_DIR n ∧
        t.rd R.hc_HC_DEPTH n = (s.part n).copies.length + 1 ∧ s.KeepsRegs t [R.hc_HC_DEPTH] ∧ t.mem = s.mem) ∧
    (s.hostOk f = true → reaches f n = true → 16 ≤ (s.part n).copies.length → s.Runs (.hcGo fn p) fun t => t.parts = s.parts ∧
      t.rd R.host_HAE_COUNT = satAdd32 (s.rd R.host_HAE_COUNT) 1 ∧ s.KeepsRegs t [R.host_HAE_COUNT] ∧ t.mem = s.mem) ∧
    (∀ k rest, (s.part n).copies = k :: rest → s.alive = true → s.fnBlocked (n + 1) = false → s.Runs (.hostCopyDone p) fun t =>
      (t.part n).copies = rest ∧ t.rd R.hc_HC_DONE n = (s.rd R.hc_HC_DONE n + 1) % 65536 ∧ t.mem.loft = s.mem.loft) ∧
    (∀ ring : BitVec 2, s.hostOk f = true → reaches f n = true →
      (s.Runs (.sqEn fn p ring true) fun t => t.rd R.ring_SQ_EN n ring.toNat = 1 ∧ s.KeepsRegs t [R.ring_SQ_EN] ∧ t.mem = s.mem) ∧
      s.Runs (.sqEn fn p ring false) fun t => t.rd R.ring_SQ_EN n ring.toNat = 0 ∧ t.rd R.ring_SQ_HEAD n ring.toNat = 0 ∧
        t.rd R.ring_SQ_TAIL n ring.toNat = 0 ∧ s.KeepsRegs t [R.ring_SQ_EN, R.ring_SQ_HEAD, R.ring_SQ_TAIL] ∧ t.mem = s.mem) ∧
    (s.alive = true → s.host.linkUp = true → 1 ≤ f → f ≤ 64 → s.Runs (.flr fn) fun t => (t.part (f - 1)).copies = [] ∧
      (∀ g ∈ windowFields, ∀ j, j < g.n2 → t.rd g (f - 1) j = g.rst) ∧ (∀ w ∈ t.host.held, w.fn ≠ f) ∧
      (s.pstate (f - 1) = 3 → (s.part (f - 1)).resetDue = none → (t.part (f - 1)).resetDue = some 2) ∧
      (s.pstate (f - 1) = 1 ∨ s.pstate (f - 1) = 2 → t.pstate (f - 1) = 0 ∧ t.rd R.part_REASON (f - 1) = 0xFE) ∧ t.mem = s.mem) ∧
    (∀ (width : BitVec 7) (off : BitVec 26) (data : BitVec 64), s.alive = true → s.host.linkUp = true → f ≤ 64 → 1 ≤ width.toNat →
      bar0Form width.toNat off.toNat = false → inAperture f off.toNat = false → s.fnBlocked f = false → ∀ wr,
      s.Runs (.bar0BadAccess fn wr width off data) fun t => t.rd R.host_HAE_COUNT = satAdd32 (s.rd R.host_HAE_COUNT) 1 ∧
        s.KeepsRegs t [R.host_HAE_COUNT] ∧ t.mem = s.mem ∧ t.host.answer = if wr then s.host.answer else List.replicate width.toNat 0xFF)

/-! ### Partitions -/

/-- A partition's way between its states (R528, R529, R530, R536, R537, R540): ENABLE takes a DISABLED partition to CHECKING and queues its check,
and is logged in any other state; DISABLE cancels a check or an enable with REASON 0xFE, asks for an orderly disable, or resets a frozen
partition; the end of ENABLING's work zeroes the extents that ask for it; a member without its go note refuses; a fatal event falls due as a
reset; and the end of the scrub leaves the partition DISABLED with no store queued: only a STORE that was read before it still lands (R352). -/
def Obligations.PartitionsMove : Prop :=
  ∀ (p : BitVec 6) (s : State), let n := p.toNat
    (s.hostOk = true → s.pstate n = 0 → s.Runs (.enable p) fun t => t.pstate n = 1 ∧
      t.mgmt.checkq = s.mgmt.checkq.filter (· != n) ++ [n] ∧ t.rd R.acc_ACC_BUSY = 1 ∧ t.mem = s.mem ∧
      s.KeepsRegs t [R.part_PSTATE, R.acc_ACC_BUSY, R.acc_ACC_PART]) ∧
    (s.hostOk = true → s.pstate n ≠ 0 → s.Runs (.enable p) fun t => t.rd R.host_HAE_COUNT = satAdd32 (s.rd R.host_HAE_COUNT) 1 ∧
      s.KeepsRegs t [R.host_HAE_COUNT] ∧ t.parts = s.parts ∧ t.mem = s.mem) ∧
    (s.hostOk = true →
      (s.pstate n = 1 ∨ s.pstate n = 2 → s.Runs (.disable p) fun t => t.pstate n = 0 ∧ t.rd R.part_REASON n = 0xFE ∧
        ¬ n ∈ t.mgmt.checkq ∧ t.mem = s.mem ∧ s.KeepsRegs t [R.part_PSTATE, R.part_REASON, R.acc_ACC_BUSY, R.acc_ACC_PART]) ∧
      (s.pstate n = 3 → s.Runs (.disable p) fun t => (t.part n).disableReq = true ∧ t.regs = s.regs ∧ t.mem = s.mem) ∧
      (s.pstate n = 5 → (s.part n).resetDue = none → s.Runs (.disable p) fun t => (t.part n).resetDue = some 1 ∧ t.regs = s.regs ∧
        t.mem = s.mem)) ∧
    (s.alive = true →
      (s.pstate n = 2 → (s.part n).zeroDone = false → s.Runs (.enablingDone p) fun t => (t.part n).zeroDone = true ∧ (t.part n).flips = [] ∧
        t.pstate n = 2 ∧ s.KeepsRegs t [R.tab_EXT] ∧ ∀ e, e < 64 → s.extValid n e = true → s.extZero n e = true → t.extZero n e = false ∧
          ∀ k, k < 64 * 32768 * s.extCount n e → t.mem.granary.rd (64 * 32768 * s.extFirst n e + k) = 0) ∧
      (s.span n = true → s.leadMod n ≠ s.selfMod → s.pstate n = 1 ∨ s.pstate n = 2 → (s.part n).goNote = none →
        s.enableAt n ≤ s.tickNum → s.Runs (.goTimeout p) fun t => t.pstate n = 0 ∧ t.rd R.part_REASON n = 0x71 ∧
          t.rd R.part_ACC_DETAIL n = s.leadMod n ∧ t.rd R.part_REFUSED n = 1 ∧ t.rd R.acc_ACC_REFUSED = satAdd32 (s.rd R.acc_ACC_REFUSED) 1 ∧
          t.mem = s.mem) ∧
      (∀ src code station, s.enabled n = true → (s.part n).resetDue = none → s.Runs (.partitionReset p src code station none) fun t =>
        (t.part n).resetDue = some 3 ∧ t.rd R.err_CNT_PFATAL = satAdd32 (s.rd R.err_CNT_PFATAL) 1 ∧ s.KeepsRegs t [R.err_CNT_PFATAL] ∧
        t.mem = s.mem) ∧
      (s.pstate n = 4 → (s.part n).scrubbing = true → s.Runs (.disableScrubDone p) fun t => t.pstate n = 0 ∧ (t.part n).scrubbing = false ∧
        (∀ c ∈ s.coresOf n, (t.core c).sqs = []) ∧
        ((∀ c ∈ s.coresOf n, ∀ q ∈ (s.core c).sqs, ∀ x ∈ q.2, x.op = 0xA1 → x.read = true → x.done = true) →
          s.KeepsRegs t [R.part_PSTATE] ∧ t.mem = s.mem)))

/-- The Accord check (R536, R537): the first step that fails refuses the enable with its code, its detail and REFUSED; where none fails the
partition is ENABLING with REASON 0. A core table entry that R533 and R542 take is written, another is logged. -/
def Obligations.ChecksAndCoreTable : Prop :=
  (∀ (p : BitVec 6) (s : State), s.mayCheck = true → s.mgmt.checkq.head? = some p.toNat → s.pstate p.toNat = 1 →
    let n := p.toNat
    let u := (s.readProg n).1
    let r : ProgRec := { u.progRec n with ok := (s.readProg n).2 && (u.progRec n).ok }
    let flips := u.flipsNeeded [] r.manifest
    (∀ code d, firstFail (u.stepsA n r flips ++ u.stepsB n r) = some (code, d) → s.Runs (.accordCheck p) fun t => t.pstate n = 0 ∧
      t.rd R.part_REASON n = code % 256 ∧ t.rd R.part_ACC_DETAIL n = d % 2 ^ 32 ∧ t.rd R.part_REFUSED n = 1 ∧
      t.rd R.acc_ACC_RUNS = satAdd32 (s.rd R.acc_ACC_RUNS) 1 ∧ t.rd R.acc_ACC_REFUSED = satAdd32 (s.rd R.acc_ACC_REFUSED) 1) ∧
    (firstFail (u.stepsA n r flips ++ u.stepsB n r) = none → (u.part n).csetSent = true ∨ u.usedLcirc r = [] → firstFail ((u.bump R.acc_ACC_RUNS).stepsC n r) = none →
      s.Runs (.accordCheck p) fun t => t.pstate n = 2 ∧ t.rd R.part_REASON n = 0 ∧ (t.part n).flips = flips ∧
        ¬ n ∈ t.mgmt.checkq ∧ t.rd R.acc_ACC_RUNS = satAdd32 (s.rd R.acc_ACC_RUNS) 1)) ∧
  ∀ (core : BitVec 9) (value : Word) (s : State), s.hostOk = true →
    let c := core.toNat
    let v := value.toNat
    (s.coreWriteOk c v = true → s.Runs (.coreTableWrite core value) fun t => t.rd R.ctab_OWNER c = v % 64 ∧ t.rd R.ctab_OWNED c = v / 64 % 2 ∧
      t.rd R.ctab_FRAME_HDR c = v / 256 % 2 ^ 17 ∧ t.rd R.ctab_STAGE_FOR c = v / 2 ^ 26 ∧ t.mem = s.mem ∧
      t.rd R.ctab_STAGE_EN c = (if v % 128 = s.coreWord c % 128 then v / 2 ^ 25 % 2 else 0)) ∧
    (s.coreWriteOk c v = false → s.Runs (.coreTableWrite core value) fun t =>
      t.rd R.host_HAE_COUNT = satAdd32 (s.rd R.host_HAE_COUNT) 1 ∧ s.KeepsRegs t [R.host_HAE_COUNT] ∧ t.mem = s.mem)

/-! ### Start-up -/

/-- Device reset, the input and the start sequence (R553, R555, R558, R620, R678, R679): MOD_RST_N and the loss of the input leave every register at
its reset value, and keep the flash, the host's memory and the cells; the start sequence shows each step in STAGE, stops with STAGE 15 and a
FAIL_CODE, or reaches WAIT_FW with the straps, the gauge and every stack running; and a step that passes its limit stops it. -/
def Obligations.StartUpRuns : Prop :=
  ∀ s : State,
    let Kept := fun (t : State) => t.regs = [] ∧ t.parts = [] ∧ t.mem.granary = [] ∧ t.mem.loft = [] ∧ t.mem.host = s.mem.host ∧
      (s.mem.flashOp = none → t.mem.flash = s.mem.flash) ∧ (Tbl.sorted s.cores → ∀ c, (t.core c).cells = (s.core c).cells) ∧
      t.power.latched = false ∧ t.power.fatal = false ∧ t.mgmt.released = false
    (s.power.input = true → s.power.stages = true → s.power.latched = false → s.Runs .modRstN fun t => Kept t ∧ t.power.stages = true) ∧
    (s.power.input = true → s.Runs .inputRemoved fun t => Kept t ∧ t.power.input = false ∧ t.power.stages = false) ∧
    (s.power.input = false → s.Runs .powerOn fun t => t.power.input = true ∧ t.regs = s.regs ∧ t.mem = s.mem) ∧
    (s.power.input = true → s.power.stages = false → s.Runs .powerStagesStart fun t => t.power.stages = true ∧ t.regs = s.regs ∧ t.mem = s.mem) ∧
    (∀ (straps : BitVec 14) (made : List (BitVec 26 × List Byte)) (found : BootFindings),
      s.power.stages = true → s.power.latched = false → s.mgmt.released = false →
      let f := if s.mem.flash = [] then s.updMem (fun m => { m with flash := made.foldl (fun f x => f.write x.1.toNat x.2) m.flash }) else s
      let u := ((f.updMgmt (fun m => { m with released := true })).wr R.mgmt_STAGE 0).sampleStraps straps.toNat
      let c := u.bootConfig found
      let k := c.1.bootClock found
      let Ends := fun (P : State → Prop) => s.Runs (.resetRelease straps made found) fun t => t.mgmt.released = true ∧ P t
      (found.hang = some 1 → Ends fun t => t.rd R.mgmt_STAGE = 1) ∧
      (found.hang = none → c.2 = false → Ends fun t => t.rd R.mgmt_STAGE = 15 ∧ t.rd R.mgmt_FAIL_CODE ∈ [0xB1, 0xB2, 0xB3]) ∧
      (found.hang = none → c.2 = true → k.2 = false → k.1.power.fatal = false → Ends fun t => t.rd R.mgmt_STAGE = 15 ∧
        t.rd R.mgmt_FAIL_CODE = 0xB7) ∧
      (found.hang = none → c.2 = true → k.2 = true → (k.1.bootHbm found).2 = true → Ends fun t => t.rd R.mgmt_STAGE = 5 ∧
        t.rd R.gauge_RUN = 1 ∧ (∀ n, n < 24 → t.rd R.hbm_RATE n = if found.slow.contains (BitVec.ofNat 5 n) then 2 else 1) ∧
        (strapFault straps.toNat = false → t.rd R.msg_STRAP_OK = 1 ∧ t.rd R.msg_POS = straps.toNat % 64 ∧
          t.rd R.msg_BLK = straps.toNat / 64 % 64))) ∧
    (s.alive = true → s.mgmt.released = true → 1 ≤ s.rd R.mgmt_STAGE → s.rd R.mgmt_STAGE ≤ 4 → s.Runs .bootStepTimeout fun t =>
      t.rd R.mgmt_STAGE = 15 ∧ t.mem = s.mem ∧
      t.rd R.mgmt_FAIL_CODE = (if s.rd R.mgmt_STAGE = 2 then 0xB4 else if s.rd R.mgmt_STAGE = 3 then 0xB5 else 0xB6) ∧
      t.power.fatal = decide (s.rd R.mgmt_STAGE = 3))

/-! ### Firmware -/

/-- Firmware is loaded, verified and started, and handed over (R564, R565, R569 to R572): FW_GO starts a verification; a refused image shows its
code and leaves FW_STATE as it was before or FAILED; a good one starts, or is staged; the first start leaves the promotion blocks zero and the
request table empty; at H - 1 the record is written, at H the images change places, and the new firmware takes over or is reverted. -/
def Obligations.FirmwareRuns : Prop :=
  ∀ s : State,
    let next := fun (n : Nat) (i : Instr) (P : State → Prop) => s.Runs i fun t => t.rd R.mgmt_FW_STATE = n ∧ P t
    (s.hostOk = true → s.loadOpen = true → next 2 .fwGo fun t => t.mem = s.mem ∧
      t.rd R.mgmt_STAGE = (if s.mgmt.runHead = [] then 6 else s.rd R.mgmt_STAGE) ∧ s.KeepsRegs t [R.mgmt_FW_STATE, R.mgmt_STAGE]) ∧
    (∀ digest sig : Bool, s.alive = true → s.rd R.mgmt_FW_STATE = 2 → s.rd R.mgmt_STAGE ≠ 7 →
      let code := s.imageCode1 s.loadedHead digest sig
      let Done := fun (n : Nat) (P : State → Prop) => next n (.fwVerifyDone digest sig) fun t => t.rd R.mgmt_FW_RESULT = code ∧ t.mem = s.mem ∧ P t
      (code ≠ 0 → s.mgmt.runHead = [] → Done 7 fun t => t.rd R.mgmt_STAGE = 5) ∧
      (code ≠ 0 → s.mgmt.runHead ≠ [] → Done 3 fun t => t.mgmt.stageHead = [] ∧ t.mgmt.runHead = s.mgmt.runHead) ∧
      (code = 0 → s.mgmt.runHead = [] → Done 2 fun t => t.rd R.mgmt_STAGE = 7 ∧ t.mgmt.runHead = s.loadedHead) ∧
      (code = 0 → s.mgmt.runHead ≠ [] → Done 4 fun t => t.mgmt.stageHead = s.loadedHead ∧ t.mgmt.runHead = s.mgmt.runHead)) ∧
    (∀ found, s.alive = true → s.rd R.mgmt_STAGE = 7 → next 3 (.fwFirstStart found) fun t => t.rd R.mgmt_STAGE = 8 ∧ t.tier.reqs = [] ∧
      ∀ a, 520 * 2097152 ≤ a → a < 528 * 2097152 → t.mem.granary.rd a = 0) ∧
    (s.hostOk = true → s.Runs .fwSwap fun t => t.mgmt = { s.mgmt with swapReq := true } ∧ t.regs = s.regs ∧ t.mem = s.mem) ∧
    (s.alive = true → s.rd R.mgmt_FW_STATE = 6 →
      (s.mgmt.handPhase = 0 → s.tickNum + 1 = s.handoffTick → s.handRecord.length = 24576 → next 6 .handoffRecord fun t =>
        t.mgmt.handPhase = 1 ∧ t.granBytes (560 * 2097152) 24576 = s.handRecord ∧ s.KeepsRegs t [R.hbm_WR_GRAN]) ∧
      (s.mgmt.handPhase = 1 → s.handoffTick ≤ s.tickNum → next 6 .handoff fun t => t.mgmt.runHead = s.mgmt.stageHead ∧
        t.mgmt.stageHead = s.mgmt.runHead ∧ t.mgmt.handPhase = 2 ∧ t.regs = s.regs ∧ t.mem = s.mem) ∧
      (2 ≤ s.mgmt.handPhase → s.handOk = true → next 3 .fwTakeover fun t => t.mgmt.handPhase = 0 ∧ t.mgmt.stageHead = [] ∧
        (s.mgmt.cfgWait = false → t.mem = s.mem) ∧ t.mem.flash = s.mem.flash ∧ t.mem.granary = s.mem.granary ∧ t.mgmt.runHead = s.mgmt.runHead ∧
        t.rd R.mgmt_RUN_HALF = if s.mgmt.handPhase = 2 then 1 - s.rd R.mgmt_RUN_HALF else s.rd R.mgmt_RUN_HALF) ∧
      (s.mgmt.handPhase = 2 → s.handOk = false → next 6 .fwTakeover fun t => t.rd R.mgmt_FW_RESULT = 0xAA ∧ t.mgmt = s.mgmt.restart 3 ∧
        t.rd R.err_CNT_CORR = satAdd32 (s.rd R.err_CNT_CORR) 1 ∧ t.mem = s.mem) ∧
      (s.mgmt.handPhase = 2 → next 6 .handoffTimeout fun t => t.rd R.mgmt_FW_RESULT = 0xA9 ∧ t.mgmt = s.mgmt.restart 3 ∧
        t.rd R.err_CNT_CORR = satAdd32 (s.rd R.err_CNT_CORR) 1 ∧ t.mem = s.mem))

/-- The flash (R262, R548, R557): a configuration block that CFG_GO finds wrong shows 0xAC, and one that is right is written at once to the copy
not in force, or waits; a calibration write-back, asked for by a swap or due since an epoch advanced with the interval over, goes to one of the two slots; and a write that ends is in the flash and in the flash
image, and nowhere else. -/
def Obligations.FlashIsWritten : Prop :=
  ∀ s : State,
    (∀ key : Bool, s.hostOk = true →
      let b := s.mem.cfgStage.bytes 0 65536
      let old := max (cfgAt (s.cfgCopy false) 8 4) (cfgAt (s.cfgCopy true) 8 4)
      (s.cfgValid b key = false ∨ cfgAt b 8 4 ≤ old → s.Runs (.cfgGo key) fun t => t.rd R.mgmt_FW_RESULT = 0xAC ∧
        s.KeepsRegs t [R.mgmt_FW_RESULT] ∧ t.mem = s.mem) ∧
      (s.cfgValid b key = true → old < cfgAt b 8 4 →
        (s.mem.flashOp ≠ none ∨ s.fwRuns = false → s.Runs (.cfgGo key) fun t => t.mgmt.cfgWait = true ∧ t.regs = s.regs ∧ t.mem = s.mem) ∧
        (s.mem.flashOp = none → s.fwRuns = true → s.Runs (.cfgGo key) fun t => t.rd R.mgmt_FLASH_BUSY = 1 ∧ t.mem.flash = s.mem.flash ∧
          t.mem.flashOp = some ⟨3, if s.flag R.mgmt_CFG_COPY then 0x10000 else 0x20000, b⟩ ∧ s.KeepsRegs t [R.mgmt_FLASH_BUSY]))) ∧
    (s.alive = true → s.fwRuns = true → s.power.orderly = false → s.epochsAhead = true →
      s.mgmt.wbDue = true ∨ s.mgmt.wbAdvance = true → s.mem.flashOp = none → s.mem.granPoison = [] →
      Marks.has s.mem.flashStop 0 = false → s.Runs .calWriteback fun t => t.rd R.mgmt_FLASH_BUSY = 1 ∧ t.mgmt.wbDue = false ∧
        t.mem.flash = s.mem.flash ∧ s.KeepsRegs t [R.mgmt_FLASH_BUSY] ∧ ∃ op, t.mem.flashOp = some op ∧ op.kind = 0 ∧
          (op.off = 0x100000 ∨ op.off = 0xB00000)) ∧
    (∀ op, s.alive = true → s.mem.flashOp = some op → s.Runs .flashWriteDone fun t =>
      (∀ a, t.mem.flash.rd a = if op.off ≤ a ∧ a < op.off + op.data.length then op.data.getD (a - op.off) 0 else s.mem.flash.rd a) ∧
      (∀ a, t.mem.granary.rd a = if imageAddr op.off ≤ a ∧ a < imageAddr op.off + op.data.length then op.data.getD (a - imageAddr op.off) 0
        else s.mem.granary.rd a) ∧ t.mem.loft = s.mem.loft ∧
      (s.power.orderly = true → t.mem.flashOp = none ∧ t.rd R.mgmt_FLASH_BUSY = 0))

/-! ### Stops -/

/-- How the device stops (R619 to R623): the first shut-down cause is held in SD_CAUSE and begins a latched or an orderly stop as its code and
SD_MODE say; a cause from 0x8 on cuts an orderly stop short and is held in SD_CUT, and the time limit does so as 0x7; a latched stop stops
every engine and port and takes the host link down; an orderly stop first resets the partitions that are still running 64 ticks after S, and
then goes from write to write; and SDC_N goes through its frame of 14 ms. -/
def Obligations.DeviceStops : Prop :=
  ∀ s : State,
    let Begins := fun (i : Instr) (c : Nat) => s.power.latching = false → s.rd R.therm_SD_CAUSE = 0 →
      (7 ≤ c ∨ s.flag R.therm_SD_MODE = false → s.Runs i fun t => t.rd R.therm_SD_CAUSE = c ∧ t.power.latching = true ∧
        t.rd R.gov_FREEZE = 1 ∧ t.power.sdcOn = true ∧ t.power.orderly = false ∧ s.KeepsRegs t [R.therm_SD_CAUSE, R.gov_FREEZE]) ∧
      (c < 7 → s.flag R.therm_SD_MODE = true → s.Runs i fun t => t.rd R.therm_SD_CAUSE = c ∧ t.power.orderly = true ∧ t.power.ordStep = 0 ∧
        t.power.sdcOn = true ∧ t.mem = s.mem ∧ s.KeepsRegs t [R.therm_SD_CAUSE])
    let Cuts := fun (i : Instr) (c : Nat) => s.power.latching = false → s.rd R.therm_SD_CAUSE ≠ 0 → s.power.orderly = true →
      s.Runs i fun t => t.rd R.therm_SD_CUT = c ∧ t.power.latching = true ∧ t.power.orderly = false ∧ t.rd R.gov_FREEZE = 1 ∧
        s.KeepsRegs t [R.therm_SD_CUT, R.gov_FREEZE]
    (s.hostOk = true → Begins .sdReq 6) ∧
    (s.alive = true →
      (∀ (c : BitVec 4) v n, 1 ≤ c.toNat → c.toNat ≤ 12 → c ≠ 7 → Begins (.shutdownCause (some (c, v, n))) c.toNat ∧
        (8 ≤ c.toNat → Cuts (.shutdownCause (some (c, v, n))) c.toNat) ∧
        (s.power.latching = false → s.rd R.therm_SD_CAUSE ≠ 0 → c.toNat < 7 ∨ s.power.orderly = false →
          s.Runs (.shutdownCause (some (c, v, n))) fun t => t.rd R.err_CNT_CORR = satAdd32 (s.rd R.err_CNT_CORR) 1 ∧
            s.KeepsRegs t [R.err_CNT_CORR] ∧ t.power = s.power ∧ t.mem = s.mem)) ∧
      (∀ c v n rest, s.power.causes = (c, v, n) :: rest → 1 ≤ c → c < 16 → Begins (.shutdownCause none) c) ∧
      (s.power.orderly = true → Cuts .orderlyLimit 7) ∧
      (s.power.orderly = true → s.power.ordTick ≠ 0 →
        (∀ p, p < 64 → s.enabled p = true → (s.part p).resetDue = none → s.power.ordTick + 64 ≤ s.tickNum → s.Runs .orderlyStop fun t =>
          (t.part p).resetDue = some 3 ∧ t.power.ordForced = true ∧ t.regs = s.regs ∧ t.mem = s.mem) ∧
        ((∀ p, p < 64 → s.pstate p ≤ 2) → s.mem.flashOp = none → s.fwRuns = true → s.Runs .orderlyStop fun t =>
          (s.power.ordStep < 4 → t.power.ordStep = s.power.ordStep + 1) ∧ (4 ≤ s.power.ordStep → t.power.latching = true) ∧
          (s.power.ordStep = 0 → t.rd R.therm_SD_STATE = 2) ∧ (s.power.ordStep = 0 ∨ s.power.ordStep = 3 →
            ∃ op, t.mem.flashOp = some op ∧ op.kind = 2 ∧ t.rd R.mgmt_FLASH_BUSY = 1)))) ∧
    (s.power.latching = true → s.power.latched = false → s.Runs .latchedStop fun t => t.power.latched = true ∧ t.alive = false ∧
      t.host.linkUp = false ∧ t.rd R.host_HOST_LINK = 0 ∧ (∀ c, c < 512 → ∀ e, t.rd (engState e) c = 5) ∧
      (∀ n, n < 24 → t.rd R.port_STATE n = 0) ∧ t.mem = s.mem) ∧
    (s.power.sdcOn = true → s.power.input = true → s.Runs .sdcNFrame fun t =>
      let k := (s.power.sdcPhase + 1) % 14
      t.power.sdcPhase = k ∧ t.power.sdcLow = (decide (k < 2) || (decide (3 ≤ k) && decide (k < 11) &&
        bitOf (16 * s.rd R.therm_SD_CAUSE + s.rd R.therm_SD_CUT) (10 - k))) ∧ t.regs = s.regs ∧ t.mem = s.mem)

/-! ### Power and sensors -/

/-- The current stream and the fast limits (R595, R601, R608, R609): a sample is shown with its over-range flag; ten of them form an average that
sets FREEZE above 1.05 × CEIL_EFF and clears it at or below CEIL_EFF, and sets HOLD above the module's limit and clears it at or below 0.95
of it; reverse current is counted and opens the input stage. -/
def Obligations.InputPowerIsLimited : Prop :=
  ∀ s : State, s.alive = true →
    (∀ (code : BitVec 12) (ovr g1 : Bool), s.flag R.gauge_RUN = true → s.Runs (.iinSample code ovr g1) fun t =>
      t.rd R.gauge_IIN_CODE = code.toNat ∧ t.rd R.gauge_IIN_OVR = b2n ovr ∧ t.rd R.gauge_IIN_SRC = b2n g1 ∧
      t.rd R.gauge_IIN_SEQ = (s.rd R.gauge_IIN_SEQ + 1) % 65536 ∧ t.power.samples = s.power.samples ++ [if ovr then 4096 else code.toNat] ∧
      (ovr = true → s.power.cntIinOvr = 2 → t.power.causes.any (fun x => x.1 == 0xA) = true) ∧ t.mem = s.mem) ∧
    (10 ≤ s.power.samples.length → s.Runs .fastAverage fun t =>
      let x := s.tenSamples
      let l := s.moduleLimit
      t.power.samples = s.power.samples.drop 10 ∧ t.mem = s.mem ∧
      (420 * s.power.ceilEff < x → t.flag R.gov_FREEZE = true) ∧ (x ≤ 400 * s.power.ceilEff → t.rd R.gov_FREEZE = 0) ∧
      (400 * s.power.ceilEff < x → x ≤ 420 * s.power.ceilEff → t.rd R.gov_FREEZE = s.rd R.gov_FREEZE) ∧
      (400 * l < x → t.flag R.gov_HOLD = true) ∧ (x ≤ 380 * l → t.rd R.gov_HOLD = 0) ∧
      (380 * l < x → x ≤ 400 * l → t.rd R.gov_HOLD = s.rd R.gov_HOLD)) ∧
    s.Runs .irevTrip fun t => t.rd R.gov_IREV_TRIPS = satAdd32 (s.rd R.gov_IREV_TRIPS) 1 ∧ t.power.diodeOff = true ∧
      s.KeepsRegs t [R.gov_IREV_TRIPS] ∧ t.mem = s.mem

/-- The converters and sensors (R580 to R584, R612 to R614): a visit in progress, or that of an idle converter's
next entry, ends: it shows its filtered result and when its last conversion began, is counted, and the walk goes on; a write
to the channel table is taken unless its entry is locked; a die sensor shows its reading, or while it is faulty its neighbours' median; and
the cross-check declares a sensor faulty that fails to convert, or has disagreed with its neighbours 4 times in succession. -/
def Obligations.SensorsAreRead : Prop :=
  ∀ s : State,
    (∀ (g3 : Bool) (codes : List (BitVec 12 × Bool)) (tick : BitVec 48) (cyc : BitVec 17) (wait : Word) (v : Visit),
      let g := if g3 then 1 else 0
      s.alive = true → s.flag R.gauge_RUN = true → bitOf (s.rd R.gauge_CONV_FAIL) (g + 2) = false →
      s.visit g = some v ∨ (s.visit g = none ∧ (s.nextVisit g).2 = some v.entry ∧ (s.beginVisit g).visit g = some v) →
      codes.length = s.gCount v.lo → s.Runs (.gaugeVisit g3 codes tick cyc wait) fun t =>
        t.rd R.gres_SEQ v.entry = (s.rd R.gres_SEQ v.entry + 1) % 4096 ∧ Tbl.get 0 t.power.gaugeAt g = v.entry + 1 ∧ t.mem = s.mem ∧
        (s.rd R.tick_PERIOD_LOG2 ≤ 17 → t.rd R.live_G_CYC v.entry = s.lastConversion g v cyc.toNat wait.toNat % s.period) ∧
        (ovrBit (gChan v.lo) = none → t.rd R.gres_OVR v.entry = 0 ∧
          t.rd R.gres_VALUE v.entry = ((filterOut (gOrder v.lo) (s.gN v.lo) (codes.map (·.1.toNat))).getLastD 0) % 65536)) ∧
    (∀ (e : Nat) (value : Word), s.hostOk = true → e < 64 →
      let v := value.toNat
      let lo := BitVec.ofNat 12 (0x400 + 8 * e)
      let hi := BitVec.ofNat 12 (0x404 + 8 * e)
      (s.gLock e = true → ∀ off ∈ [lo, hi], s.Runs (.entryWrite off value) fun t =>
        t.rd R.host_HAE_COUNT = satAdd32 (s.rd R.host_HAE_COUNT) 1 ∧ s.KeepsRegs t [R.host_HAE_COUNT] ∧ t.mem = s.mem) ∧
      (s.gLock e = false → (s.Runs (.entryWrite lo value) fun t => t.rd R.gauge_ENTRY_LO 0 e = v % 2 ^ 24 + 2 ^ 31 * (v / 2 ^ 31) ∧
          s.SameRegs t [(R.gauge_ENTRY_LO, 0, e)] ∧ t.mem = s.mem) ∧
        s.Runs (.entryWrite hi value) fun t => t.rd R.gauge_ENTRY_HI 0 e = v % 4096 ∧ s.SameRegs t [(R.gauge_ENTRY_HI, 0, e)] ∧ t.mem = s.mem)) ∧
    (∀ (sensor : BitVec 7) (v : BitVec 16), s.alive = true →
      let i := sensor.toNat
      (s.flag R.therm_FAULTY 0 i = false → s.Runs (.sensorConvert sensor (some v)) fun t => t.rd R.therm_SENS_T 0 i = v.toNat ∧
        Marks.has t.power.convFail i = false ∧ t.mem = s.mem ∧ (16 * (s.rd R.therm_SHUT_C : Int) ≤ sgn 16 v.toNat → s.power.orderly = false →
          t.power.causes.any (fun x => x.1 == 1) = true)) ∧
      (∀ r m, s.flag R.therm_FAULTY 0 i = true → s.sensMedian i = some m → s.Runs (.sensorConvert sensor r) fun t =>
        t.rd R.therm_SENS_T 0 i = usg 16 m ∧ t.mem = s.mem)) ∧
    (s.alive = true → s.Runs .sensorCrossCheck fun t => t.mem = s.mem ∧ ∀ i, i < 128 →
      let off := decide (16 * s.rd R.therm_CROSS_MARGIN < (s.sensT i - (s.sensMedian i).getD 0).natAbs)
      let n := if off then Tbl.get 0 s.power.disagree i + 1 else 0
      t.rd R.therm_SENS_T 0 i = s.rd R.therm_SENS_T 0 i ∧ (s.flag R.therm_FAULTY 0 i = true → t.flag R.therm_FAULTY 0 i = true) ∧
      (s.flag R.therm_FAULTY 0 i = false →
        (Marks.has s.power.convFail i = true → t.rd R.therm_FAULTY 0 i = 1) ∧
        (Marks.has s.power.convFail i = false → (s.sensNeighbours i).length < 3 → t.rd R.therm_NO_CHECK 0 i = 1 ∧ t.flag R.therm_FAULTY 0 i = false) ∧
        (Marks.has s.power.convFail i = false → 3 ≤ (s.sensNeighbours i).length → t.rd R.therm_NO_CHECK 0 i = 0 ∧
          Tbl.get 0 t.power.disagree i = n ∧ t.flag R.therm_FAULTY 0 i = decide (4 ≤ n))))

/-! ### Testing and logs -/

/-- Audits and gleanings (R639 to R645): an audit whose last part runs passes where no column lies outside its bound and fails otherwise; GL_GO
queues a request or shows why not; and a kernel that has run leaves the request, with its failure recorded; LOFT leaves the Loft zero. -/
def Obligations.TestsRun : Prop :=
  (∀ (core : BitVec 9) (s : State) (a : AuditSt), s.alive = true → (s.core core.toNat).auditing = [a] → a.fail = none →
    let c := core.toNat
    let Ends := fun (i : Instr) (bad : Bool) => s.Runs i fun t => (t.core c).auditing = [] ∧
      t.rd R.aud_AUD_PASS c = (if bad then s.rd R.aud_AUD_PASS c else satAdd32 (s.rd R.aud_AUD_PASS c) 1) ∧
      t.rd R.aud_AUD_FAIL c = (if bad then satAdd32 (s.rd R.aud_AUD_FAIL c) 1 else s.rd R.aud_AUD_FAIL c) ∧
      t.rd R.ptest_AUDITS a.part = satAdd32 (s.rd R.ptest_AUDITS a.part) 1 ∧ t.mem = s.mem
    (∀ meas at_, a.witness = 0 → 3 ≤ a.tile → s.windowAt c = some at_ → s.cyc ≤ at_ + 512 → s.slotIdle c = true → Ends (.auditWitness core meas) ((s.witnessCols c (1 + (s.rd R.aud_AUD_PASS c + s.rd R.aud_AUD_FAIL c) % 15)
        meas).any AuditCol.bad)) ∧
    (∀ pr octs, a.witness ≠ 0 → a.tile = 2 → a.cap = some (pr, octs) →
      Ends (.auditTile core) ((octs.flatMap (s.octetCols c pr)).any AuditCol.bad))) ∧
  (∀ s : State, s.hostOk = true →
    let c := s.rd R.glean_GL_CORE
    let live := s.gleans.filter Glean.open_
    let Shows := fun (n : Nat) => s.Runs .glGo fun t => t.rd R.glean_GL_RES = n ∧ t.gleans = s.gleans ∧ s.KeepsRegs t [R.glean_GL_RES] ∧ t.mem = s.mem
    (live.any (fun g => g.core == c) = true → Shows 1) ∧
    (live.any (fun g => g.core == c) = false → 64 ≤ live.length → Shows 2) ∧
    (live.any (fun g => g.core == c) = false → live.length < 64 →
      (bitOf (s.rd R.glean_GL_SUITE) 7 = true → (s.enabledOwner c).isSome = true → Shows 3) ∧
      (bitOf (s.rd R.glean_GL_SUITE) 7 = false ∨ s.enabledOwner c = none → s.Runs .glGo fun t => t.rd R.glean_GL_RES = 0 ∧
        t.rd R.glean_GL_STATE = 1 ∧ t.mem = s.mem ∧ ∃ g : Glean, t.glean c = some g ∧ g.suite = s.rd R.glean_GL_SUITE ∧ g.open_ = true))) ∧
  ∀ (core : BitVec 9) (fails : Option Word) (s : State) (g : Glean) (k : Nat), s.alive = true → s.glean core.toNat = some g → g.open_ = true →
    g.taken = true → s.nextKernel g = some k → s.Runs (.gleanKernel core fails) fun t => (∃ h : Glean, t.glean core.toNat = some h ∧
      h.suite = g.suite - 2 ^ k ∧ h.started = true ∧ h.ran = g.ran ||| 2 ^ k ∧
      h.fail = match fails with
        | some _ => g.fail ||| 2 ^ k
        | none => g.fail) ∧
      t.mem.granary = s.mem.granary ∧ (k = 7 → ∀ a, a < 8388608 → t.mem.loft.rd (core.toNat * 8388608 + a) = 0)

/-- The logs and snapshots (R629, R630, R651, R662, R668): a record of the previous tick is written to its place in the ring, or dropped and
counted where the ring has no room; LOG_SEL shows a record; a mirror copy brings the mirror up to TR_WR; and SNAP_ARM refuses a tick too near
or a fifth snapshot, or queues it. -/
def Obligations.LogsAreWritten : Prop :=
  ∀ s : State,
    (s.loggerRuns = true → (s.Runs .logFlush fun t => t.log.prev = [] ∧ t.log.haePrev = [] ∧ t.mem.loft = s.mem.loft) ∧
      ∀ r : ErrRec, s.log.prev = [r] → s.log.haePrev = [] → s.Runs .logFlush fun t => t.log.seq = s.log.seq + 1 ∧
        if s.logRoom r then t.rd R.err_LOG_WR = (s.rd R.err_LOG_WR + 1) % 65536 ∧
          t.granBytes (64 * errGran (s.rd R.err_LOG_WR)) 64 = r.bytes s.log.seq.toNat
        else t.mem = s.mem ∧ t.rd R.err_LOG_WR = s.rd R.err_LOG_WR ∧
          t.rd (if r.cls.toNat ≤ 2 then R.err_LOST_LOW else R.err_LOST_FATAL) =
            satAdd32 (s.rd (if r.cls.toNat ≤ 2 then R.err_LOST_LOW else R.err_LOST_FATAL)) 1) ∧
    (∀ sel : BitVec 16, s.hostErr = true → let d := errGran sel.toNat
      Tbl.get 0 s.mem.granErr d = 0 → s.granBad d = false → s.Runs (.logSel sel) fun t => t.rd R.err_LOG_SEL = sel.toNat ∧
        (∀ k, k < 16 → t.rd R.err_LOG_DATA 0 k = leNat (s.granBytes (64 * d + 4 * k) 4)) ∧
        s.KeepsRegs t [R.err_LOG_SEL, R.err_LOG_DATA, R.hbm_RD_GRAN] ∧ t.mem.granary = s.mem.granary) ∧
    (∀ p : BitVec 6, s.alive = true → s.flag R.trail_HM_EN p.toNat = true → s.Runs (.mirrorCopy p) fun t =>
      (t.part p.toNat).mirrored = s.rd R.trail_TR_WR p.toNat ∧ t.mem.loft = s.mem.loft ∧
      s.rd R.trail_TR_WR p.toNat = t.rd R.trail_TR_WR p.toNat) ∧
    (s.hostOk = true → let at_ := s.rd R.snap_SNAP_AT_LO + 2 ^ 32 * s.rd R.snap_SNAP_AT_HI
      (at_ < s.tickNum + 4 → s.Runs .snapArm fun t => t.rd R.snap_SNAP_RES = 3 ∧ t.snaps = s.snaps ∧ s.KeepsRegs t [R.snap_SNAP_RES]) ∧
      (s.tickNum + 4 ≤ at_ → 4 ≤ s.snaps.length → s.Runs .snapArm fun t => t.rd R.snap_SNAP_RES = 4 ∧ t.snaps = s.snaps ∧
        s.KeepsRegs t [R.snap_SNAP_RES]) ∧
      (s.tickNum + 4 ≤ at_ → s.snaps.length < 4 → s.Runs .snapArm fun t => t.rd R.snap_SNAP_RES = 1 ∧
        t.snaps = s.snaps ++ [{ at_ := at_, num := s.rd R.snap_SNAP_NUM }] ∧ t.rd R.snap_PENDING = s.snaps.length + 1 ∧ t.mem = s.mem))

/-! ### The host's register accesses -/

/-- Register accesses of the physical function (R12, R13, R15, R57): a write reaches the register map, and at a register without a rule of its
own it sets RW fields within their range, clears the bits of W1C fields that are written as 1, and changes no RO or WO field and no
other register; a read answers with the register's value; and a read of TICK_NUM_LO holds bits [47:32] for TICK_NUM_HI. -/
def Obligations.RegisterAccesses : Prop :=
  (∀ (off : BitVec 26) (s : State), s.linked = true → s.fnBlocked 0 = false → s.serves 0 off.toNat = true → off.toNat % 4 = 0 →
    (∀ (data : List Byte) (key : Bool), data.length = 4 → s.Runs (.registerWrite 0 off data key) fun t =>
      t = s.regWrite { fn := 0, off := off.toNat, a := off.toNat, v := leNat data } key ∧
      (off = 0x500004 → t.rd R.err_LOG_RD = leNat data % 65536 ∧ s.SameRegs t [(R.err_LOG_RD, 0, 0)] ∧ t.mem = s.mem)) ∧
    (s.Runs (.holdingRegisterRead 0 off 4) fun t => t.host.answer = toLe 4 (s.readReg 0 off.toNat).2 ∧ t.mem = s.mem ∧
      (off = 0x100004 → t.host.answer = toLe 4 (s.rd R.tick_NUM_LO) ∧ t.rd R.tick_NUM_HI = s.rd R.live_NUM_HI % 65536 ∧
        s.KeepsRegs t [R.tick_NUM_HI]))) ∧
  ∀ (a v : Nat) (f : Fld) (i j : Nat) (s : State), (f, i, j) ∈ fieldsAt a →
    (f.acc = .rw → inRangeOf f (bitsOf v f.lsb f.width) = true → (atEdge.any fun g => f.is g) = false →
      (s.plain a v).rd f i j = bitsOf v f.lsb f.width) ∧
    (f.acc = .w1c → (s.plain a v).rd f i j = (s.rd f i j - Nat.land (s.rd f i j) (bitsOf v f.lsb f.width)) % 2 ^ f.width) ∧
    (f.acc = .ro ∨ f.acc = .wo → (s.plain a v).rd f i j = s.rd f i j) ∧ s.KeepsRegs (s.plain a v) ((fieldsAt a).map (·.1))

/-- Writes to IDENT, of 32 bits or as the first half of 64, have no effect and raise no error: nothing in the state changes. -/
def Obligations.IdentWritesHaveNoEffect : Prop :=
  ∀ (data : List Byte) (key : Bool) (s : State), data.length = 4 ∨ data.length = 8 → s.Runs (.registerWrite 0 0 data key) fun t => t = s

/-- While SNAP_VIEW = 1, a read of a latchable field by the physical function returns its shadow; a virtual function's reads always return live
values. -/
def Obligations.SnapshotViewShowsShadows : Prop :=
  ∀ (s : State) (f : Fld) (i j : Nat), f ∈ latchables →
    (s.flag R.snap_SNAP_VIEW = true → s.readField 0 f i j = (s.shadow.rd f i j).toNat ∧
      ∀ off : BitVec 26, fieldsAt off.toNat = [(f, i, j)] → s.linked = true → s.fnBlocked 0 = false → s.serves 0 off.toNat = true →
        off.toNat % 4 = 0 → s.Runs (.holdingRegisterRead 0 off 4) fun t =>
          t.host.answer = toLe 4 ((s.shadow.rd f i j).toNat * 2 ^ f.lsb) ∧ t.mem = s.mem) ∧
    ∀ fn, fn ≠ 0 → s.readField fn f i j = s.rd f i j
end

