-- ==== Sys2Proof/Laws/Table.lean ====
section
/-! SUPPORT. Sparse tables and memories: what a read gives after a write, and that every operation keeps the canonical form. -/

namespace Sys2Proof.Machine

section
variable {α : Type}

/-! ### Reads after writes -/

@[simp] theorem Tbl.find_nil (k : Nat) : Tbl.find ([] : Tbl α) k = none := rfl

@[simp] theorem Tbl.get_nil (d : α) (k : Nat) : Tbl.get d ([] : Tbl α) k = d := rfl

theorem Tbl.find_put (t : Tbl α) (k j : Nat) (v : α) :
    Tbl.find (Tbl.put t k v) j = if k = j then some v else Tbl.find t j := by
  induction t with
  | nil => simp [Tbl.put, Tbl.find]
  | cons e r ih =>
    obtain ⟨a, w⟩ := e
    simp only [Tbl.put]
    split
    · simp [Tbl.find]
    · split
      · rename_i h
        subst h
        by_cases h : k = j <;> simp [Tbl.find, h]
      · rename_i h1 h2
        by_cases h : a = j
        · subst h
          simp [Tbl.find, h2]
        · simp [Tbl.find, h, ih]

theorem Tbl.find_del (t : Tbl α) (k j : Nat) : Tbl.find (Tbl.del t k) j = if k = j then none else Tbl.find t j := by
  induction t with
  | nil => simp [Tbl.del, Tbl.find]
  | cons e r ih =>
    obtain ⟨a, w⟩ := e
    by_cases h1 : a = k <;> by_cases h2 : k = j
    · subst h1; subst h2; simp [Tbl.del, ih]
    · subst h1; simp [Tbl.del, Tbl.find, ih, h2]
    · subst h2; simp [Tbl.del, Tbl.find, ih, h1]
    · by_cases h3 : a = j
      · subst h3
        simp [Tbl.del, Tbl.find, h1, h2]
      · simp [Tbl.del, Tbl.find, ih, h1, h2, h3]

variable [DecidableEq α]

theorem Tbl.get_set (d : α) (t : Tbl α) (k j : Nat) (v : α) :
    Tbl.get d (Tbl.set d t k v) j = if k = j then v else Tbl.get d t j := by
  unfold Tbl.get Tbl.set
  split
  · rw [Tbl.find_del]
    split <;> simp_all
  · rw [Tbl.find_put]
    split <;> simp

@[simp] theorem Tbl.get_set_same (d : α) (t : Tbl α) (k : Nat) (v : α) : Tbl.get d (Tbl.set d t k v) k = v := by
  simp [Tbl.get_set]

theorem Tbl.get_set_other (d : α) (t : Tbl α) (k j : Nat) (v : α) (h : k ≠ j) :
    Tbl.get d (Tbl.set d t k v) j = Tbl.get d t j := by
  simp [Tbl.get_set, h]

theorem Tbl.get_set_ne (d e : α) (t : Tbl α) (k j : Nat) (v : α) (h : k ≠ j) : Tbl.get e (Tbl.set d t k v) j = Tbl.get e t j := by
  unfold Tbl.get Tbl.set
  split
  · rw [Tbl.find_del, if_neg h]
  · rw [Tbl.find_put, if_neg h]

@[simp] theorem Tbl.get_upd_same (d : α) (t : Tbl α) (k : Nat) (f : α → α) :
    Tbl.get d (Tbl.upd d t k f) k = f (Tbl.get d t k) := by
  simp [Tbl.upd]

theorem Tbl.get_upd_other (d : α) (t : Tbl α) (k j : Nat) (f : α → α) (h : k ≠ j) :
    Tbl.get d (Tbl.upd d t k f) j = Tbl.get d t j := by
  simp [Tbl.upd, Tbl.get_set, h]

theorem Tbl.get_upd (d : α) (t : Tbl α) (k j : Nat) (f : α → α) :
    Tbl.get d (Tbl.upd d t k f) j = if k = j then f (Tbl.get d t k) else Tbl.get d t j := by
  simp [Tbl.upd, Tbl.get_set]

/-! ### The canonical form -/

omit [DecidableEq α] in
theorem Tbl.mem_put {t : Tbl α} {k : Nat} {v : α} {e : Nat × α} (h : e ∈ Tbl.put t k v) : e = (k, v) ∨ e ∈ t := by
  induction t with
  | nil => simpa [Tbl.put] using h
  | cons x r ih =>
    obtain ⟨a, w⟩ := x
    simp only [Tbl.put] at h
    split at h
    · simpa using h
    · split at h
      · rcases List.mem_cons.1 h with h | h
        · exact .inl h
        · exact .inr (List.mem_cons_of_mem _ h)
      · rcases List.mem_cons.1 h with h | h
        · exact .inr (h ▸ List.mem_cons_self)
        · rcases ih h with h | h
          · exact .inl h
          · exact .inr (List.mem_cons_of_mem _ h)

omit [DecidableEq α] in
theorem Tbl.del_sublist (t : Tbl α) (k : Nat) : (Tbl.del t k).Sublist t := by
  induction t with
  | nil => exact List.Sublist.refl _
  | cons e r ih =>
    obtain ⟨a, w⟩ := e
    simp only [Tbl.del]
    split
    · exact ih.cons _
    · exact ih.cons_cons _

omit [DecidableEq α] in
theorem Tbl.sorted_del {t : Tbl α} (h : t.sorted) (k : Nat) : (Tbl.del t k).sorted := List.Pairwise.sublist (Tbl.del_sublist t k) h

omit [DecidableEq α] in
theorem Tbl.sorted_put {t : Tbl α} (h : t.sorted) (k : Nat) (v : α) : (Tbl.put t k v).sorted := by
  induction t with
  | nil => simp [Tbl.put, Tbl.sorted]
  | cons e r ih =>
    obtain ⟨a, w⟩ := e
    have h' := List.pairwise_cons.1 h
    simp only [Tbl.put]
    split
    · rename_i hk
      refine List.pairwise_cons.2 ⟨fun x hx => ?_, h⟩
      rcases List.mem_cons.1 hx with hx | hx
      · simpa [hx] using hk
      · exact Nat.lt_trans hk (h'.1 x hx)
    · split
      · rename_i hk
        subst hk
        exact List.pairwise_cons.2 ⟨h'.1, h'.2⟩
      · rename_i h1 h2
        refine List.pairwise_cons.2 ⟨fun x hx => ?_, ih h'.2⟩
        rcases Tbl.mem_put hx with hx | hx
        · simp only [hx]; omega
        · exact h'.1 x hx

omit [DecidableEq α] in
@[simp] theorem Tbl.wf_nil (d : α) : Tbl.wf d ([] : Tbl α) := ⟨List.Pairwise.nil, by simp⟩

theorem Tbl.sorted_set {d : α} {t : Tbl α} (h : t.sorted) (k : Nat) (v : α) : (Tbl.set d t k v).sorted := by
  unfold Tbl.set
  split
  · exact Tbl.sorted_del h k
  · exact Tbl.sorted_put h k v

theorem Tbl.mem_set {d : α} {t : Tbl α} {k : Nat} {v : α} {e : Nat × α} (h : e ∈ Tbl.set d t k v) :
    e = (k, v) ∧ v ≠ d ∨ e ∈ t := by
  unfold Tbl.set at h
  split at h
  · exact .inr ((Tbl.del_sublist t k).subset h)
  · rcases Tbl.mem_put h with h | h
    · exact .inl ⟨h, by assumption⟩
    · exact .inr h

theorem Tbl.wf_set {d : α} {t : Tbl α} (h : Tbl.wf d t) (k : Nat) (v : α) : Tbl.wf d (Tbl.set d t k v) := by
  refine ⟨Tbl.sorted_set h.1 k v, fun e he => ?_⟩
  rcases Tbl.mem_set he with ⟨rfl, hv⟩ | he
  · exact hv
  · exact h.2 e he

theorem Tbl.wf_upd {d : α} {t : Tbl α} (h : Tbl.wf d t) (k : Nat) (f : α → α) : Tbl.wf d (Tbl.upd d t k f) := Tbl.wf_set h _ _

omit [DecidableEq α] in
theorem Tbl.wf_filter {d : α} {t : Tbl α} (h : Tbl.wf d t) (p : Nat × α → Bool) : Tbl.wf d (t.filter p) :=
  ⟨List.Pairwise.sublist List.filter_sublist h.1, fun e he => h.2 e (List.mem_filter.1 he).1⟩

omit [DecidableEq α] in
theorem Tbl.wf_foldl {β : Type} {d : α} {xs : List β} {f : Tbl α → β → Tbl α} {t : Tbl α} (h : Tbl.wf d t)
    (hf : ∀ t x, Tbl.wf d t → Tbl.wf d (f t x)) : Tbl.wf d (xs.foldl f t) := by
  induction xs generalizing t with
  | nil => exact h
  | cons x r ih => exact ih (hf t x h)

omit [DecidableEq α] in
theorem Tbl.wf_clearRange {d : α} {t : Tbl α} (h : Tbl.wf d t) (lo n : Nat) : Tbl.wf d (Tbl.clearRange t lo n) := Tbl.wf_filter h _

end

/-! ### Memories -/

theorem Mem.wf_wr {m : Mem} (h : m.wf) (a : Nat) (b : Byte) : (m.wr a b).wf := Tbl.wf_set h a b

theorem Mem.rd_wr (m : Mem) (a k : Nat) (b : Byte) : (m.wr a b).rd k = if a = k then b else m.rd k := Tbl.get_set _ _ _ _ _

theorem Mem.mem_cells {a : Nat} {bs : List Byte} {e : Host.Cell} (h : e ∈ Mem.cells a bs) :
    a ≤ e.1 ∧ e.1 < a + bs.length ∧ e.2 ≠ 0 := by
  induction bs generalizing a with
  | nil => simp [Mem.cells] at h
  | cons b r ih =>
    simp only [Mem.cells] at h
    split at h
    · have := ih h
      simp only [List.length_cons]
      exact ⟨by omega, by omega, this.2.2⟩
    · rcases List.mem_cons.1 h with h | h
      · subst h
        simp only [List.length_cons]
        exact ⟨Nat.le_refl _, by omega, by assumption⟩
      · have := ih h
        simp only [List.length_cons]
        exact ⟨by omega, by omega, this.2.2⟩

theorem Mem.sorted_cells (a : Nat) (bs : List Byte) : Tbl.sorted (Mem.cells a bs) := by
  induction bs generalizing a with
  | nil => exact List.Pairwise.nil
  | cons b r ih =>
    simp only [Mem.cells]
    split
    · exact ih _
    · exact List.pairwise_cons.2 ⟨fun x hx => by have := Mem.mem_cells hx; simp only; omega, ih _⟩

/-- Writing bytes keeps the canonical form. -/
theorem Mem.wf_write {m : Mem} (h : m.wf) (a : Nat) (bs : List Byte) : (m.write a bs).wf := by
  refine ⟨List.pairwise_append.2 ⟨List.Pairwise.sublist List.filter_sublist h.1,
    List.pairwise_append.2 ⟨Mem.sorted_cells a bs, List.Pairwise.sublist List.filter_sublist h.1, ?_⟩, ?_⟩, ?_⟩
  · intro x hx y hy
    have := Mem.mem_cells hx
    have := (List.mem_filter.1 hy).2
    simp only [decide_eq_true_eq] at this
    omega
  · intro x hx y hy
    have hx' := (List.mem_filter.1 hx).2
    simp only [decide_eq_true_eq] at hx'
    rcases List.mem_append.1 hy with hy | hy
    · have := Mem.mem_cells hy
      omega
    · have := (List.mem_filter.1 hy).2
      simp only [decide_eq_true_eq] at this
      omega
  · intro e he
    rcases List.mem_append.1 he with he | he
    · exact h.2 e (List.mem_filter.1 he).1
    · rcases List.mem_append.1 he with he | he
      · exact (Mem.mem_cells he).2.2
      · exact h.2 e (List.mem_filter.1 he).1

theorem Mem.wf_putLe {m : Mem} (h : m.wf) (a n v : Nat) : (m.putLe a n v).wf := Mem.wf_write h _ _

theorem Mem.wf_zero {m : Mem} (h : m.wf) (a n : Nat) : (m.zero a n).wf := Tbl.wf_clearRange h _ _

theorem Marks.wf_put {m : Marks} (h : Tbl.wf false m) (k : Nat) (b : Bool) : Tbl.wf false (m.put k b) := Tbl.wf_set h _ _

theorem Marks.wf_clear {m : Marks} (h : Tbl.wf false m) (lo n : Nat) : Tbl.wf false (m.clear lo n) := Tbl.wf_clearRange h _ _

theorem Marks.has_put (m : Marks) (k j : Nat) (b : Bool) : (m.put k b).has j = if k = j then b else m.has j := Tbl.get_set _ _ _ _ _

/-! ### Reads of written bytes -/

theorem Tbl.find_append {α : Type} (x y : Tbl α) (k : Nat) : Tbl.find (x ++ y) k = (Tbl.find x k).or (Tbl.find y k) := by
  induction x with
  | nil => simp
  | cons e r ih =>
    obtain ⟨a, v⟩ := e
    by_cases h : a = k <;> simp [Tbl.find, h, ih]

theorem Tbl.find_filter {α : Type} (t : Tbl α) (p : Nat → Bool) (k : Nat) :
    Tbl.find (t.filter (fun e => p e.1)) k = if p k then Tbl.find t k else none := by
  induction t with
  | nil => simp
  | cons e r ih =>
    obtain ⟨a, v⟩ := e
    by_cases hp : p a <;> by_cases h : a = k
    · subst h; simp [Tbl.find, hp]
    · simp [Tbl.find, hp, h, ih]
    · subst h; simp [hp, ih]
    · simp [Tbl.find, hp, h, ih]

theorem Tbl.get_filter {α : Type} (d : α) (t : Tbl α) (p : Nat → Bool) (k : Nat) :
    Tbl.get d (t.filter (fun e => p e.1)) k = if p k then Tbl.get d t k else d := by
  unfold Tbl.get
  rw [Tbl.find_filter]
  split <;> rfl

theorem Tbl.get_clearRange {α : Type} (d : α) (t : Tbl α) (lo n k : Nat) :
    Tbl.get d (Tbl.clearRange t lo n) k = if lo ≤ k ∧ k < lo + n then d else Tbl.get d t k := by
  have h := Tbl.get_filter d t (fun x => !(decide (lo ≤ x) && decide (x < lo + n))) k
  refine h.trans ?_
  by_cases h1 : lo ≤ k <;> by_cases h2 : k < lo + n <;> simp [h1, h2]

theorem Tbl.find_none {α : Type} {t : Tbl α} {k : Nat} (h : ∀ e ∈ t, e.1 ≠ k) : Tbl.find t k = none := by
  induction t with
  | nil => rfl
  | cons e r ih =>
    obtain ⟨a, v⟩ := e
    have ha : a ≠ k := h (a, v) List.mem_cons_self
    simp [Tbl.find, ha, ih (fun e he => h e (List.mem_cons_of_mem _ he))]

theorem Mem.find_cells_out {a : Nat} {bs : List Byte} {k : Nat} (h : k < a ∨ a + bs.length ≤ k) : Tbl.find (Mem.cells a bs) k = none :=
  Tbl.find_none (fun e he hk => by have := Mem.mem_cells he; omega)

theorem Mem.get_cells (a : Nat) (bs : List Byte) (k : Nat) :
    Tbl.get (0 : Byte) (Mem.cells a bs) k = if a ≤ k then bs.getD (k - a) 0 else 0 := by
  induction bs generalizing a with
  | nil => simp [Mem.cells]
  | cons b r ih =>
    have key : Tbl.get (0 : Byte) (Mem.cells a (b :: r)) k =
        if a = k then b else Tbl.get (0 : Byte) (Mem.cells (a + 1) r) k := by
      simp only [Mem.cells]
      by_cases hb : b = 0
      · rw [if_pos hb]
        by_cases h : a = k
        · rw [if_pos h, Tbl.get, Mem.find_cells_out (by omega), hb]
          rfl
        · rw [if_neg h]
      · rw [if_neg hb]
        by_cases h : a = k <;> simp [Tbl.get, Tbl.find, h]
    rw [key, ih]
    by_cases h : a = k
    · subst h; simp
    · by_cases h2 : a + 1 ≤ k
      · have : k - a = (k - (a + 1)) + 1 := by omega
        simp [h, h2, show a ≤ k by omega, this]
      · simp [h, h2, show ¬ a ≤ k by omega]

/-- A byte of a memory after a write of bytes. -/
theorem Mem.rd_write (m : Mem) (a k : Nat) (bs : List Byte) :
    (m.write a bs).rd k = if a ≤ k ∧ k < a + bs.length then bs.getD (k - a) 0 else m.rd k := by
  have h1 := Tbl.find_filter m (fun x => decide (x < a)) k
  have h2 := Tbl.find_filter m (fun x => decide (a + bs.length ≤ x)) k
  have h3 := Mem.get_cells a bs k
  simp only [Mem.rd, Tbl.get, Mem.write, Tbl.find_append] at *
  rw [h1, h2]
  by_cases ha : a ≤ k
  · by_cases hb : k < a + bs.length
    · simpa [ha, hb, show ¬ k < a by omega, show ¬ a + bs.length ≤ k by omega] using h3
    · simp [ha, hb, Mem.find_cells_out (.inr (Nat.le_of_not_lt hb)), show ¬ k < a by omega, show a + bs.length ≤ k by omega]
  · simp [ha, Mem.find_cells_out (.inl (Nat.lt_of_not_le ha)), show k < a by omega, show ¬ a + bs.length ≤ k by omega]

/-- A write changes no byte outside those it writes. -/
theorem Mem.rd_write_other (m : Mem) (a k : Nat) (bs : List Byte) (h : k < a ∨ a + bs.length ≤ k) :
    (m.write a bs).rd k = m.rd k := by
  rw [Mem.rd_write]
  split
  · omega
  · rfl

theorem Mem.rd_zero (m : Mem) (a n k : Nat) : (m.zero a n).rd k = if a ≤ k ∧ k < a + n then 0 else m.rd k := Tbl.get_clearRange _ _ _ _ _

theorem Marks.has_clear (m : Marks) (lo n k : Nat) : (m.clear lo n).has k = if lo ≤ k ∧ k < lo + n then false else m.has k :=
  Tbl.get_clearRange _ _ _ _ _

end Sys2Proof.Machine
end

