-- ==== Sys2Proof/Laws/State.lean ====
section
/-! SUPPORT. What each update of the state leaves in each of its fields, and what a register, a partition or a core reads as after one. -/

namespace Sys2Proof.Machine

/-! ### wr -/

@[simp] theorem State.wr_regs (s : State) (f : Fld) (v i j : Nat) : (s.wr f v i j).regs = s.regs.wr f i j v := rfl
@[simp] theorem State.wr_mem (s : State) (f : Fld) (v i j : Nat) : (s.wr f v i j).mem = s.mem := rfl
@[simp] theorem State.wr_log (s : State) (f : Fld) (v i j : Nat) : (s.wr f v i j).log = s.log := rfl
@[simp] theorem State.wr_host (s : State) (f : Fld) (v i j : Nat) : (s.wr f v i j).host = s.host := rfl
@[simp] theorem State.wr_tick (s : State) (f : Fld) (v i j : Nat) : (s.wr f v i j).tick = s.tick := rfl
@[simp] theorem State.wr_power (s : State) (f : Fld) (v i j : Nat) : (s.wr f v i j).power = s.power := rfl
@[simp] theorem State.wr_parts (s : State) (f : Fld) (v i j : Nat) : (s.wr f v i j).parts = s.parts := rfl
@[simp] theorem State.wr_cores (s : State) (f : Fld) (v i j : Nat) : (s.wr f v i j).cores = s.cores := rfl
@[simp] theorem State.wr_tier (s : State) (f : Fld) (v i j : Nat) : (s.wr f v i j).tier = s.tier := rfl
@[simp] theorem State.wr_winnow (s : State) (f : Fld) (v i j : Nat) : (s.wr f v i j).winnow = s.winnow := rfl
@[simp] theorem State.wr_net (s : State) (f : Fld) (v i j : Nat) : (s.wr f v i j).net = s.net := rfl
@[simp] theorem State.wr_mgmt (s : State) (f : Fld) (v i j : Nat) : (s.wr f v i j).mgmt = s.mgmt := rfl
@[simp] theorem State.wr_gleans (s : State) (f : Fld) (v i j : Nat) : (s.wr f v i j).gleans = s.gleans := rfl
@[simp] theorem State.wr_snaps (s : State) (f : Fld) (v i j : Nat) : (s.wr f v i j).snaps = s.snaps := rfl
@[simp] theorem State.wr_shadow (s : State) (f : Fld) (v i j : Nat) : (s.wr f v i j).shadow = s.shadow := rfl
@[simp] theorem State.wr_fresh (s : State) (f : Fld) (v i j : Nat) : (s.wr f v i j).fresh = s.fresh := rfl
@[simp] theorem State.wr_pending (s : State) (f : Fld) (v i j : Nat) : (s.wr f v i j).pending = s.pending := rfl

/-! ### updPart -/

@[simp] theorem State.updPart_regs (s : State) (p : Nat) (f : PartSt → PartSt) : (s.updPart p f).regs = s.regs := rfl
@[simp] theorem State.updPart_mem (s : State) (p : Nat) (f : PartSt → PartSt) : (s.updPart p f).mem = s.mem := rfl
@[simp] theorem State.updPart_log (s : State) (p : Nat) (f : PartSt → PartSt) : (s.updPart p f).log = s.log := rfl
@[simp] theorem State.updPart_host (s : State) (p : Nat) (f : PartSt → PartSt) : (s.updPart p f).host = s.host := rfl
@[simp] theorem State.updPart_tick (s : State) (p : Nat) (f : PartSt → PartSt) : (s.updPart p f).tick = s.tick := rfl
@[simp] theorem State.updPart_power (s : State) (p : Nat) (f : PartSt → PartSt) : (s.updPart p f).power = s.power := rfl
@[simp] theorem State.updPart_parts (s : State) (p : Nat) (f : PartSt → PartSt) : (s.updPart p f).parts = Tbl.upd {} s.parts p f := rfl
@[simp] theorem State.updPart_cores (s : State) (p : Nat) (f : PartSt → PartSt) : (s.updPart p f).cores = s.cores := rfl
@[simp] theorem State.updPart_tier (s : State) (p : Nat) (f : PartSt → PartSt) : (s.updPart p f).tier = s.tier := rfl
@[simp] theorem State.updPart_winnow (s : State) (p : Nat) (f : PartSt → PartSt) : (s.updPart p f).winnow = s.winnow := rfl
@[simp] theorem State.updPart_net (s : State) (p : Nat) (f : PartSt → PartSt) : (s.updPart p f).net = s.net := rfl
@[simp] theorem State.updPart_mgmt (s : State) (p : Nat) (f : PartSt → PartSt) : (s.updPart p f).mgmt = s.mgmt := rfl
@[simp] theorem State.updPart_gleans (s : State) (p : Nat) (f : PartSt → PartSt) : (s.updPart p f).gleans = s.gleans := rfl
@[simp] theorem State.updPart_snaps (s : State) (p : Nat) (f : PartSt → PartSt) : (s.updPart p f).snaps = s.snaps := rfl
@[simp] theorem State.updPart_shadow (s : State) (p : Nat) (f : PartSt → PartSt) : (s.updPart p f).shadow = s.shadow := rfl
@[simp] theorem State.updPart_fresh (s : State) (p : Nat) (f : PartSt → PartSt) : (s.updPart p f).fresh = s.fresh := rfl
@[simp] theorem State.updPart_pending (s : State) (p : Nat) (f : PartSt → PartSt) : (s.updPart p f).pending = s.pending := rfl

/-! ### updCore -/

@[simp] theorem State.updCore_regs (s : State) (c : Nat) (f : CoreSt → CoreSt) : (s.updCore c f).regs = s.regs := rfl
@[simp] theorem State.updCore_mem (s : State) (c : Nat) (f : CoreSt → CoreSt) : (s.updCore c f).mem = s.mem := rfl
@[simp] theorem State.updCore_log (s : State) (c : Nat) (f : CoreSt → CoreSt) : (s.updCore c f).log = s.log := rfl
@[simp] theorem State.updCore_host (s : State) (c : Nat) (f : CoreSt → CoreSt) : (s.updCore c f).host = s.host := rfl
@[simp] theorem State.updCore_tick (s : State) (c : Nat) (f : CoreSt → CoreSt) : (s.updCore c f).tick = s.tick := rfl
@[simp] theorem State.updCore_power (s : State) (c : Nat) (f : CoreSt → CoreSt) : (s.updCore c f).power = s.power := rfl
@[simp] theorem State.updCore_parts (s : State) (c : Nat) (f : CoreSt → CoreSt) : (s.updCore c f).parts = s.parts := rfl
@[simp] theorem State.updCore_cores (s : State) (c : Nat) (f : CoreSt → CoreSt) : (s.updCore c f).cores = Tbl.upd {} s.cores c f := rfl
@[simp] theorem State.updCore_tier (s : State) (c : Nat) (f : CoreSt → CoreSt) : (s.updCore c f).tier = s.tier := rfl
@[simp] theorem State.updCore_winnow (s : State) (c : Nat) (f : CoreSt → CoreSt) : (s.updCore c f).winnow = s.winnow := rfl
@[simp] theorem State.updCore_net (s : State) (c : Nat) (f : CoreSt → CoreSt) : (s.updCore c f).net = s.net := rfl
@[simp] theorem State.updCore_mgmt (s : State) (c : Nat) (f : CoreSt → CoreSt) : (s.updCore c f).mgmt = s.mgmt := rfl
@[simp] theorem State.updCore_gleans (s : State) (c : Nat) (f : CoreSt → CoreSt) : (s.updCore c f).gleans = s.gleans := rfl
@[simp] theorem State.updCore_snaps (s : State) (c : Nat) (f : CoreSt → CoreSt) : (s.updCore c f).snaps = s.snaps := rfl
@[simp] theorem State.updCore_shadow (s : State) (c : Nat) (f : CoreSt → CoreSt) : (s.updCore c f).shadow = s.shadow := rfl
@[simp] theorem State.updCore_fresh (s : State) (c : Nat) (f : CoreSt → CoreSt) : (s.updCore c f).fresh = s.fresh := rfl
@[simp] theorem State.updCore_pending (s : State) (c : Nat) (f : CoreSt → CoreSt) : (s.updCore c f).pending = s.pending := rfl

/-! ### updMem -/

@[simp] theorem State.updMem_regs (s : State) (f : MemSt → MemSt) : (s.updMem f).regs = s.regs := rfl
@[simp] theorem State.updMem_mem (s : State) (f : MemSt → MemSt) : (s.updMem f).mem = f s.mem := rfl
@[simp] theorem State.updMem_log (s : State) (f : MemSt → MemSt) : (s.updMem f).log = s.log := rfl
@[simp] theorem State.updMem_host (s : State) (f : MemSt → MemSt) : (s.updMem f).host = s.host := rfl
@[simp] theorem State.updMem_tick (s : State) (f : MemSt → MemSt) : (s.updMem f).tick = s.tick := rfl
@[simp] theorem State.updMem_power (s : State) (f : MemSt → MemSt) : (s.updMem f).power = s.power := rfl
@[simp] theorem State.updMem_parts (s : State) (f : MemSt → MemSt) : (s.updMem f).parts = s.parts := rfl
@[simp] theorem State.updMem_cores (s : State) (f : MemSt → MemSt) : (s.updMem f).cores = s.cores := rfl
@[simp] theorem State.updMem_tier (s : State) (f : MemSt → MemSt) : (s.updMem f).tier = s.tier := rfl
@[simp] theorem State.updMem_winnow (s : State) (f : MemSt → MemSt) : (s.updMem f).winnow = s.winnow := rfl
@[simp] theorem State.updMem_net (s : State) (f : MemSt → MemSt) : (s.updMem f).net = s.net := rfl
@[simp] theorem State.updMem_mgmt (s : State) (f : MemSt → MemSt) : (s.updMem f).mgmt = s.mgmt := rfl
@[simp] theorem State.updMem_gleans (s : State) (f : MemSt → MemSt) : (s.updMem f).gleans = s.gleans := rfl
@[simp] theorem State.updMem_snaps (s : State) (f : MemSt → MemSt) : (s.updMem f).snaps = s.snaps := rfl
@[simp] theorem State.updMem_shadow (s : State) (f : MemSt → MemSt) : (s.updMem f).shadow = s.shadow := rfl
@[simp] theorem State.updMem_fresh (s : State) (f : MemSt → MemSt) : (s.updMem f).fresh = s.fresh := rfl
@[simp] theorem State.updMem_pending (s : State) (f : MemSt → MemSt) : (s.updMem f).pending = s.pending := rfl

/-! ### updPower -/

@[simp] theorem State.updPower_regs (s : State) (f : PowerSt → PowerSt) : (s.updPower f).regs = s.regs := rfl
@[simp] theorem State.updPower_mem (s : State) (f : PowerSt → PowerSt) : (s.updPower f).mem = s.mem := rfl
@[simp] theorem State.updPower_log (s : State) (f : PowerSt → PowerSt) : (s.updPower f).log = s.log := rfl
@[simp] theorem State.updPower_host (s : State) (f : PowerSt → PowerSt) : (s.updPower f).host = s.host := rfl
@[simp] theorem State.updPower_tick (s : State) (f : PowerSt → PowerSt) : (s.updPower f).tick = s.tick := rfl
@[simp] theorem State.updPower_power (s : State) (f : PowerSt → PowerSt) : (s.updPower f).power = f s.power := rfl
@[simp] theorem State.updPower_parts (s : State) (f : PowerSt → PowerSt) : (s.updPower f).parts = s.parts := rfl
@[simp] theorem State.updPower_cores (s : State) (f : PowerSt → PowerSt) : (s.updPower f).cores = s.cores := rfl
@[simp] theorem State.updPower_tier (s : State) (f : PowerSt → PowerSt) : (s.updPower f).tier = s.tier := rfl
@[simp] theorem State.updPower_winnow (s : State) (f : PowerSt → PowerSt) : (s.updPower f).winnow = s.winnow := rfl
@[simp] theorem State.updPower_net (s : State) (f : PowerSt → PowerSt) : (s.updPower f).net = s.net := rfl
@[simp] theorem State.updPower_mgmt (s : State) (f : PowerSt → PowerSt) : (s.updPower f).mgmt = s.mgmt := rfl
@[simp] theorem State.updPower_gleans (s : State) (f : PowerSt → PowerSt) : (s.updPower f).gleans = s.gleans := rfl
@[simp] theorem State.updPower_snaps (s : State) (f : PowerSt → PowerSt) : (s.updPower f).snaps = s.snaps := rfl
@[simp] theorem State.updPower_shadow (s : State) (f : PowerSt → PowerSt) : (s.updPower f).shadow = s.shadow := rfl
@[simp] theorem State.updPower_fresh (s : State) (f : PowerSt → PowerSt) : (s.updPower f).fresh = s.fresh := rfl
@[simp] theorem State.updPower_pending (s : State) (f : PowerSt → PowerSt) : (s.updPower f).pending = s.pending := rfl

/-! ### updLog -/

@[simp] theorem State.updLog_regs (s : State) (f : LogSt → LogSt) : (s.updLog f).regs = s.regs := rfl
@[simp] theorem State.updLog_mem (s : State) (f : LogSt → LogSt) : (s.updLog f).mem = s.mem := rfl
@[simp] theorem State.updLog_log (s : State) (f : LogSt → LogSt) : (s.updLog f).log = f s.log := rfl
@[simp] theorem State.updLog_host (s : State) (f : LogSt → LogSt) : (s.updLog f).host = s.host := rfl
@[simp] theorem State.updLog_tick (s : State) (f : LogSt → LogSt) : (s.updLog f).tick = s.tick := rfl
@[simp] theorem State.updLog_power (s : State) (f : LogSt → LogSt) : (s.updLog f).power = s.power := rfl
@[simp] theorem State.updLog_parts (s : State) (f : LogSt → LogSt) : (s.updLog f).parts = s.parts := rfl
@[simp] theorem State.updLog_cores (s : State) (f : LogSt → LogSt) : (s.updLog f).cores = s.cores := rfl
@[simp] theorem State.updLog_tier (s : State) (f : LogSt → LogSt) : (s.updLog f).tier = s.tier := rfl
@[simp] theorem State.updLog_winnow (s : State) (f : LogSt → LogSt) : (s.updLog f).winnow = s.winnow := rfl
@[simp] theorem State.updLog_net (s : State) (f : LogSt → LogSt) : (s.updLog f).net = s.net := rfl
@[simp] theorem State.updLog_mgmt (s : State) (f : LogSt → LogSt) : (s.updLog f).mgmt = s.mgmt := rfl
@[simp] theorem State.updLog_gleans (s : State) (f : LogSt → LogSt) : (s.updLog f).gleans = s.gleans := rfl
@[simp] theorem State.updLog_snaps (s : State) (f : LogSt → LogSt) : (s.updLog f).snaps = s.snaps := rfl
@[simp] theorem State.updLog_shadow (s : State) (f : LogSt → LogSt) : (s.updLog f).shadow = s.shadow := rfl
@[simp] theorem State.updLog_fresh (s : State) (f : LogSt → LogSt) : (s.updLog f).fresh = s.fresh := rfl
@[simp] theorem State.updLog_pending (s : State) (f : LogSt → LogSt) : (s.updLog f).pending = s.pending := rfl

/-! ### updHost -/

@[simp] theorem State.updHost_regs (s : State) (f : HostSt → HostSt) : (s.updHost f).regs = s.regs := rfl
@[simp] theorem State.updHost_mem (s : State) (f : HostSt → HostSt) : (s.updHost f).mem = s.mem := rfl
@[simp] theorem State.updHost_log (s : State) (f : HostSt → HostSt) : (s.updHost f).log = s.log := rfl
@[simp] theorem State.updHost_host (s : State) (f : HostSt → HostSt) : (s.updHost f).host = f s.host := rfl
@[simp] theorem State.updHost_tick (s : State) (f : HostSt → HostSt) : (s.updHost f).tick = s.tick := rfl
@[simp] theorem State.updHost_power (s : State) (f : HostSt → HostSt) : (s.updHost f).power = s.power := rfl
@[simp] theorem State.updHost_parts (s : State) (f : HostSt → HostSt) : (s.updHost f).parts = s.parts := rfl
@[simp] theorem State.updHost_cores (s : State) (f : HostSt → HostSt) : (s.updHost f).cores = s.cores := rfl
@[simp] theorem State.updHost_tier (s : State) (f : HostSt → HostSt) : (s.updHost f).tier = s.tier := rfl
@[simp] theorem State.updHost_winnow (s : State) (f : HostSt → HostSt) : (s.updHost f).winnow = s.winnow := rfl
@[simp] theorem State.updHost_net (s : State) (f : HostSt → HostSt) : (s.updHost f).net = s.net := rfl
@[simp] theorem State.updHost_mgmt (s : State) (f : HostSt → HostSt) : (s.updHost f).mgmt = s.mgmt := rfl
@[simp] theorem State.updHost_gleans (s : State) (f : HostSt → HostSt) : (s.updHost f).gleans = s.gleans := rfl
@[simp] theorem State.updHost_snaps (s : State) (f : HostSt → HostSt) : (s.updHost f).snaps = s.snaps := rfl
@[simp] theorem State.updHost_shadow (s : State) (f : HostSt → HostSt) : (s.updHost f).shadow = s.shadow := rfl
@[simp] theorem State.updHost_fresh (s : State) (f : HostSt → HostSt) : (s.updHost f).fresh = s.fresh := rfl
@[simp] theorem State.updHost_pending (s : State) (f : HostSt → HostSt) : (s.updHost f).pending = s.pending := rfl

/-! ### updTick -/

@[simp] theorem State.updTick_regs (s : State) (f : TickSt → TickSt) : (s.updTick f).regs = s.regs := rfl
@[simp] theorem State.updTick_mem (s : State) (f : TickSt → TickSt) : (s.updTick f).mem = s.mem := rfl
@[simp] theorem State.updTick_log (s : State) (f : TickSt → TickSt) : (s.updTick f).log = s.log := rfl
@[simp] theorem State.updTick_host (s : State) (f : TickSt → TickSt) : (s.updTick f).host = s.host := rfl
@[simp] theorem State.updTick_tick (s : State) (f : TickSt → TickSt) : (s.updTick f).tick = f s.tick := rfl
@[simp] theorem State.updTick_power (s : State) (f : TickSt → TickSt) : (s.updTick f).power = s.power := rfl
@[simp] theorem State.updTick_parts (s : State) (f : TickSt → TickSt) : (s.updTick f).parts = s.parts := rfl
@[simp] theorem State.updTick_cores (s : State) (f : TickSt → TickSt) : (s.updTick f).cores = s.cores := rfl
@[simp] theorem State.updTick_tier (s : State) (f : TickSt → TickSt) : (s.updTick f).tier = s.tier := rfl
@[simp] theorem State.updTick_winnow (s : State) (f : TickSt → TickSt) : (s.updTick f).winnow = s.winnow := rfl
@[simp] theorem State.updTick_net (s : State) (f : TickSt → TickSt) : (s.updTick f).net = s.net := rfl
@[simp] theorem State.updTick_mgmt (s : State) (f : TickSt → TickSt) : (s.updTick f).mgmt = s.mgmt := rfl
@[simp] theorem State.updTick_gleans (s : State) (f : TickSt → TickSt) : (s.updTick f).gleans = s.gleans := rfl
@[simp] theorem State.updTick_snaps (s : State) (f : TickSt → TickSt) : (s.updTick f).snaps = s.snaps := rfl
@[simp] theorem State.updTick_shadow (s : State) (f : TickSt → TickSt) : (s.updTick f).shadow = s.shadow := rfl
@[simp] theorem State.updTick_fresh (s : State) (f : TickSt → TickSt) : (s.updTick f).fresh = s.fresh := rfl
@[simp] theorem State.updTick_pending (s : State) (f : TickSt → TickSt) : (s.updTick f).pending = s.pending := rfl

/-! ### updTier -/

@[simp] theorem State.updTier_regs (s : State) (f : TierSt → TierSt) : (s.updTier f).regs = s.regs := rfl
@[simp] theorem State.updTier_mem (s : State) (f : TierSt → TierSt) : (s.updTier f).mem = s.mem := rfl
@[simp] theorem State.updTier_log (s : State) (f : TierSt → TierSt) : (s.updTier f).log = s.log := rfl
@[simp] theorem State.updTier_host (s : State) (f : TierSt → TierSt) : (s.updTier f).host = s.host := rfl
@[simp] theorem State.updTier_tick (s : State) (f : TierSt → TierSt) : (s.updTier f).tick = s.tick := rfl
@[simp] theorem State.updTier_power (s : State) (f : TierSt → TierSt) : (s.updTier f).power = s.power := rfl
@[simp] theorem State.updTier_parts (s : State) (f : TierSt → TierSt) : (s.updTier f).parts = s.parts := rfl
@[simp] theorem State.updTier_cores (s : State) (f : TierSt → TierSt) : (s.updTier f).cores = s.cores := rfl
@[simp] theorem State.updTier_tier (s : State) (f : TierSt → TierSt) : (s.updTier f).tier = f s.tier := rfl
@[simp] theorem State.updTier_winnow (s : State) (f : TierSt → TierSt) : (s.updTier f).winnow = s.winnow := rfl
@[simp] theorem State.updTier_net (s : State) (f : TierSt → TierSt) : (s.updTier f).net = s.net := rfl
@[simp] theorem State.updTier_mgmt (s : State) (f : TierSt → TierSt) : (s.updTier f).mgmt = s.mgmt := rfl
@[simp] theorem State.updTier_gleans (s : State) (f : TierSt → TierSt) : (s.updTier f).gleans = s.gleans := rfl
@[simp] theorem State.updTier_snaps (s : State) (f : TierSt → TierSt) : (s.updTier f).snaps = s.snaps := rfl
@[simp] theorem State.updTier_shadow (s : State) (f : TierSt → TierSt) : (s.updTier f).shadow = s.shadow := rfl
@[simp] theorem State.updTier_fresh (s : State) (f : TierSt → TierSt) : (s.updTier f).fresh = s.fresh := rfl
@[simp] theorem State.updTier_pending (s : State) (f : TierSt → TierSt) : (s.updTier f).pending = s.pending := rfl

/-! ### updWin -/

@[simp] theorem State.updWin_regs (s : State) (f : WinSt → WinSt) : (s.updWin f).regs = s.regs := rfl
@[simp] theorem State.updWin_mem (s : State) (f : WinSt → WinSt) : (s.updWin f).mem = s.mem := rfl
@[simp] theorem State.updWin_log (s : State) (f : WinSt → WinSt) : (s.updWin f).log = s.log := rfl
@[simp] theorem State.updWin_host (s : State) (f : WinSt → WinSt) : (s.updWin f).host = s.host := rfl
@[simp] theorem State.updWin_tick (s : State) (f : WinSt → WinSt) : (s.updWin f).tick = s.tick := rfl
@[simp] theorem State.updWin_power (s : State) (f : WinSt → WinSt) : (s.updWin f).power = s.power := rfl
@[simp] theorem State.updWin_parts (s : State) (f : WinSt → WinSt) : (s.updWin f).parts = s.parts := rfl
@[simp] theorem State.updWin_cores (s : State) (f : WinSt → WinSt) : (s.updWin f).cores = s.cores := rfl
@[simp] theorem State.updWin_tier (s : State) (f : WinSt → WinSt) : (s.updWin f).tier = s.tier := rfl
@[simp] theorem State.updWin_winnow (s : State) (f : WinSt → WinSt) : (s.updWin f).winnow = f s.winnow := rfl
@[simp] theorem State.updWin_net (s : State) (f : WinSt → WinSt) : (s.updWin f).net = s.net := rfl
@[simp] theorem State.updWin_mgmt (s : State) (f : WinSt → WinSt) : (s.updWin f).mgmt = s.mgmt := rfl
@[simp] theorem State.updWin_gleans (s : State) (f : WinSt → WinSt) : (s.updWin f).gleans = s.gleans := rfl
@[simp] theorem State.updWin_snaps (s : State) (f : WinSt → WinSt) : (s.updWin f).snaps = s.snaps := rfl
@[simp] theorem State.updWin_shadow (s : State) (f : WinSt → WinSt) : (s.updWin f).shadow = s.shadow := rfl
@[simp] theorem State.updWin_fresh (s : State) (f : WinSt → WinSt) : (s.updWin f).fresh = s.fresh := rfl
@[simp] theorem State.updWin_pending (s : State) (f : WinSt → WinSt) : (s.updWin f).pending = s.pending := rfl

/-! ### updNet -/

@[simp] theorem State.updNet_regs (s : State) (f : NetSt → NetSt) : (s.updNet f).regs = s.regs := rfl
@[simp] theorem State.updNet_mem (s : State) (f : NetSt → NetSt) : (s.updNet f).mem = s.mem := rfl
@[simp] theorem State.updNet_log (s : State) (f : NetSt → NetSt) : (s.updNet f).log = s.log := rfl
@[simp] theorem State.updNet_host (s : State) (f : NetSt → NetSt) : (s.updNet f).host = s.host := rfl
@[simp] theorem State.updNet_tick (s : State) (f : NetSt → NetSt) : (s.updNet f).tick = s.tick := rfl
@[simp] theorem State.updNet_power (s : State) (f : NetSt → NetSt) : (s.updNet f).power = s.power := rfl
@[simp] theorem State.updNet_parts (s : State) (f : NetSt → NetSt) : (s.updNet f).parts = s.parts := rfl
@[simp] theorem State.updNet_cores (s : State) (f : NetSt → NetSt) : (s.updNet f).cores = s.cores := rfl
@[simp] theorem State.updNet_tier (s : State) (f : NetSt → NetSt) : (s.updNet f).tier = s.tier := rfl
@[simp] theorem State.updNet_winnow (s : State) (f : NetSt → NetSt) : (s.updNet f).winnow = s.winnow := rfl
@[simp] theorem State.updNet_net (s : State) (f : NetSt → NetSt) : (s.updNet f).net = f s.net := rfl
@[simp] theorem State.updNet_mgmt (s : State) (f : NetSt → NetSt) : (s.updNet f).mgmt = s.mgmt := rfl
@[simp] theorem State.updNet_gleans (s : State) (f : NetSt → NetSt) : (s.updNet f).gleans = s.gleans := rfl
@[simp] theorem State.updNet_snaps (s : State) (f : NetSt → NetSt) : (s.updNet f).snaps = s.snaps := rfl
@[simp] theorem State.updNet_shadow (s : State) (f : NetSt → NetSt) : (s.updNet f).shadow = s.shadow := rfl
@[simp] theorem State.updNet_fresh (s : State) (f : NetSt → NetSt) : (s.updNet f).fresh = s.fresh := rfl
@[simp] theorem State.updNet_pending (s : State) (f : NetSt → NetSt) : (s.updNet f).pending = s.pending := rfl

/-! ### updMgmt -/

@[simp] theorem State.updMgmt_regs (s : State) (f : MgmtSt → MgmtSt) : (s.updMgmt f).regs = s.regs := rfl
@[simp] theorem State.updMgmt_mem (s : State) (f : MgmtSt → MgmtSt) : (s.updMgmt f).mem = s.mem := rfl
@[simp] theorem State.updMgmt_log (s : State) (f : MgmtSt → MgmtSt) : (s.updMgmt f).log = s.log := rfl
@[simp] theorem State.updMgmt_host (s : State) (f : MgmtSt → MgmtSt) : (s.updMgmt f).host = s.host := rfl
@[simp] theorem State.updMgmt_tick (s : State) (f : MgmtSt → MgmtSt) : (s.updMgmt f).tick = s.tick := rfl
@[simp] theorem State.updMgmt_power (s : State) (f : MgmtSt → MgmtSt) : (s.updMgmt f).power = s.power := rfl
@[simp] theorem State.updMgmt_parts (s : State) (f : MgmtSt → MgmtSt) : (s.updMgmt f).parts = s.parts := rfl
@[simp] theorem State.updMgmt_cores (s : State) (f : MgmtSt → MgmtSt) : (s.updMgmt f).cores = s.cores := rfl
@[simp] theorem State.updMgmt_tier (s : State) (f : MgmtSt → MgmtSt) : (s.updMgmt f).tier = s.tier := rfl
@[simp] theorem State.updMgmt_winnow (s : State) (f : MgmtSt → MgmtSt) : (s.updMgmt f).winnow = s.winnow := rfl
@[simp] theorem State.updMgmt_net (s : State) (f : MgmtSt → MgmtSt) : (s.updMgmt f).net = s.net := rfl
@[simp] theorem State.updMgmt_mgmt (s : State) (f : MgmtSt → MgmtSt) : (s.updMgmt f).mgmt = f s.mgmt := rfl
@[simp] theorem State.updMgmt_gleans (s : State) (f : MgmtSt → MgmtSt) : (s.updMgmt f).gleans = s.gleans := rfl
@[simp] theorem State.updMgmt_snaps (s : State) (f : MgmtSt → MgmtSt) : (s.updMgmt f).snaps = s.snaps := rfl
@[simp] theorem State.updMgmt_shadow (s : State) (f : MgmtSt → MgmtSt) : (s.updMgmt f).shadow = s.shadow := rfl
@[simp] theorem State.updMgmt_fresh (s : State) (f : MgmtSt → MgmtSt) : (s.updMgmt f).fresh = s.fresh := rfl
@[simp] theorem State.updMgmt_pending (s : State) (f : MgmtSt → MgmtSt) : (s.updMgmt f).pending = s.pending := rfl

/-! ### drawn -/

@[simp] theorem State.drawn_regs (s : State) (n : Nat) : (s.drawn n).regs = s.regs := rfl
@[simp] theorem State.drawn_mem (s : State) (n : Nat) : (s.drawn n).mem = s.mem := rfl
@[simp] theorem State.drawn_log (s : State) (n : Nat) : (s.drawn n).log = s.log := rfl
@[simp] theorem State.drawn_host (s : State) (n : Nat) : (s.drawn n).host = s.host := rfl
@[simp] theorem State.drawn_tick (s : State) (n : Nat) : (s.drawn n).tick = s.tick := rfl
@[simp] theorem State.drawn_power (s : State) (n : Nat) : (s.drawn n).power = s.power := rfl
@[simp] theorem State.drawn_parts (s : State) (n : Nat) : (s.drawn n).parts = s.parts := rfl
@[simp] theorem State.drawn_cores (s : State) (n : Nat) : (s.drawn n).cores = s.cores := rfl
@[simp] theorem State.drawn_tier (s : State) (n : Nat) : (s.drawn n).tier = s.tier := rfl
@[simp] theorem State.drawn_winnow (s : State) (n : Nat) : (s.drawn n).winnow = s.winnow := rfl
@[simp] theorem State.drawn_net (s : State) (n : Nat) : (s.drawn n).net = s.net := rfl
@[simp] theorem State.drawn_mgmt (s : State) (n : Nat) : (s.drawn n).mgmt = s.mgmt := rfl
@[simp] theorem State.drawn_gleans (s : State) (n : Nat) : (s.drawn n).gleans = s.gleans := rfl
@[simp] theorem State.drawn_snaps (s : State) (n : Nat) : (s.drawn n).snaps = s.snaps := rfl
@[simp] theorem State.drawn_shadow (s : State) (n : Nat) : (s.drawn n).shadow = s.shadow := rfl
@[simp] theorem State.drawn_fresh (s : State) (n : Nat) : (s.drawn n).fresh = s.fresh + n := rfl
@[simp] theorem State.drawn_pending (s : State) (n : Nat) : (s.drawn n).pending = s.pending := rfl

/-! ### Registers -/

/-- A field reads as it was written, cut to its width; its other instances read as before. -/
theorem State.rd_wr (s : State) (f : Fld) (v i j i' j' : Nat) (hw : f.width ≤ 32) :
    (s.wr f v i j).rd f i' j' = if i * 1024 + j = i' * 1024 + j' then v % 2 ^ f.width else s.rd f i' j' := by
  unfold State.rd State.wr Bank.rd Bank.wr
  rw [Tbl.get_upd, if_pos rfl, Tbl.get_set]
  unfold Fld.key
  split
  · rw [BitVec.toNat_ofNat]
    exact Nat.mod_eq_of_lt (Nat.lt_of_lt_of_le (Nat.mod_lt _ (Nat.two_pow_pos _)) (Nat.pow_le_pow_right (by decide) hw))
  · rfl

/-- A write leaves every other field as it was. -/
theorem State.rd_wr_other (s : State) (f g : Fld) (v i j i' j' : Nat) (h : f.id ≠ g.id) : (s.wr f v i j).rd g i' j' = s.rd g i' j' := by
  unfold State.rd State.wr Bank.rd Bank.wr
  rw [Tbl.get_upd_other _ _ _ _ _ h]

@[simp] theorem State.rd_updPart (s : State) (p : Nat) (f : PartSt → PartSt) (g : Fld) (i j : Nat) : (s.updPart p f).rd g i j = s.rd g i j := rfl
@[simp] theorem State.rd_updCore (s : State) (c : Nat) (f : CoreSt → CoreSt) (g : Fld) (i j : Nat) : (s.updCore c f).rd g i j = s.rd g i j := rfl
@[simp] theorem State.rd_updMem (s : State) (f : MemSt → MemSt) (g : Fld) (i j : Nat) : (s.updMem f).rd g i j = s.rd g i j := rfl
@[simp] theorem State.rd_updPower (s : State) (f : PowerSt → PowerSt) (g : Fld) (i j : Nat) : (s.updPower f).rd g i j = s.rd g i j := rfl
@[simp] theorem State.rd_updLog (s : State) (f : LogSt → LogSt) (g : Fld) (i j : Nat) : (s.updLog f).rd g i j = s.rd g i j := rfl
@[simp] theorem State.rd_updHost (s : State) (f : HostSt → HostSt) (g : Fld) (i j : Nat) : (s.updHost f).rd g i j = s.rd g i j := rfl
@[simp] theorem State.rd_updTick (s : State) (f : TickSt → TickSt) (g : Fld) (i j : Nat) : (s.updTick f).rd g i j = s.rd g i j := rfl
@[simp] theorem State.rd_updTier (s : State) (f : TierSt → TierSt) (g : Fld) (i j : Nat) : (s.updTier f).rd g i j = s.rd g i j := rfl
@[simp] theorem State.rd_updWin (s : State) (f : WinSt → WinSt) (g : Fld) (i j : Nat) : (s.updWin f).rd g i j = s.rd g i j := rfl
@[simp] theorem State.rd_updNet (s : State) (f : NetSt → NetSt) (g : Fld) (i j : Nat) : (s.updNet f).rd g i j = s.rd g i j := rfl
@[simp] theorem State.rd_updMgmt (s : State) (f : MgmtSt → MgmtSt) (g : Fld) (i j : Nat) : (s.updMgmt f).rd g i j = s.rd g i j := rfl
@[simp] theorem State.rd_drawn (s : State) (n : Nat) (g : Fld) (i j : Nat) : (s.drawn n).rd g i j = s.rd g i j := rfl

theorem State.flag_wr_other (s : State) (f g : Fld) (v i j i' j' : Nat) (h : f.id ≠ g.id) : (s.wr f v i j).flag g i' j' = s.flag g i' j' := by
  unfold State.flag
  rw [State.rd_wr_other s f g v i j i' j' h]

/-- A counter's new value. -/
theorem State.rd_bump (s : State) (f : Fld) (n i j : Nat) (hw : f.width = 32) : (s.bump f n i j).rd f i j = satAdd32 (s.rd f i j) n % 2 ^ 32 := by
  unfold State.bump
  rw [State.rd_wr _ _ _ _ _ _ _ (by omega), if_pos rfl, hw]

/-! ### Partitions and cores -/

theorem State.part_updPart (s : State) (p q : Nat) (f : PartSt → PartSt) : (s.updPart p f).part q = if p = q then f (s.part p) else s.part q :=
  Tbl.get_upd _ _ _ _ _

theorem State.core_updCore (s : State) (c d : Nat) (f : CoreSt → CoreSt) : (s.updCore c f).core d = if c = d then f (s.core c) else s.core d :=
  Tbl.get_upd _ _ _ _ _

@[simp] theorem State.part_wr (s : State) (f : Fld) (v i j p : Nat) : (s.wr f v i j).part p = s.part p := rfl
@[simp] theorem State.core_wr (s : State) (f : Fld) (v i j c : Nat) : (s.wr f v i j).core c = s.core c := rfl
@[simp] theorem State.part_updCore (s : State) (c p : Nat) (f : CoreSt → CoreSt) : (s.updCore c f).part p = s.part p := rfl
@[simp] theorem State.core_updPart (s : State) (c p : Nat) (f : PartSt → PartSt) : (s.updPart p f).core c = s.core c := rfl

end Sys2Proof.Machine
end

