-- ==== Sys2Proof/Laws/Engine.lean ====
section
/-! SUPPORT. Frames over the register bank, and what an engine's taking up and retiring of a command leave in the registers. -/

namespace Sys2Proof.Machine

/-! ### Frames -/

theorem State.SameRegs.refl (s : State) (l : List (Fld × Nat × Nat)) : s.SameRegs s l := fun _ _ _ _ _ => rfl

theorem State.SameRegs.of_regs {s t : State} (h : t.regs = s.regs) (l : List (Fld × Nat × Nat)) : s.SameRegs t l := fun _ _ _ _ _ => by
  unfold State.rd
  rw [h]

theorem State.SameRegs.trans {s t u : State} {l : List (Fld × Nat × Nat)} (h1 : s.SameRegs t l) (h2 : t.SameRegs u l) : s.SameRegs u l :=
  fun f i j hj h => (h2 f i j hj h).trans (h1 f i j hj h)

theorem State.SameRegs.mono {s t : State} {l m : List (Fld × Nat × Nat)} (h : s.SameRegs t l) (hl : ∀ e ∈ l, e ∈ m) : s.SameRegs t m :=
  fun f i j hj hm => h f i j hj fun e he => hm e (hl e he)

/-- A write of a listed register. -/
theorem State.SameRegs.wr {s t : State} {l : List (Fld × Nat × Nat)} {f : Fld} {v i j : Nat} (h : s.SameRegs t l) (hj : j < 1024)
    (hm : (f, i, j) ∈ l) : s.SameRegs (t.wr f v i j) l := by
  refine h.trans fun g i' j' hj' hl => ?_
  by_cases hf : f.id = g.id
  · unfold State.rd State.wr Bank.rd Bank.wr
    rw [hf, Tbl.get_upd, if_pos rfl, Tbl.get_set_ne]
    intro hk
    have := hl _ hm hf
    unfold Fld.key at hk
    apply this
    have h1 : i = i' := by omega
    have h2 : j = j' := by omega
    rw [h1, h2]
  · exact State.rd_wr_other _ _ _ _ _ _ _ _ hf

/-- A change that leaves the register bank alone. -/
theorem State.SameRegs.keep {s t u : State} {l : List (Fld × Nat × Nat)} (h : s.SameRegs t l) (hu : u.regs = t.regs) : s.SameRegs u l :=
  h.trans (.of_regs hu l)

theorem State.SameRegs.ite {s a b : State} {l : List (Fld × Nat × Nat)} {p : Prop} [Decidable p] (ha : s.SameRegs a l) (hb : s.SameRegs b l) :
    s.SameRegs (if p then a else b) l := by
  split <;> assumption

/-- One register out of a frame. -/
theorem State.SameRegs.rd {s t : State} {l : List (Fld × Nat × Nat)} (h : s.SameRegs t l) (f : Fld) (i : Nat) (j : Nat := 0)
    (hj : j < 1024 := by decide) (hl : ∀ e ∈ l, e.1.id = f.id → e.2 ≠ (i, j)) : t.rd f i j = s.rd f i j := h f i j hj hl

/-! ### Taking up a command (R273, R276) -/

theorem State.waitHazard_none {s : State} {c : Nat} {e : Engine} {cmd : Cmd} (h : s.Takes c e cmd) : s.waitHazard c e cmd = none := by
  obtain ⟨_, ht, hf, hq⟩ := h
  by_cases h3 : cmd.opcode = 3
  · exact hq h3
  have far : ∀ (en : Bool) (a b : Nat), (!en || reached a b) = true → (en && (b + 65536 - a) % 65536 == 32768) = false := by
    intro en a b hr
    cases en with
    | false => rfl
    | true =>
      simp only [Bool.not_true, Bool.false_or, reached, decide_eq_true_eq] at hr
      simp only [Bool.true_and, beq_eq_false_iff_ne, ne_eq]
      omega
  unfold State.waitHazard
  dsimp only
  rw [far _ _ _ ht, far _ _ _ hf]
  simp [h3]

/-- With its waits met, the engine goes on to the body. -/
theorem State.engRun_met {s : State} {c : Nat} {e : Engine} {cmd : Cmd} (body : State → State) (h : s.Takes c e cmd) :
    s.engRun c e cmd body = body (s.takeUp c e cmd) := by
  unfold State.engRun
  rw [State.waitHazard_none h, if_pos h.1, h.2.1, h.2.2.1]
  rfl

/-- Setting an engine's state changes registers only. -/
theorem State.setEng_eq (s : State) (c : Nat) (e : Engine) (v : Nat) : s.setEng c e v = { s with regs := (s.setEng c e v).regs } := by
  unfold State.setEng State.syncMx
  cases e <;> (dsimp only; try split) <;> rfl

/-- The registers that setting an engine's state writes, where the engine is to run or to wait. -/
theorem State.setEng_same {s t : State} {l : List (Fld × Nat × Nat)} {c v : Nat} {e : Engine} (h : s.SameRegs t l) (hv : v = 1 ∨ v = 2 ∨ v = 3)
    (h1 : (engState e, c, 0) ∈ l) (h2 : e = .matrix → (R.mx_BUSY, c, 0) ∈ l ∧ (R.mx_INFLIGHT, c, 0) ∈ l) :
    s.SameRegs (t.setEng c e v) l := by
  unfold State.setEng State.syncMx
  cases e
  · obtain ⟨hb, hi⟩ := h2 rfl
    dsimp only
    rw [if_neg (show ¬(v = 0 ∨ v = 4 ∨ v = 5) by omega)]
    exact ((h.wr (by decide) h1).wr (by decide) hb).wr (by decide) hi
  · exact h.wr (by decide) h1
  · exact h.wr (by decide) h1
  · exact h.wr (by decide) h1

/-- The state that an engine is set to reads back. -/
theorem State.setEng_state (s : State) (c : Nat) (e : Engine) (v : Nat) (hv : v < 8) : (s.setEng c e v).rd (engState e) c = v := by
  unfold State.setEng State.syncMx
  cases e
  · have h : ∀ (t : State), (if v = 0 ∨ v = 4 ∨ v = 5 then t.wr R.mx_HEAD_WAIT 0 c else t).rd R.core_M_STATE c = t.rd R.core_M_STATE c := by
      intro t
      split
      · exact State.rd_wr_other _ _ _ _ _ _ _ _ (by decide)
      · rfl
    dsimp only [engState]
    rw [State.rd_wr_other _ _ _ _ _ _ _ _ (by decide), State.rd_wr_other _ _ _ _ _ _ _ _ (by decide), h,
      State.rd_wr _ _ _ _ _ _ _ (by decide)]
    simp [R.core_M_STATE]
    omega
  all_goals
    dsimp only [engState]
    rw [State.rd_wr _ _ _ _ _ _ _ (by decide)]
    simp [R.core_V_STATE, R.core_T_STATE, R.core_W_STATE]
    omega

theorem State.takeUp_same (s : State) (c : Nat) (e : Engine) (cmd : Cmd) : s.SameRegs (s.takeUp c e cmd) (headRegs c e cmd) := by
  have h1 : s.SameRegs (s.readHead c e cmd) (headRegs c e cmd) := by
    unfold State.readHead
    split
    · exact .refl _ _
    · dsimp only
      split
      · exact ((State.SameRegs.refl s _).keep rfl).wr (by decide) (by simp [headRegs, *])
      · exact (State.SameRegs.refl s _).keep rfl
  have h2 := State.setEng_same (v := 1) (e := e) (c := c) h1 (.inl rfl) (by simp [headRegs]) (by rintro rfl; simp [headRegs])
  unfold State.takeUp State.headWait
  cases e
  · exact h2.wr (by decide) (by simp [headRegs])
  · exact h2
  · exact h2
  · exact h2

theorem State.takeUp_runs (s : State) (c : Nat) (e : Engine) (cmd : Cmd) : (s.takeUp c e cmd).rd (engState e) c = 1 := by
  have h := (s.readHead c e cmd).setEng_state c e 1 (by decide)
  unfold State.takeUp State.headWait
  cases e
  · rw [State.rd_wr_other _ _ _ _ _ _ _ _ (by decide)]
    exact h
  all_goals exact h

/-- Taking up a command changes registers and the engine's mark that it has read the command, and nothing else. -/
theorem State.takeUp_eq (s : State) (c : Nat) (e : Engine) (cmd : Cmd) :
    s.takeUp c e cmd = { s with regs := (s.takeUp c e cmd).regs, cores := (s.takeUp c e cmd).cores } := by
  have h : s.readHead c e cmd = { s with regs := (s.readHead c e cmd).regs, cores := (s.readHead c e cmd).cores } := by
    unfold State.readHead
    repeat' split
    all_goals rfl
  unfold State.takeUp State.headWait
  rw [State.setEng_eq, h]
  cases e <;> rfl

/-! ### Retirement (R191, R275) -/

theorem State.raise_same {s t : State} {l : List (Fld × Nat × Nat)} {c k n : Nat} (h : s.SameRegs t l) (hk : k < 1024)
    (hm : (R.core_TALLY, c, k) ∈ l) : s.SameRegs (t.raise c k n) l := h.wr hk hm

theorem sigTally_lt (cmd : Cmd) : cmd.sigTally < 64 := by
  unfold Cmd.sigTally Cmd.fld
  exact Nat.mod_lt _ (by decide)

/-- Counting a retirement and raising the signal change registers only. -/
theorem State.counted_eq (s : State) (c : Nat) (e : Engine) (cmd : Cmd) :
    (s.countRetired c e).signal c cmd = { s with regs := ((s.countRetired c e).signal c cmd).regs } := by
  unfold State.signal State.countRetired
  cases e <;> (dsimp only; split) <;> rfl

theorem State.counted_same (s : State) (c : Nat) (e : Engine) (cmd : Cmd) :
    s.SameRegs ((s.countRetired c e).signal c cmd) (retireRegs c e cmd) := by
  have h1 : s.SameRegs (s.countRetired c e) (retireRegs c e cmd) := by
    unfold State.countRetired State.bump
    cases e
    · exact (State.SameRegs.refl s _).wr (by decide) (by simp [retireRegs])
    · exact (State.SameRegs.refl s _).wr (by decide) (by simp [retireRegs])
    · exact .refl _ _
    · exact .refl _ _
  unfold State.signal
  split
  · exact h1.wr (Nat.lt_trans (sigTally_lt cmd) (by decide)) (by simp [retireRegs, *])
  · exact h1

theorem State.counted_pc (s : State) (c : Nat) (e : Engine) (cmd : Cmd) :
    ((s.countRetired c e).signal c cmd).rd (engPc e) c = s.rd (engPc e) c := by
  unfold State.signal State.countRetired State.bump State.raise
  cases e <;> (split <;> simp (disch := decide) only [State.rd_wr_other, engPc])

theorem State.counted_state (s : State) (c : Nat) (e : Engine) (cmd : Cmd) :
    ((s.countRetired c e).signal c cmd).rd (engState e) c = s.rd (engState e) c := by
  unfold State.signal State.countRetired State.bump State.raise
  cases e <;> (split <;> simp (disch := decide) only [State.rd_wr_other, engState])

theorem State.retire_same (s : State) (c : Nat) (e : Engine) (cmd : Cmd) (hpc : s.rd (engPc e) c + 1 < 262144) :
    s.SameRegs (s.retire c e cmd) (retireRegs c e cmd) := by
  unfold State.retire State.goNext State.goTo
  rw [State.counted_pc]
  simp only [hpc, if_true]
  exact State.SameRegs.wr ((s.counted_same c e cmd).keep rfl) (by decide) (by simp [retireRegs])

theorem State.retire_retired (s : State) (c : Nat) (e : Engine) (cmd : Cmd) (hr : s.rd (engState e) c = 1)
    (hpc : s.rd (engPc e) c + 1 < 262144) : s.Retired (s.retire c e cmd) c e cmd := by
  have ht : ∀ k, k < 64 → (s.retire c e cmd).rd R.core_TALLY c k = ((s.countRetired c e).signal c cmd).rd R.core_TALLY c k := by
    intro k _
    unfold State.retire State.goNext State.goTo
    rw [State.counted_pc]
    simp only [hpc, if_true]
    cases e <;> simp (disch := decide) only [State.rd_wr_other, State.rd_updCore, engPc]
  refine ⟨?_, ?_, fun k hk => ?_⟩
  · have hne : ∀ x ∈ retireRegs c e cmd, x.1.id = (engState e).id → x.2 ≠ (c, 0) := by
      intro x hx
      unfold retireRegs at hx
      cases e <;> cases hs : cmd.sigEn <;> simp [hs, engPc] at hx <;> (try rcases hx with rfl | rfl | rfl) <;> (try rcases hx with rfl | rfl) <;>
        (try subst hx) <;> (dsimp only; intro h; exact absurd h (by decide))
    rw [(s.retire_same c e cmd hpc).rd _ c 0 (by decide) hne, hr]
  · unfold State.retire State.goNext State.goTo
    rw [State.counted_pc]
    simp only [hpc, if_true]
    rw [State.rd_wr _ _ _ _ _ _ _ (by cases e <;> decide), if_pos rfl]
    cases e <;> exact Nat.mod_eq_of_lt hpc
  · rw [ht k hk]
    unfold State.signal State.raise
    have h0 : (s.countRetired c e).rd R.core_TALLY c k = s.rd R.core_TALLY c k := by
      unfold State.countRetired State.bump
      cases e <;> simp (disch := decide) only [State.rd_wr_other]
    have h1 : (s.countRetired c e).rd R.core_TALLY c cmd.sigTally = s.rd R.core_TALLY c cmd.sigTally := by
      unfold State.countRetired State.bump
      cases e <;> simp (disch := decide) only [State.rd_wr_other]
    cases hs : cmd.sigEn
    · simpa using h0
    · rw [if_pos rfl, State.rd_wr _ _ _ _ _ _ _ (by decide), h1]
      by_cases hk' : cmd.sigTally = k
      · simp [hk', R.core_TALLY]
      · rw [if_neg (by have := (sigTally_lt cmd); omega), if_neg (by simp [hk']), h0]

/-- A retirement that stays in the list changes registers and the mark that the engine has read a command, and nothing else. -/
theorem State.retire_eq (s : State) (c : Nat) (e : Engine) (cmd : Cmd) (hpc : s.rd (engPc e) c + 1 < 262144) :
    s.retire c e cmd = { s with regs := (s.retire c e cmd).regs, cores := (s.retire c e cmd).cores } := by
  unfold State.retire State.goNext State.goTo
  rw [State.counted_pc]
  simp only [hpc, if_true]
  unfold State.signal State.countRetired
  cases e <;> (dsimp only; split) <;> rfl

/-- The cores after a retirement: the engine's mark alone has changed. -/
theorem State.retire_core (s : State) (c d : Nat) (e : Engine) (cmd : Cmd) (hpc : s.rd (engPc e) c + 1 < 262144) :
    (s.retire c e cmd).core d =
      if c = d then { s.core c with headRead := Marks.put (s.core c).headRead e.num false } else s.core d := by
  have hc : ∀ d, ((s.countRetired c e).signal c cmd).core d = s.core d := by
    intro d
    unfold State.signal State.countRetired
    cases e <;> (dsimp only; split) <;> rfl
  unfold State.retire State.goNext State.goTo
  rw [State.counted_pc]
  simp only [hpc, if_true]
  rw [State.core_wr, State.core_updCore, hc, hc]

/-- The cores after a command is taken up: the engine's mark alone may have changed. -/
theorem State.takeUp_core (s : State) (c d : Nat) (e : Engine) (cmd : Cmd) :
    (s.takeUp c e cmd).core d = if c = d then { s.core c with headRead := ((s.takeUp c e cmd).core c).headRead } else s.core d := by
  have h0 : ∀ d, (s.takeUp c e cmd).core d = (s.readHead c e cmd).core d := by
    intro d
    unfold State.takeUp State.headWait
    rw [State.setEng_eq]
    cases e <;> rfl
  rw [h0, h0]
  unfold State.readHead
  split
  · split
    · subst d; rfl
    · rfl
  · have h1 : ∀ (t : State) (d : Nat), (if cmd.rsvdSet = true then t.bump R.core_CMD_RSVD 1 c else t).core d = t.core d := by
      intro t d
      split <;> rfl
    dsimp only
    rw [h1, h1, State.core_updCore, State.core_updCore, if_pos (rfl : c = c)]

/-- A program counter that stays in the list when the command is taken up. -/
theorem State.takeUp_pc (s : State) (c : Nat) (e : Engine) (cmd : Cmd) : (s.takeUp c e cmd).rd (engPc e) c = s.rd (engPc e) c := by
  refine (s.takeUp_same c e cmd).rd _ c 0 (by decide) ?_
  intro x hx
  unfold headRegs at hx
  cases e <;> cases hs : cmd.rsvdSet <;> simp [hs, engState] at hx <;> (try rcases hx with rfl | rfl | rfl | rfl | rfl) <;>
    (try rcases hx with rfl | rfl | rfl | rfl) <;> (try rcases hx with rfl | rfl) <;> (try subst hx) <;> (dsimp only; intro h; exact absurd h (by decide))

theorem State.takeUp_tally (s : State) (c : Nat) (e : Engine) (cmd : Cmd) (k : Nat) (hk : k < 64) :
    (s.takeUp c e cmd).rd R.core_TALLY c k = s.rd R.core_TALLY c k := by
  refine (s.takeUp_same c e cmd).rd _ c k (by omega) ?_
  intro x hx
  unfold headRegs at hx
  cases e <;> cases hs : cmd.rsvdSet <;> simp [hs, engState] at hx <;> (try rcases hx with rfl | rfl | rfl | rfl | rfl) <;>
    (try rcases hx with rfl | rfl | rfl | rfl) <;> (try rcases hx with rfl | rfl) <;> (try subst hx) <;> (dsimp only; intro h; exact absurd h (by decide))

/-- A retirement seen from the state in which the command was taken up. -/
theorem State.Retired.of_takeUp {s t : State} {c : Nat} {e : Engine} {cmd : Cmd} (h : (s.takeUp c e cmd).Retired t c e cmd) :
    s.Retired t c e cmd :=
  ⟨h.runs, by rw [h.next, State.takeUp_pc], fun k hk => by rw [h.tally k hk, State.takeUp_tally _ _ _ _ _ hk]⟩

end Sys2Proof.Machine
end

