-- ==== Sys2Proof/Laws/Frame.lean ====
section
/-! SUPPORT. Frames by register field: what an update of the state leaves of the register bank. -/

namespace Sys2Proof.Machine

theorem State.KeepsRegs.refl (s : State) (l : List Fld) : s.KeepsRegs s l := fun _ _ _ _ => rfl

theorem State.KeepsRegs.of_regs {s t : State} (h : t.regs = s.regs) (l : List Fld) : s.KeepsRegs t l := fun _ _ _ _ => by
  unfold State.rd
  rw [h]

theorem State.KeepsRegs.trans {s t u : State} {l : List Fld} (h1 : s.KeepsRegs t l) (h2 : t.KeepsRegs u l) : s.KeepsRegs u l :=
  fun g i j h => (h2 g i j h).trans (h1 g i j h)

theorem State.KeepsRegs.mono {s t : State} {l m : List Fld} (h : s.KeepsRegs t l) (hl : ∀ f ∈ l, f ∈ m) : s.KeepsRegs t m :=
  fun g i j hm => h g i j fun f hf => hm f (hl f hf)

/-- A change that leaves the register bank alone. -/
theorem State.KeepsRegs.keep {s t u : State} {l : List Fld} (h : s.KeepsRegs t l) (hu : u.regs = t.regs) : s.KeepsRegs u l :=
  h.trans (.of_regs hu l)

/-- A write of a listed field. -/
theorem State.KeepsRegs.wr {s t : State} {l : List Fld} {f : Fld} {v i j : Nat} (h : s.KeepsRegs t l) (hm : f ∈ l) :
    s.KeepsRegs (t.wr f v i j) l :=
  h.trans fun _ _ _ hl => State.rd_wr_other _ _ _ _ _ _ _ _ (hl f hm)

/-- A count in a listed field. -/
theorem State.KeepsRegs.bump {s t : State} {l : List Fld} {f : Fld} {n i j : Nat} (h : s.KeepsRegs t l) (hm : f ∈ l) :
    s.KeepsRegs (t.bump f n i j) l := h.wr hm

/-- A wide value in listed fields. -/
theorem State.KeepsRegs.setWide {s t : State} {l : List Fld} {lo hi : Fld} {v i : Nat} (h : s.KeepsRegs t l) (h1 : lo ∈ l) (h2 : hi ∈ l) :
    s.KeepsRegs (t.setWide lo hi v i) l := (h.wr h1).wr h2

theorem State.KeepsRegs.ite {s a b : State} {l : List Fld} {p : Prop} [Decidable p] (ha : s.KeepsRegs a l) (hb : s.KeepsRegs b l) :
    s.KeepsRegs (if p then a else b) l := by
  split <;> assumption

theorem State.KeepsRegs.foldl {α : Type} {s t : State} {l : List Fld} (xs : List α) (f : State → α → State)
    (hf : ∀ (u : State) (x : α), s.KeepsRegs u l → s.KeepsRegs (f u x) l) (h : s.KeepsRegs t l) : s.KeepsRegs (xs.foldl f t) l := by
  induction xs generalizing t with
  | nil => exact h
  | cons x xs ih => exact ih (hf t x h)

/-- A logged error changes only the counter of its class. -/
theorem State.KeepsRegs.logErr {s t : State} {l : List Fld} {cls src code part station req item addr : Nat} {detail : List Byte}
    (h : s.KeepsRegs t l) (hm : clsCount cls ∈ l) : s.KeepsRegs (t.logErr cls src code part station req item addr detail) l :=
  (h.keep (u := { t with log := _ }) rfl).bump hm

/-- A host access error changes only HAE_COUNT. -/
theorem State.KeepsRegs.hae {s t : State} {l : List Fld} {kind fn bar width offset data : Nat} {wr : Bool}
    (h : s.KeepsRegs t l) (hm : R.host_HAE_COUNT ∈ l) : s.KeepsRegs (t.hae kind fn bar wr width offset data) l :=
  (h.keep (u := { t with log := _ }) rfl).bump hm

/-- A write to the host changes at most HELD. -/
theorem State.KeepsRegs.sendHost {s t : State} {l : List Fld} {w : HostWrite} (h : s.KeepsRegs t l) (hm : R.host_HELD ∈ l) :
    s.KeepsRegs (t.sendHost w) l := by
  unfold State.sendHost
  split
  · exact (h.keep (u := { t with host := _ }) rfl).wr hm
  · unfold State.deliver
    split <;> exact h.keep rfl

/-- A signal changes at most HELD. -/
theorem State.KeepsRegs.msix {s t : State} {l : List Fld} {fn v : Nat} (h : s.KeepsRegs t l) (hm : R.host_HELD ∈ l) :
    s.KeepsRegs (t.msix fn v) l := by
  unfold State.msix
  split
  · exact h.sendHost hm
  · exact h.keep rfl

/-- A requested partition reset changes no register. -/
theorem State.KeepsRegs.requestReset {s t : State} {l : List Fld} {p cause : Nat} (h : s.KeepsRegs t l) :
    s.KeepsRegs (t.requestReset p cause) l := by
  unfold State.requestReset
  split
  · exact h.keep rfl
  · exact h

/-- A partition-fatal error changes only its class's counter. -/
theorem State.KeepsRegs.partFatal {s t : State} {l : List Fld} {src code p station req item addr : Nat} {detail : List Byte}
    (h : s.KeepsRegs t l) (hm : R.err_CNT_PFATAL ∈ l) : s.KeepsRegs (t.partFatal src code p station req item addr detail) l :=
  (h.logErr (cls := 3) hm).requestReset

/-- A retirement seen across changes of other registers, before it and after it. -/
theorem State.Retired.congr {s t s' t' : State} {c : Nat} {e : Engine} {cmd : Cmd} {l : List Fld} (h : s'.Retired t c e cmd)
    (hs : s.KeepsRegs s' l) (ht : t.KeepsRegs t' l)
    (hl : ∀ f ∈ l, f.id ≠ (engState e).id ∧ f.id ≠ (engPc e).id ∧ f.id ≠ R.core_TALLY.id) : s.Retired t' c e cmd := by
  refine ⟨?_, ?_, fun k hk => ?_⟩
  · rw [ht _ _ _ fun f hf => (hl f hf).1, h.runs]
  · rw [ht _ _ _ fun f hf => (hl f hf).2.1, h.next, hs _ _ _ fun f hf => (hl f hf).2.1]
  · rw [ht _ _ _ fun f hf => (hl f hf).2.2, h.tally k hk, hs _ _ _ fun f hf => (hl f hf).2.2]

/-- Setting an engine's state changes its state, and of a matrix engine HEAD_WAIT, BUSY and INFLIGHT. -/
theorem State.KeepsRegs.setEng {s t : State} {l : List Fld} {c v : Nat} {e : Engine} (h : s.KeepsRegs t l) (h1 : engState e ∈ l)
    (h2 : e = .matrix → R.mx_HEAD_WAIT ∈ l ∧ R.mx_BUSY ∈ l ∧ R.mx_INFLIGHT ∈ l) : s.KeepsRegs (t.setEng c e v) l := by
  unfold State.setEng State.syncMx
  cases e
  · obtain ⟨hh, hb, hi⟩ := h2 rfl
    exact (((h.wr h1).wr hh).ite (h.wr h1) |>.wr hb).wr hi
  all_goals exact h.wr h1

/-- Taking up a command changes the registers of its header only. -/
theorem State.takeUp_keeps (s : State) (c : Nat) (e : Engine) (cmd : Cmd) :
    s.KeepsRegs (s.takeUp c e cmd) [engState e, R.core_CMD_RSVD, R.mx_HEAD_WAIT, R.mx_BUSY, R.mx_INFLIGHT] := by
  have h1 : s.KeepsRegs (s.readHead c e cmd) [engState e, R.core_CMD_RSVD, R.mx_HEAD_WAIT, R.mx_BUSY, R.mx_INFLIGHT] := by
    unfold State.readHead
    split
    · exact .refl _ _
    · dsimp only
      split
      · exact ((State.KeepsRegs.refl s _).keep rfl).bump (by simp)
      · exact (State.KeepsRegs.refl s _).keep rfl
  have h2 := State.KeepsRegs.setEng (c := c) (v := 1) (e := e) h1 (by simp) (by simp)
  unfold State.takeUp State.headWait
  cases e
  · exact h2.wr (by simp)
  all_goals exact h2

/-- Retirement changes the engine's program counter, the counter of what it has retired, and tallies only, while the list goes on. -/
theorem State.retire_keeps (s : State) (c : Nat) (e : Engine) (cmd : Cmd) (hpc : s.rd (engPc e) c + 1 < 262144) :
    s.KeepsRegs (s.retire c e cmd) [engPc e, R.mx_MX_RETIRED, R.vec_V_RETIRED, R.core_TALLY] := by
  have h1 : s.KeepsRegs ((s.countRetired c e).signal c cmd) [engPc e, R.mx_MX_RETIRED, R.vec_V_RETIRED, R.core_TALLY] := by
    have h2 : s.KeepsRegs (s.countRetired c e) [engPc e, R.mx_MX_RETIRED, R.vec_V_RETIRED, R.core_TALLY] := by
      unfold State.countRetired
      cases e
      · exact (State.KeepsRegs.refl s _).bump (by simp)
      · exact (State.KeepsRegs.refl s _).bump (by simp)
      · exact .refl _ _
      · exact .refl _ _
    unfold State.signal State.raise
    split
    · exact h2.wr (by simp)
    · exact h2
  unfold State.retire State.goNext State.goTo
  rw [State.counted_pc]
  simp only [hpc, if_true]
  exact (h1.keep rfl).wr (by simp)

/-- A command taken up and, after changes of other registers, retired. -/
theorem State.Retired.after {s u : State} {c : Nat} {e : Engine} {cmd : Cmd} {l : List Fld} (h : (s.takeUp c e cmd).KeepsRegs u l)
    (hl : ∀ f ∈ l, f.id ≠ (engState e).id ∧ f.id ≠ (engPc e).id ∧ f.id ≠ R.core_TALLY.id) (hpc : s.rd (engPc e) c + 1 < 262144) :
    s.Retired (u.retire c e cmd) c e cmd := by
  have hp : u.rd (engPc e) c = s.rd (engPc e) c := by
    rw [h _ _ _ fun f hf => (hl f hf).2.1, State.takeUp_pc]
  have hr : u.rd (engState e) c = 1 := by
    rw [h _ _ _ fun f hf => (hl f hf).1, State.takeUp_runs]
  exact State.Retired.of_takeUp ((State.retire_retired u c e cmd hr (by rw [hp]; exact hpc)).congr h (.refl _ _) hl)

end Sys2Proof.Machine
end

