-- ==== Sys2Proof/Laws/Good.lean ====
section
/-! SUPPORT. Sound states: the state at reset, and what each primitive change of the state does to soundness. -/

namespace Sys2Proof.Machine

theorem Bank.wf_nil : Bank.wf ([] : Bank) := ⟨Tbl.wf_nil _, by simp⟩

/-- A register write keeps the bank's canonical form. -/
theorem Bank.wf_wr {b : Bank} (h : Bank.wf b) (f : Fld) (i j v : Nat) : Bank.wf (b.wr f i j v) := by
  refine ⟨Tbl.wf_upd h.1 _ _, fun e he => ?_⟩
  rcases Tbl.mem_set he with ⟨rfl, _⟩ | he
  · refine Tbl.sorted_set ?_ _ _
    unfold Tbl.get
    cases hf : Tbl.find b f.id with
    | none => exact List.Pairwise.nil
    | some t =>
      have hm : ∀ c : Bank, Tbl.find c f.id = some t → (f.id, t) ∈ c := by
        intro c
        induction c with
        | nil => intro h; simp at h
        | cons x r ih =>
          obtain ⟨a, w⟩ := x
          intro hx
          by_cases hk : a = f.id
          · simp [Tbl.find, hk] at hx; simp [hk, hx]
          · simp [Tbl.find, hk] at hx; exact List.mem_cons_of_mem _ (ih hx)
      exact h.2 _ (hm b hf)
  · exact h.2 e he

theorem MemSt.wf_init : MemSt.wf {} :=
  ⟨Tbl.wf_nil _, Tbl.wf_nil _, Tbl.wf_nil _, Tbl.wf_nil _, Tbl.wf_nil _, Tbl.wf_nil _, Tbl.wf_nil _, Tbl.wf_nil _, Tbl.wf_nil _,
    Tbl.wf_nil _, Tbl.wf_nil _⟩

section
variable {kl kd : Bool}

theorem State.Sound.good {s : State} (h : s.Sound) : s.Good false false := ⟨h.mem, h.regs, ⟨nofun, nofun⟩⟩

theorem State.Good.sound {s : State} (h : s.Good kl kd) : s.Sound := ⟨h.mem, h.regs⟩

theorem State.wr_good {s : State} {f : Fld} {v i j : Nat} (h : s.Good kl kd) : (s.wr f v i j).Good kl kd :=
  ⟨h.mem, Bank.wf_wr h.regs f i j v, h.power⟩

theorem State.updMem_good {s : State} {f : MemSt → MemSt} (h : s.Good kl kd) (hf : s.mem.wf → (f s.mem).wf) : (s.updMem f).Good kl kd :=
  ⟨hf h.mem, h.regs, h.power⟩

/-- A change of the power entry keeps the stops where it leaves both flags as they are. -/
theorem State.updPower_good {s : State} {f : PowerSt → PowerSt} (h : s.Good kl kd) (h1 : (f s.power).latched = s.power.latched)
    (h2 : (f s.power).fatal = s.power.fatal) : (s.updPower f).Good kl kd :=
  ⟨h.mem, h.regs, ⟨fun x => h1.trans (h.power.latched x), fun x => h2.trans (h.power.fatal x)⟩⟩

theorem State.mk_good {regs : Bank} {mem : MemSt} {log : LogSt} {host : HostSt} {tick : TickSt} {power : PowerSt} {parts : Tbl PartSt}
    {cores : Tbl CoreSt} {tier : TierSt} {winnow : WinSt} {net : NetSt} {mgmt : MgmtSt} {gleans : List Glean} {snaps : List Snap}
    {shadow : Bank} {fresh : Nat} {pending : List Instr} (hm : mem.wf) (hr : Bank.wf regs) (hp : power.Kept kl kd) :
    (State.mk regs mem log host tick power parts cores tier winnow net mgmt gleans snaps shadow fresh pending).Good kl kd := ⟨hm, hr, hp⟩

theorem MemSt.mk_wf {granLeft scrubAt : Tbl Nat} {tempFail : Marks} {flashOp : Option FlashOp} {flashStop : Marks}
    {loft granary host flash loadWin cfgStage : Mem} {loftPoison loftClamp granPoison : Marks} {loftErr granErr : Tbl Nat}
    (h1 : loft.wf) (h2 : granary.wf) (h3 : host.wf) (h4 : flash.wf) (h5 : loadWin.wf) (h6 : cfgStage.wf)
    (h7 : Tbl.wf false loftPoison) (hc : Tbl.wf false loftClamp) (h8 : Tbl.wf false granPoison) (h9 : Tbl.wf 0 loftErr) (h10 : Tbl.wf 0 granErr) :
    (MemSt.mk granLeft scrubAt tempFail flashOp flashStop loft granary host flash loadWin cfgStage loftPoison loftClamp granPoison
      loftErr granErr).wf := ⟨h1, h2, h3, h4, h5, h6, h7, hc, h8, h9, h10⟩

/-- A change of the power entry keeps the stops where it leaves both flags as they are. -/
theorem PowerSt.Kept.of_eq {p q : PowerSt} (h : p.Kept kl kd) (h1 : q.latched = p.latched) (h2 : q.fatal = p.fatal) : q.Kept kl kd :=
  ⟨fun x => h1.trans (h.latched x), fun x => h2.trans (h.fatal x)⟩

theorem State.ite_good {c : Prop} [Decidable c] {a b : State} (ha : a.Good kl kd) (hb : b.Good kl kd) : (if c then a else b).Good kl kd := by
  split <;> assumption

theorem State.foldl_good {β : Type} {xs : List β} {f : State → β → State} {s : State} (h : s.Good kl kd)
    (hf : ∀ t x, t.Good kl kd → (f t x).Good kl kd) : (xs.foldl f s).Good kl kd := by
  induction xs generalizing s with
  | nil => exact h
  | cons x r ih => exact ih (hf s x h)

theorem State.foldl_fst_good {β γ : Type} {xs : List β} {f : State × γ → β → State × γ} {p : State × γ} (h : p.1.Good kl kd)
    (hf : ∀ t x, t.1.Good kl kd → (f t x).1.Good kl kd) : (xs.foldl f p).1.Good kl kd := by
  induction xs generalizing p with
  | nil => exact h
  | cons x r ih => exact ih (hf p x h)

/-- A device-fatal stop begins (R635). -/
theorem State.setFatal_good {s : State} (h : s.Good kl kd) : ({ s with power := { s.power with fatal := true } } : State).Good kl kd :=
  ⟨h.mem, h.regs, ⟨h.power.latched, fun _ => rfl⟩⟩

/-- A latched stop completes (R620). -/
theorem State.setLatched_good {s : State} {x : HostSt} (h : s.Good kl kd) :
    ({ s with power := { s.power with latched := true }, host := x } : State).Good kl kd :=
  ⟨h.mem, h.regs, ⟨fun _ => rfl, h.power.fatal⟩⟩

/-- A grant that is admitted (R606). -/
theorem State.setGrants_good {s : State} {w v : List Grant} (h : s.Good kl kd) :
    ({ s with power := { s.power with waiting := w, held := v } } : State).Good kl kd :=
  ⟨h.mem, h.regs, ⟨h.power.latched, h.power.fatal⟩⟩

/-- What a weight command that was accepted leaves is such a state. -/
def WRes.Good (kl kd : Bool) : WRes → Prop
  | .accepted t => t.Good kl kd
  | .refused _ => True
  | .held => True

theorem WRes.accepted_good {t : State} (h : t.Good kl kd) : WRes.Good kl kd (.accepted t) := h

theorem Out.next_good {t : State} (h : t.Good kl kd) : Out.Good kl kd (.next t) := h

end

end Sys2Proof.Machine
end

