-- ==== Sys2Proof/Laws/SoundOps.lean ====
section
/-! SUPPORT. Soundness, and the stops that hold, are kept by the definitions of Ops, NetOps, PartOps, GaugeTable, Engine, Governor,
Weights, CalOps, Power. -/

set_option linter.tactic.unusedName false

namespace Sys2Proof.Machine

section
variable {kl kd : Bool}

/-! ### Ops -/

theorem State.bump_good {s : State} {f : Fld} {n i j : Nat} (h0 : s.Good kl kd) : (s.bump f n i j).Good kl kd := by
  unfold State.bump
  repeat' first
    | with_reducible assumption | with_reducible apply State.wr_good

theorem State.clr_good {s : State} {f : Fld} {i : Nat} (h0 : s.Good kl kd) : (s.clr f i).Good kl kd := by
  unfold State.clr
  repeat' first
    | with_reducible assumption | intro _ | extract_lets +onlyGivenNames x | with_reducible apply State.wr_good
    | with_reducible apply State.foldl_good

theorem State.setWide_good {s : State} {lo hi : Fld} {v i : Nat} (h0 : s.Good kl kd) : (s.setWide lo hi v i).Good kl kd := by
  unfold State.setWide
  repeat' first
    | with_reducible assumption | extract_lets +onlyGivenNames x | with_reducible apply State.wr_good

theorem State.drawn_good {s : State} {n : Nat} (h0 : s.Good kl kd) : (s.drawn n).Good kl kd := by
  unfold State.drawn
  repeat' first
    | extract_lets +onlyGivenNames x | with_reducible apply State.mk_good | exact State.Good.mem ‹_› | exact State.Good.regs ‹_›
    | exact State.Good.power ‹_›

theorem State.updPart_good {s : State} {p : Nat} {f : PartSt → PartSt} (h0 : s.Good kl kd) : (s.updPart p f).Good kl kd := by
  unfold State.updPart
  repeat' first
    | extract_lets +onlyGivenNames x | with_reducible apply State.mk_good | exact State.Good.mem ‹_› | exact State.Good.regs ‹_›
    | exact State.Good.power ‹_›

theorem State.updCore_good {s : State} {c : Nat} {f : CoreSt → CoreSt} (h0 : s.Good kl kd) : (s.updCore c f).Good kl kd := by
  unfold State.updCore
  repeat' first
    | extract_lets +onlyGivenNames x | with_reducible apply State.mk_good | exact State.Good.mem ‹_› | exact State.Good.regs ‹_›
    | exact State.Good.power ‹_›

theorem State.updMgmt_good {s : State} {f : MgmtSt → MgmtSt} (h0 : s.Good kl kd) : (s.updMgmt f).Good kl kd := by
  unfold State.updMgmt
  repeat' first
    | extract_lets +onlyGivenNames x | with_reducible apply State.mk_good | exact State.Good.mem ‹_› | exact State.Good.regs ‹_›
    | exact State.Good.power ‹_›

theorem State.logErr_good {s : State} {cls src code part station req item addr : Nat} {detail : List Byte} (h0 : s.Good kl kd) :
    (s.logErr cls src code part station req item addr detail).Good kl kd :=
    by
  unfold State.logErr
  repeat' first
    | extract_lets +onlyGivenNames x | with_reducible apply State.bump_good | with_reducible apply State.mk_good
    | exact State.Good.mem ‹_› | exact State.Good.regs ‹_› | exact State.Good.power ‹_›

theorem State.logCore_good {s : State} {cls src code c req item addr : Nat} {detail : List Byte} (h0 : s.Good kl kd) :
    (s.logCore cls src code c req item addr detail).Good kl kd := by
  unfold State.logCore
  repeat' first
    | with_reducible assumption | with_reducible apply State.logErr_good

theorem State.hae_good {s : State} {kind fn bar : Nat} {wr : Bool} {width offset data : Nat} (h0 : s.Good kl kd) :
    (s.hae kind fn bar wr width offset data).Good kl kd := by
  unfold State.hae
  repeat' first
    | extract_lets +onlyGivenNames x | with_reducible apply State.bump_good | with_reducible apply State.mk_good
    | exact State.Good.mem ‹_› | exact State.Good.regs ‹_› | exact State.Good.power ‹_›

theorem State.deliver_good {s : State} {w : HostWrite} (h0 : s.Good kl kd) : (s.deliver w).Good kl kd := by
  unfold State.deliver
  repeat' first
    | extract_lets +onlyGivenNames x | with_reducible apply MemSt.mk_wf | with_reducible apply Mem.wf_write
    | exact MemSt.wf.loft (State.Good.mem ‹_›) | exact MemSt.wf.granary (State.Good.mem ‹_›) | exact MemSt.wf.host (State.Good.mem ‹_›)
    | exact MemSt.wf.flash (State.Good.mem ‹_›) | exact MemSt.wf.loadWin (State.Good.mem ‹_›)
    | exact MemSt.wf.cfgStage (State.Good.mem ‹_›) | exact MemSt.wf.loftPoison (State.Good.mem ‹_›) | exact MemSt.wf.loftClamp (State.Good.mem ‹_›)
    | exact MemSt.wf.granPoison (State.Good.mem ‹_›) | exact MemSt.wf.loftErr (State.Good.mem ‹_›)
    | exact MemSt.wf.granErr (State.Good.mem ‹_›) | split | with_reducible apply State.mk_good | exact State.Good.regs ‹_›
    | exact State.Good.power ‹_›

theorem State.sendHost_good {s : State} {w : HostWrite} (h0 : s.Good kl kd) : (s.sendHost w).Good kl kd := by
  unfold State.sendHost
  repeat' first
    | with_reducible assumption | extract_lets +onlyGivenNames x | with_reducible apply State.wr_good
    | with_reducible apply State.deliver_good | with_reducible apply State.ite_good | with_reducible apply State.mk_good
    | exact State.Good.mem ‹_› | exact State.Good.regs ‹_› | exact State.Good.power ‹_›

theorem State.msix_good {s : State} {fn v : Nat} (h0 : s.Good kl kd) : (s.msix fn v).Good kl kd := by
  unfold State.msix
  repeat' first
    | with_reducible assumption | extract_lets +onlyGivenNames x | with_reducible apply State.sendHost_good
    | with_reducible apply State.ite_good | with_reducible apply State.mk_good | exact State.Good.mem ‹_› | exact State.Good.regs ‹_›
    | exact State.Good.power ‹_›

theorem State.requestReset_good {s : State} {p cause : Nat} (h0 : s.Good kl kd) : (s.requestReset p cause).Good kl kd := by
  unfold State.requestReset
  repeat' first
    | with_reducible assumption | extract_lets +onlyGivenNames x | with_reducible apply State.updPart_good
    | with_reducible apply State.ite_good

theorem State.partFatal_good {s : State} {src code p station req item addr : Nat} {detail : List Byte} (h0 : s.Good kl kd) :
    (s.partFatal src code p station req item addr detail).Good kl kd := by
  unfold State.partFatal
  repeat' first
    | with_reducible assumption | extract_lets +onlyGivenNames x | with_reducible apply State.requestReset_good
    | with_reducible apply State.logErr_good

theorem State.coreFatal_good {s : State} {src code c : Nat} {detail : List Byte} (h0 : s.Good kl kd) :
    (s.coreFatal src code c detail).Good kl kd := by
  unfold State.coreFatal
  repeat' first
    | with_reducible assumption | with_reducible apply State.partFatal_good | with_reducible apply State.logErr_good | split

theorem State.syncMx_good {s : State} {c : Nat} (h0 : s.Good kl kd) : (s.syncMx c).Good kl kd := by
  unfold State.syncMx
  repeat' first
    | with_reducible assumption | extract_lets +onlyGivenNames x | with_reducible apply State.wr_good

theorem State.setEng_good {s : State} {c : Nat} {e : Engine} {v : Nat} (h0 : s.Good kl kd) : (State.setEng s c e v).Good kl kd := by
  unfold State.setEng
  repeat' first
    | with_reducible assumption | intro _
    | (extract_lets +onlyGivenNames x; refine (fun (_ : State.Good kl kd x) => ?_) ?_; clear_value x; rotate_left; subst x)
    | extract_lets +onlyGivenNames x | with_reducible apply State.syncMx_good | with_reducible apply State.wr_good
    | with_reducible apply State.ite_good | split

theorem State.stopCore_good {s : State} {c : Nat} (h0 : s.Good kl kd) : (State.stopCore s c).Good kl kd := by
  unfold State.stopCore
  repeat' first
    | with_reducible assumption | intro _
    | (extract_lets +onlyGivenNames x; refine (fun (_ : State.Good kl kd x) => ?_) ?_; clear_value x; rotate_left; subst x)
    | extract_lets +onlyGivenNames x | with_reducible apply State.setEng_good | with_reducible apply State.wr_good
    | with_reducible apply State.ite_good | split

theorem State.stopDevice_good {s : State} (h0 : s.Good kl kd) : (s.stopDevice).Good kl kd := by
  unfold State.stopDevice
  repeat' first
    | with_reducible assumption
    | intro _
    | (extract_lets +onlyGivenNames x; refine (fun (_ : State.Good kl kd x) => ?_) ?_; clear_value x; rotate_left; subst x)
    | (extract_lets +onlyGivenNames x; refine (fun (_ : State.Good kl kd x.1) => ?_) ?_; clear_value x; rotate_left; subst x)
    | (extract_lets +onlyGivenNames x; refine (fun (_ : State.Good kl kd x.2) => ?_) ?_; clear_value x; rotate_left; subst x)
    | extract_lets +onlyGivenNames x
    | with_reducible apply State.setFatal_good
    | with_reducible apply State.stopCore_good
    | with_reducible apply State.wr_good
    | with_reducible apply State.ite_good
    | with_reducible apply State.foldl_good
    | with_reducible apply State.foldl_fst_good
    | split
    | with_reducible apply State.mk_good
    | exact State.Good.mem ‹_›
    | exact State.Good.regs ‹_›
    | exact State.Good.power ‹_›
    | exact PowerSt.Kept.of_eq (State.Good.power ‹_›) rfl rfl
    | exact PowerSt.Kept.of_eq ‹_› rfl rfl
    | with_reducible apply State.Good.mem
    | with_reducible apply State.Good.regs
    | with_reducible apply State.Good.power

theorem State.devFatal_good {s : State} {src code station item : Nat} (h0 : s.Good kl kd) :
    (s.devFatal src code station item).Good kl kd := by
  unfold State.devFatal
  repeat' first
    | with_reducible assumption | extract_lets +onlyGivenNames x | with_reducible apply State.stopDevice_good
    | with_reducible apply State.logErr_good

theorem State.raise_good {s : State} {c t n : Nat} (h0 : s.Good kl kd) : (s.raise c t n).Good kl kd := by
  unfold State.raise
  repeat' first
    | with_reducible assumption | with_reducible apply State.wr_good

theorem State.poisonLoft_good {s : State} {c g : Nat} {b : Bool} (h0 : s.Good kl kd) : (s.poisonLoft c g b).Good kl kd := by
  unfold State.poisonLoft
  repeat' first
    | with_reducible assumption | intro _ | extract_lets +onlyGivenNames x | with_reducible apply State.updMem_good
    | with_reducible apply MemSt.mk_wf | with_reducible apply Marks.wf_put | exact MemSt.wf.loft ‹_› | exact MemSt.wf.granary ‹_›
    | exact MemSt.wf.host ‹_› | exact MemSt.wf.flash ‹_› | exact MemSt.wf.loadWin ‹_› | exact MemSt.wf.cfgStage ‹_›
    | exact MemSt.wf.loftPoison ‹_› | exact MemSt.wf.loftClamp ‹_› | exact MemSt.wf.granPoison ‹_› | exact MemSt.wf.loftErr ‹_› | exact MemSt.wf.granErr ‹_›

theorem State.eccQuarter_good {s : State} {c g q : Nat} (h0 : s.Good kl kd) : (s.eccQuarter c g q).Good kl kd := by
  unfold State.eccQuarter
  repeat' first
    | with_reducible assumption | intro _ | extract_lets +onlyGivenNames x | with_reducible apply State.logCore_good
    | with_reducible apply State.bump_good | with_reducible apply State.poisonLoft_good | with_reducible apply State.updMem_good
    | with_reducible apply MemSt.mk_wf | with_reducible apply Tbl.wf_set | exact MemSt.wf.loft ‹_› | exact MemSt.wf.granary ‹_›
    | exact MemSt.wf.host ‹_› | exact MemSt.wf.flash ‹_› | exact MemSt.wf.loadWin ‹_› | exact MemSt.wf.cfgStage ‹_›
    | exact MemSt.wf.loftPoison ‹_› | exact MemSt.wf.loftClamp ‹_› | exact MemSt.wf.granPoison ‹_› | exact MemSt.wf.loftErr ‹_› | exact MemSt.wf.granErr ‹_› | split

theorem State.eccLoft_good {s : State} {c g : Nat} (h0 : s.Good kl kd) : (s.eccLoft c g).Good kl kd := by
  unfold State.eccLoft
  repeat' first
    | with_reducible assumption | extract_lets +onlyGivenNames x | with_reducible apply State.eccQuarter_good

theorem State.eccLoftN_good {s : State} {c g n : Nat} (h0 : s.Good kl kd) : (s.eccLoftN c g n).Good kl kd := by
  unfold State.eccLoftN
  repeat' first
    | with_reducible assumption | intro _ | extract_lets +onlyGivenNames x | with_reducible apply State.eccLoft_good
    | with_reducible apply State.ite_good | with_reducible apply State.foldl_good

theorem State.putGran_good {s : State} {c : Nat} {g : Nat} {bs : List Byte} {bad : Bool} (h0 : s.Good kl kd) :
    (State.putGran s c g bs bad).Good kl kd := by
  unfold State.putGran
  repeat' first
    | with_reducible assumption | intro _
    | (extract_lets +onlyGivenNames x; refine (fun (_ : State.Good kl kd x) => ?_) ?_; clear_value x; rotate_left; subst x)
    | extract_lets +onlyGivenNames x | with_reducible apply State.updMem_good | with_reducible apply State.ite_good
    | with_reducible apply State.updMem_good | with_reducible apply MemSt.mk_wf | with_reducible apply Mem.wf_write
    | with_reducible apply Marks.wf_put | with_reducible apply Marks.wf_clear | with_reducible apply Tbl.wf_clearRange
    | exact MemSt.wf.loft ‹_› | exact MemSt.wf.granary ‹_› | exact MemSt.wf.host ‹_› | exact MemSt.wf.flash ‹_›
    | exact MemSt.wf.loadWin ‹_› | exact MemSt.wf.cfgStage ‹_› | exact MemSt.wf.loftPoison ‹_› | exact MemSt.wf.loftClamp ‹_›
    | exact MemSt.wf.granPoison ‹_› | exact MemSt.wf.loftErr ‹_› | exact MemSt.wf.granErr ‹_› | split

theorem State.putBytes_good {s : State} {c : Nat} {a : Nat} {bs : List Byte} (h0 : s.Good kl kd) :
    (State.putBytes s c a bs).Good kl kd := by
  unfold State.putBytes
  repeat' first
    | with_reducible assumption | intro _
    | (extract_lets +onlyGivenNames x; refine (fun (_ : State.Good kl kd x) => ?_) ?_; clear_value x; rotate_left; subst x)
    | extract_lets +onlyGivenNames x | with_reducible apply State.poisonLoft_good | with_reducible apply State.eccLoft_good
    | with_reducible apply State.updMem_good | with_reducible apply State.ite_good | with_reducible apply State.foldl_good
    | with_reducible apply State.foldl_fst_good | with_reducible apply Tbl.wf_foldl | with_reducible apply State.updMem_good
    | with_reducible apply MemSt.mk_wf | with_reducible apply Mem.wf_write | with_reducible apply Marks.wf_clear
    | with_reducible apply Tbl.wf_clearRange | exact MemSt.wf.loft ‹_› | exact MemSt.wf.granary ‹_› | exact MemSt.wf.host ‹_›
    | exact MemSt.wf.flash ‹_› | exact MemSt.wf.loadWin ‹_› | exact MemSt.wf.cfgStage ‹_› | exact MemSt.wf.loftPoison ‹_›
    | exact MemSt.wf.loftClamp ‹_› | exact MemSt.wf.granPoison ‹_› | exact MemSt.wf.loftErr ‹_› | exact MemSt.wf.granErr ‹_› | split

theorem State.poisonBytes_good {s : State} {c a n : Nat} (h0 : s.Good kl kd) : (s.poisonBytes c a n).Good kl kd := by
  unfold State.poisonBytes
  repeat' first
    | with_reducible assumption | intro _ | extract_lets +onlyGivenNames x | with_reducible apply State.poisonLoft_good
    | with_reducible apply State.ite_good | with_reducible apply State.foldl_good

theorem State.scrubLoft_good {s : State} {c : Nat} (h0 : s.Good kl kd) : (s.scrubLoft c).Good kl kd := by
  unfold State.scrubLoft
  repeat' first
    | with_reducible assumption | intro _ | extract_lets +onlyGivenNames x | with_reducible apply State.updMem_good
    | with_reducible apply MemSt.mk_wf | with_reducible apply Mem.wf_zero | with_reducible apply Tbl.wf_clearRange
    | with_reducible apply Marks.wf_clear | exact MemSt.wf.loft ‹_› | exact MemSt.wf.granary ‹_› | exact MemSt.wf.host ‹_›
    | exact MemSt.wf.flash ‹_› | exact MemSt.wf.loadWin ‹_› | exact MemSt.wf.cfgStage ‹_› | exact MemSt.wf.loftPoison ‹_› | exact MemSt.wf.loftClamp ‹_›
    | exact MemSt.wf.granPoison ‹_› | exact MemSt.wf.loftErr ‹_› | exact MemSt.wf.granErr ‹_›

theorem State.rowError_good {s : State} {d : Nat} (h0 : s.Good kl kd) : (State.rowError s d).Good kl kd := by
  unfold State.rowError
  repeat' first
    | with_reducible assumption | intro _
    | (extract_lets +onlyGivenNames x; refine (fun (_ : State.Good kl kd x) => ?_) ?_; clear_value x; rotate_left; subst x)
    | extract_lets +onlyGivenNames x | with_reducible apply State.updMgmt_good | with_reducible apply State.ite_good | split

theorem State.eccGran_good {s : State} {d : Nat} (h0 : s.Good kl kd) : (State.eccGran s d).Good kl kd := by
  unfold State.eccGran
  repeat' first
    | with_reducible assumption | intro _
    | (extract_lets +onlyGivenNames x; refine (fun (_ : State.Good kl kd x) => ?_) ?_; clear_value x; rotate_left; subst x)
    | extract_lets +onlyGivenNames x | with_reducible apply State.bump_good | with_reducible apply State.setWide_good
    | with_reducible apply State.logErr_good | with_reducible apply State.rowError_good | with_reducible apply State.updMem_good
    | with_reducible apply State.ite_good | with_reducible apply State.updMem_good | with_reducible apply MemSt.mk_wf
    | with_reducible apply Mem.wf_zero | with_reducible apply Tbl.wf_set | with_reducible apply Marks.wf_put | exact MemSt.wf.loft ‹_›
    | exact MemSt.wf.granary ‹_› | exact MemSt.wf.host ‹_› | exact MemSt.wf.flash ‹_› | exact MemSt.wf.loadWin ‹_›
    | exact MemSt.wf.cfgStage ‹_› | exact MemSt.wf.loftPoison ‹_› | exact MemSt.wf.loftClamp ‹_› | exact MemSt.wf.granPoison ‹_›
    | exact MemSt.wf.loftErr ‹_› | exact MemSt.wf.granErr ‹_› | split

theorem State.countGran_good {s : State} {d dir : Nat} (h0 : s.Good kl kd) : (s.countGran d dir).Good kl kd := by
  unfold State.countGran
  repeat' first
    | with_reducible assumption | intro _
    | (extract_lets +onlyGivenNames x; refine (fun (_ : State.Good kl kd x) => ?_) ?_; clear_value x; rotate_left; subst x)
    | extract_lets +onlyGivenNames x | with_reducible apply State.bump_good | with_reducible apply State.updMem_good
    | with_reducible apply State.ite_good | with_reducible apply MemSt.mk_wf | exact MemSt.wf.loft ‹_› | exact MemSt.wf.granary ‹_›
    | exact MemSt.wf.host ‹_› | exact MemSt.wf.flash ‹_› | exact MemSt.wf.loadWin ‹_› | exact MemSt.wf.cfgStage ‹_›
    | exact MemSt.wf.loftPoison ‹_› | exact MemSt.wf.loftClamp ‹_› | exact MemSt.wf.granPoison ‹_› | exact MemSt.wf.loftErr ‹_› | exact MemSt.wf.granErr ‹_›

theorem State.readGran_good {s : State} {d : Nat} (h0 : s.Good kl kd) : (State.readGran s d).1.Good kl kd := by
  unfold State.readGran
  repeat' first
    | with_reducible assumption
    | (extract_lets +onlyGivenNames x; refine (fun (_ : State.Good kl kd x) => ?_) ?_; clear_value x; rotate_left; subst x)
    | extract_lets +onlyGivenNames x | with_reducible apply State.countGran_good | with_reducible apply State.eccGran_good
    | with_reducible apply State.bump_good | with_reducible apply State.ite_good | split

theorem State.readAll_good {s : State} {ds : List (Option Nat)} (h0 : s.Good kl kd) : (State.readAll s ds).1.Good kl kd := by
  unfold State.readAll
  repeat' first
    | with_reducible assumption | intro _
    | (extract_lets +onlyGivenNames x; refine (fun (_ : State.Good kl kd x.1) => ?_) ?_; clear_value x; rotate_left; subst x)
    | extract_lets +onlyGivenNames x | with_reducible apply State.readGran_good | with_reducible apply State.foldl_fst_good | split

theorem State.writeGran_good {s : State} {d : Nat} {bs : List Byte} {bad : Bool} (h0 : s.Good kl kd) :
    (s.writeGran d bs bad).Good kl kd := by
  unfold State.writeGran
  repeat' first
    | with_reducible assumption | intro _ | extract_lets +onlyGivenNames x | with_reducible apply State.countGran_good
    | with_reducible apply State.updMem_good | with_reducible apply MemSt.mk_wf | with_reducible apply Mem.wf_write
    | with_reducible apply Mem.wf_zero | with_reducible apply Tbl.wf_set | with_reducible apply Marks.wf_put | exact MemSt.wf.loft ‹_›
    | exact MemSt.wf.granary ‹_› | exact MemSt.wf.host ‹_› | exact MemSt.wf.flash ‹_› | exact MemSt.wf.loadWin ‹_›
    | exact MemSt.wf.cfgStage ‹_› | exact MemSt.wf.loftPoison ‹_› | exact MemSt.wf.loftClamp ‹_› | exact MemSt.wf.granPoison ‹_› | exact MemSt.wf.loftErr ‹_›
    | exact MemSt.wf.granErr ‹_› | split

theorem State.putGranBytes_good {s : State} {a : Nat} {bs : List Byte} (h0 : s.Good kl kd) : (s.putGranBytes a bs).Good kl kd := by
  unfold State.putGranBytes
  repeat' first
    | with_reducible assumption | intro _ | extract_lets +onlyGivenNames x | with_reducible apply State.updMem_good
    | with_reducible apply MemSt.mk_wf | with_reducible apply Mem.wf_write | exact MemSt.wf.loft ‹_› | exact MemSt.wf.granary ‹_›
    | exact MemSt.wf.host ‹_› | exact MemSt.wf.flash ‹_› | exact MemSt.wf.loadWin ‹_› | exact MemSt.wf.cfgStage ‹_›
    | exact MemSt.wf.loftPoison ‹_› | exact MemSt.wf.loftClamp ‹_› | exact MemSt.wf.granPoison ‹_› | exact MemSt.wf.loftErr ‹_› | exact MemSt.wf.granErr ‹_›

theorem State.zeroGrans_good {s : State} {d n : Nat} (h0 : s.Good kl kd) : (s.zeroGrans d n).Good kl kd := by
  unfold State.zeroGrans
  repeat' first
    | with_reducible assumption | intro _ | extract_lets +onlyGivenNames x | with_reducible apply State.updMem_good
    | with_reducible apply MemSt.mk_wf | with_reducible apply Mem.wf_zero | with_reducible apply Tbl.wf_clearRange
    | with_reducible apply Marks.wf_clear | exact MemSt.wf.loft ‹_› | exact MemSt.wf.granary ‹_› | exact MemSt.wf.host ‹_›
    | exact MemSt.wf.flash ‹_› | exact MemSt.wf.loadWin ‹_› | exact MemSt.wf.cfgStage ‹_› | exact MemSt.wf.loftPoison ‹_› | exact MemSt.wf.loftClamp ‹_›
    | exact MemSt.wf.granPoison ‹_› | exact MemSt.wf.loftErr ‹_› | exact MemSt.wf.granErr ‹_›

theorem State.trailEv_good {s : State} {p type units : Nat} {body : List (Nat × Nat × Nat)} (h0 : s.Good kl kd) :
    (s.trailEv p type units body).Good kl kd := by
  unfold State.trailEv
  repeat' first
    | with_reducible assumption | extract_lets +onlyGivenNames x | with_reducible apply State.updPart_good
    | with_reducible apply State.ite_good

theorem State.trailCore_good {s : State} {c type units : Nat} {body : List (Nat × Nat × Nat)} (h0 : s.Good kl kd) :
    (s.trailCore c type units body).Good kl kd := by
  unfold State.trailCore
  repeat' first
    | with_reducible assumption | with_reducible apply State.trailEv_good | split

theorem State.trailWset_good {s : State} {c set version event bank gen : Nat} (h0 : s.Good kl kd) :
    (s.trailWset c set version event bank gen).Good kl kd := by
  unfold State.trailWset
  repeat' first
    | with_reducible assumption
    | (extract_lets +onlyGivenNames x; refine (fun (_ : State.Good kl kd x) => ?_) ?_; clear_value x; rotate_left; subst x)
    | extract_lets +onlyGivenNames x | with_reducible apply State.updPart_good | with_reducible apply State.trailEv_good
    | with_reducible apply State.ite_good | split

theorem State.coreErr_good {s : State} {c : Nat} {e : Engine} {code : Nat} (h0 : s.Good kl kd) : (s.coreErr c e code).Good kl kd :=
    by
  unfold State.coreErr
  repeat' first
    | with_reducible assumption | extract_lets +onlyGivenNames x | with_reducible apply State.wr_good

/-! ### NetOps -/

theorem State.traverse_good {s : State} {a b cls g : Nat} (h0 : s.Good kl kd) : (s.traverse a b cls g).Good kl kd := by
  unfold State.traverse
  repeat' first
    | with_reducible assumption | intro _ | extract_lets +onlyGivenNames x | with_reducible apply State.bump_good
    | with_reducible apply State.ite_good | with_reducible apply State.foldl_good

theorem State.memRead_good {s : State} {c : Nat} {d : Nat} (h0 : s.Good kl kd) : (State.memRead s c d).Good kl kd := by
  unfold State.memRead
  repeat' first
    | with_reducible assumption | intro _
    | (extract_lets +onlyGivenNames x; refine (fun (_ : State.Good kl kd x) => ?_) ?_; clear_value x; rotate_left; subst x)
    | extract_lets +onlyGivenNames x | with_reducible apply State.traverse_good | with_reducible apply State.ite_good | split

theorem State.memWrite_good {s : State} {c : Nat} {d : Nat} (h0 : s.Good kl kd) : (State.memWrite s c d).Good kl kd := by
  unfold State.memWrite
  repeat' first
    | with_reducible assumption | intro _
    | (extract_lets +onlyGivenNames x; refine (fun (_ : State.Good kl kd x) => ?_) ?_; clear_value x; rotate_left; subst x)
    | extract_lets +onlyGivenNames x | with_reducible apply State.traverse_good | with_reducible apply State.ite_good | split

theorem State.netErr_good {s : State} {r code circ : Nat} (h0 : s.Good kl kd) : (s.netErr r code circ).Good kl kd := by
  unfold State.netErr
  repeat' first
    | with_reducible assumption | extract_lets +onlyGivenNames x | with_reducible apply State.wr_good

theorem State.updNet_good {s : State} {f : NetSt → NetSt} (h0 : s.Good kl kd) : (s.updNet f).Good kl kd := by
  unfold State.updNet
  repeat' first
    | extract_lets +onlyGivenNames x | with_reducible apply State.mk_good | exact State.Good.mem ‹_› | exact State.Good.regs ‹_›
    | exact State.Good.power ‹_›

theorem State.updPort_good {s : State} {n : Nat} {f : PortSt → PortSt} (h0 : s.Good kl kd) : (s.updPort n f).Good kl kd := by
  unfold State.updPort
  repeat' first
    | with_reducible assumption | with_reducible apply State.updNet_good

theorem State.putPort_good {s : State} {n : Nat} {m : LinkMsg} (h0 : s.Good kl kd) : (State.putPort s n m).Good kl kd := by
  unfold State.putPort
  repeat' first
    | with_reducible assumption | intro _
    | (extract_lets +onlyGivenNames x; refine (fun (_ : State.Good kl kd x) => ?_) ?_; clear_value x; rotate_left; subst x)
    | extract_lets +onlyGivenNames x | with_reducible apply State.updPort_good | with_reducible apply State.ite_good | split

theorem State.queueMsg_good {s : State} {n : Nat} {m : LinkMsg} (h0 : s.Good kl kd) : (State.queueMsg s n m).Good kl kd := by
  unfold State.queueMsg
  repeat' first
    | with_reducible assumption | intro _
    | (extract_lets +onlyGivenNames x; refine (fun (_ : State.Good kl kd x) => ?_) ?_; clear_value x; rotate_left; subst x)
    | extract_lets +onlyGivenNames x | with_reducible apply State.traverse_good | with_reducible apply State.putPort_good
    | with_reducible apply State.ite_good | split

theorem State.holdMsg_good {s : State} {m : LinkMsg} (h0 : s.Good kl kd) : (s.holdMsg m).Good kl kd := by
  unfold State.holdMsg
  repeat' first
    | with_reducible assumption | extract_lets +onlyGivenNames x | with_reducible apply State.partFatal_good
    | with_reducible apply State.wr_good | with_reducible apply State.updNet_good | with_reducible apply State.ite_good

theorem State.sendNote_good {s : State} {m : LinkMsg} (h0 : s.Good kl kd) : (s.sendNote m).Good kl kd := by
  unfold State.sendNote
  repeat' first
    | with_reducible assumption | extract_lets +onlyGivenNames x | with_reducible apply State.updNet_good
    | with_reducible apply State.queueMsg_good | with_reducible apply State.holdMsg_good | with_reducible apply State.ite_good | split

theorem State.undeliverable_good {s : State} {m : LinkMsg} (h0 : s.Good kl kd) : (s.undeliverable m).Good kl kd := by
  unfold State.undeliverable
  repeat' first
    | with_reducible assumption
    | (extract_lets +onlyGivenNames x; refine (fun (_ : State.Good kl kd x) => ?_) ?_; clear_value x; rotate_left; subst x)
    | with_reducible apply State.sendNote_good | split

theorem State.sendMsg_good {s : State} {m : LinkMsg} {mesh : Bool} (h0 : s.Good kl kd) : (State.sendMsg s m mesh).Good kl kd := by
  unfold State.sendMsg
  repeat' first
    | with_reducible assumption | intro _
    | (extract_lets +onlyGivenNames x; refine (fun (_ : State.Good kl kd x) => ?_) ?_; clear_value x; rotate_left; subst x)
    | extract_lets +onlyGivenNames x | with_reducible apply State.bump_good | with_reducible apply State.traverse_good
    | with_reducible apply State.updNet_good | with_reducible apply State.putPort_good | with_reducible apply State.queueMsg_good
    | with_reducible apply State.undeliverable_good | with_reducible apply State.ite_good | split

theorem State.flushNotes_good {s : State} (h0 : s.Good kl kd) : (s.flushNotes).Good kl kd := by
  unfold State.flushNotes
  repeat' first
    | with_reducible assumption | intro _
    | (extract_lets +onlyGivenNames x; refine (fun (_ : State.Good kl kd x) => ?_) ?_; clear_value x; rotate_left; subst x)
    | extract_lets +onlyGivenNames x | with_reducible apply State.updNet_good | with_reducible apply State.queueMsg_good
    | with_reducible apply State.wr_good | with_reducible apply State.foldl_good | split

theorem State.takeMsg_good {s : State} {type : Nat} {m : Option LinkMsg} (h0 : s.Good kl kd) :
    (State.takeMsg s type m).1.Good kl kd := by
  unfold State.takeMsg
  repeat' first
    | with_reducible assumption | with_reducible apply State.updNet_good | split

theorem State.deliverOr_good {s : State} {m : LinkMsg} {go : State → State} (h0 : s.Good kl kd) (h2 : ∀ x2_0, x2_0.Good kl kd →
    (go x2_0).Good kl kd) : (s.deliverOr m go).Good kl kd := by
  unfold State.deliverOr
  repeat' first
    | with_reducible assumption | extract_lets +onlyGivenNames x | with_reducible apply State.sendMsg_good
    | with_reducible apply State.bump_good | with_reducible apply h2 | with_reducible apply State.ite_good

/-! ### PartOps -/

theorem State.syncEnabled_good {s : State} (h0 : s.Good kl kd) : (s.syncEnabled).Good kl kd := by
  unfold State.syncEnabled
  repeat' first
    | with_reducible assumption | with_reducible apply State.wr_good

theorem State.syncChecks_good {s : State} (h0 : s.Good kl kd) : (s.syncChecks).Good kl kd := by
  unfold State.syncChecks
  repeat' first
    | with_reducible assumption | extract_lets +onlyGivenNames x | with_reducible apply State.wr_good | split

theorem State.unqueue_good {s : State} {p : Nat} (h0 : s.Good kl kd) : (s.unqueue p).Good kl kd := by
  unfold State.unqueue
  repeat' first
    | extract_lets +onlyGivenNames x | with_reducible apply State.syncChecks_good | with_reducible apply State.mk_good
    | exact State.Good.mem ‹_› | exact State.Good.regs ‹_› | exact State.Good.power ‹_›

theorem State.dropFlips_good {s : State} {p : Nat} (h0 : s.Good kl kd) : (s.dropFlips p).Good kl kd := by
  unfold State.dropFlips
  repeat' first
    | with_reducible assumption | intro _ | extract_lets +onlyGivenNames x | with_reducible apply State.updCore_good
    | with_reducible apply State.foldl_good

theorem State.endCheck_good {s : State} {p code : Nat} (h0 : s.Good kl kd) : (s.endCheck p code).Good kl kd := by
  unfold State.endCheck
  repeat' first
    | with_reducible assumption | extract_lets +onlyGivenNames x | with_reducible apply State.unqueue_good
    | with_reducible apply State.updPart_good | with_reducible apply State.dropFlips_good | with_reducible apply State.wr_good

theorem State.refuse_good {s : State} {p code detail : Nat} (h0 : s.Good kl kd) : (s.refuse p code detail).Good kl kd := by
  unfold State.refuse
  repeat' first
    | with_reducible assumption | extract_lets +onlyGivenNames x | with_reducible apply State.msix_good
    | with_reducible apply State.bump_good | with_reducible apply State.wr_good | with_reducible apply State.endCheck_good

theorem State.sendResult_good {s : State} {p code : Nat} (h0 : s.Good kl kd) : (s.sendResult p code).Good kl kd := by
  unfold State.sendResult
  repeat' first
    | with_reducible assumption | extract_lets +onlyGivenNames x | with_reducible apply State.sendMsg_good
    | with_reducible apply State.ite_good

theorem State.failCheck_good {s : State} {p code detail : Nat} (h0 : s.Good kl kd) : (s.failCheck p code detail).Good kl kd := by
  unfold State.failCheck
  repeat' first
    | with_reducible assumption | extract_lets +onlyGivenNames x | with_reducible apply State.refuse_good
    | with_reducible apply State.sendResult_good

/-! ### GaugeTable -/

theorem State.countSkip_good {s : State} {lo : Nat} (h0 : s.Good kl kd) : (State.countSkip s lo).Good kl kd := by
  unfold State.countSkip
  repeat' first
    | with_reducible assumption | intro _
    | (extract_lets +onlyGivenNames x; refine (fun (_ : State.Good kl kd x) => ?_) ?_; clear_value x; rotate_left; subst x)
    | extract_lets +onlyGivenNames x | with_reducible apply State.bump_good | with_reducible apply State.wr_good
    | with_reducible apply State.ite_good | split

theorem State.beginVisit_good {s : State} {g : Nat} (h0 : s.Good kl kd) : (State.beginVisit s g).Good kl kd := by
  unfold State.beginVisit
  repeat' first
    | with_reducible assumption | intro _
    | (extract_lets +onlyGivenNames x; refine (fun (_ : State.Good kl kd x) => ?_) ?_; clear_value x; rotate_left; subst x)
    | (extract_lets +onlyGivenNames x; refine (fun (_ : State.Good kl kd x.1) => ?_) ?_; clear_value x; rotate_left; subst x)
    | extract_lets +onlyGivenNames x | with_reducible apply State.countSkip_good | with_reducible apply State.wr_good
    | with_reducible apply State.updPower_good | with_reducible apply State.ite_good | with_reducible apply State.foldl_good
    | with_reducible apply State.foldl_fst_good | with_reducible apply rfl | split

theorem State.periodVisit_good {s : State} {g : Nat} (h0 : s.Good kl kd) : (State.periodVisit s g).Good kl kd := by
  unfold State.periodVisit
  repeat' first
    | with_reducible assumption | intro _
    | (extract_lets +onlyGivenNames x; refine (fun (_ : State.Good kl kd x) => ?_) ?_; clear_value x; rotate_left; subst x)
    | extract_lets +onlyGivenNames x | with_reducible apply State.countSkip_good | with_reducible apply State.beginVisit_good
    | with_reducible apply State.updPower_good | with_reducible apply State.ite_good | rfl | split

/-! ### Engine -/

theorem State.readHead_good {s : State} {c : Nat} {e : Engine} {cmd : Cmd} (h0 : s.Good kl kd) : (s.readHead c e cmd).Good kl kd :=
    by
  unfold State.readHead
  repeat' first
    | with_reducible assumption
    | (extract_lets +onlyGivenNames x; refine (fun (_ : State.Good kl kd x) => ?_) ?_; clear_value x; rotate_left; subst x)
    | extract_lets +onlyGivenNames x | with_reducible apply State.updCore_good | with_reducible apply State.bump_good
    | with_reducible apply State.ite_good

theorem State.headWait_good {s : State} {c : Nat} {e : Engine} {v : Nat} (h0 : s.Good kl kd) : (s.headWait c e v).Good kl kd := by
  unfold State.headWait
  repeat' first
    | with_reducible assumption | with_reducible apply State.wr_good | split

theorem State.countRetired_good {s : State} {c : Nat} {a : Engine} (h0 : s.Good kl kd) : (s.countRetired c a).Good kl kd := by
  unfold State.countRetired
  repeat' first
    | with_reducible assumption | with_reducible apply State.bump_good | split

theorem State.signal_good {s : State} {c : Nat} {cmd : Cmd} (h0 : s.Good kl kd) : (s.signal c cmd).Good kl kd := by
  unfold State.signal
  repeat' first
    | with_reducible assumption | extract_lets +onlyGivenNames x | with_reducible apply State.raise_good
    | with_reducible apply State.ite_good

theorem State.goTo_good {s : State} {c : Nat} {e : Engine} {pc : Nat} (h0 : s.Good kl kd) : (State.goTo s c e pc).Good kl kd := by
  unfold State.goTo
  repeat' first
    | with_reducible assumption | intro _
    | (extract_lets +onlyGivenNames x; refine (fun (_ : State.Good kl kd x) => ?_) ?_; clear_value x; rotate_left; subst x)
    | extract_lets +onlyGivenNames x | with_reducible apply State.updCore_good | with_reducible apply State.coreFatal_good
    | with_reducible apply State.setEng_good | with_reducible apply State.coreErr_good | with_reducible apply State.wr_good
    | with_reducible apply State.ite_good | split

theorem State.goNext_good {s : State} {c : Nat} {e : Engine} (h0 : s.Good kl kd) : (s.goNext c e).Good kl kd := by
  unfold State.goNext
  repeat' first
    | with_reducible assumption | with_reducible apply State.goTo_good

theorem State.retire_good {s : State} {c : Nat} {e : Engine} {cmd : Cmd} (h0 : s.Good kl kd) : (s.retire c e cmd).Good kl kd := by
  unfold State.retire
  repeat' first
    | with_reducible assumption | extract_lets +onlyGivenNames x | with_reducible apply State.goNext_good
    | with_reducible apply State.signal_good | with_reducible apply State.countRetired_good

theorem State.unknown_good {s : State} {c : Nat} {e : Engine} (h0 : s.Good kl kd) : (State.unknown s c e).Good kl kd := by
  unfold State.unknown
  repeat' first
    | with_reducible assumption | intro _
    | (extract_lets +onlyGivenNames x; refine (fun (_ : State.Good kl kd x) => ?_) ?_; clear_value x; rotate_left; subst x)
    | extract_lets +onlyGivenNames x | with_reducible apply State.coreFatal_good | with_reducible apply State.setEng_good
    | with_reducible apply State.coreErr_good | with_reducible apply State.ite_good | split

theorem State.hazStop_good {s : State} {c : Nat} {e : Engine} {cmd : Cmd} {h : Hazard} (h0 : s.Good kl kd) :
    (s.hazStop c e cmd h).Good kl kd := by
  unfold State.hazStop
  repeat' first
    | with_reducible assumption | intro _
    | (extract_lets +onlyGivenNames x; refine (fun (_ : State.Good kl kd x) => ?_) ?_; clear_value x; rotate_left; subst x)
    | extract_lets +onlyGivenNames x | with_reducible apply State.wr_good | with_reducible apply State.stopCore_good
    | with_reducible apply State.logErr_good | with_reducible apply State.requestReset_good | with_reducible apply State.ite_good
    | with_reducible apply State.foldl_good | split

theorem State.guarded_good {s : State} {c : Nat} {e : Engine} {cmd : Cmd} {reads writes : List Run} {go : State → State} (h0
    : s.Good kl kd) (h6 : ∀ x6_0, x6_0.Good kl kd → (go x6_0).Good kl kd) : (s.guarded c e cmd reads writes go).Good kl kd := by
  unfold State.guarded
  repeat' first
    | with_reducible assumption | with_reducible apply State.hazStop_good | with_reducible apply h6 | split

theorem State.takeUp_good {s : State} {c : Nat} {e : Engine} {cmd : Cmd} (h0 : s.Good kl kd) : (State.takeUp s c e cmd).Good kl kd := by
  unfold State.takeUp
  repeat' first
    | with_reducible assumption | intro _
    | (extract_lets +onlyGivenNames x; refine (fun (_ : State.Good kl kd x) => ?_) ?_; clear_value x; rotate_left; subst x)
    | extract_lets +onlyGivenNames x | with_reducible apply State.setEng_good | with_reducible apply State.readHead_good
    | with_reducible apply State.headWait_good | with_reducible apply State.ite_good | split

theorem State.engRun_good {s : State} {c : Nat} {e : Engine} {cmd : Cmd} {body : State → State} (h0 : s.Good kl kd) (h1 : ∀ t0, t0.Good kl kd → (body t0).Good kl kd) :
    (State.engRun s c e cmd body).Good kl kd := by
  unfold State.engRun
  repeat' first
    | with_reducible assumption | intro _
    | (extract_lets +onlyGivenNames x; refine (fun (_ : State.Good kl kd x) => ?_) ?_; clear_value x; rotate_left; subst x)
    | extract_lets +onlyGivenNames x | with_reducible apply h1 | with_reducible apply State.setEng_good
    | with_reducible apply State.readHead_good | with_reducible apply State.headWait_good | with_reducible apply State.hazStop_good
    | with_reducible apply State.takeUp_good | with_reducible apply State.ite_good | split

/-! ### Governor -/

theorem State.syncHeld_good {s : State} {h : Holder} {c : Nat} (h0 : s.Good kl kd) : (s.syncHeld h c).Good kl kd := by
  unfold State.syncHeld
  repeat' first
    | with_reducible assumption
    | (extract_lets +onlyGivenNames x; refine (fun (_ : State.Good kl kd x) => ?_) ?_; clear_value x; rotate_left; subst x)
    | extract_lets +onlyGivenNames x | with_reducible apply State.wr_good | split | with_reducible apply State.mk_good
    | exact State.Good.mem ‹_› | exact State.Good.regs ‹_› | exact PowerSt.Kept.of_eq (State.Good.power ‹_›) rfl rfl

theorem State.admitHolder_good {s : State} {h : Holder} {a : Nat} (h0 : s.Good kl kd) : (s.admitHolder h a).Good kl kd := by
  induction a generalizing s with
  | zero => exact h0
  | succ n ih =>
    unfold State.admitHolder
    split
    · exact h0
    · split
      · exact ih (State.syncHeld_good (State.setGrants_good h0))
      · exact h0

theorem State.admitAll_good {s : State} (h0 : s.Good kl kd) : (s.admitAll).Good kl kd := by
  unfold State.admitAll
  repeat' first
    | with_reducible assumption | intro _ | extract_lets +onlyGivenNames x | with_reducible apply State.admitHolder_good
    | with_reducible apply State.foldl_good

theorem State.requestGrant_good {s : State} {g : Grant} (h0 : s.Good kl kd) : (s.requestGrant g).Good kl kd := by
  unfold State.requestGrant
  repeat' first
    | with_reducible assumption
    | (extract_lets +onlyGivenNames x; refine (fun (_ : State.Good kl kd x) => ?_) ?_; clear_value x; rotate_left; subst x)
    | extract_lets +onlyGivenNames x | with_reducible apply State.admitHolder_good | with_reducible apply State.bump_good
    | with_reducible apply State.ite_good | split | with_reducible apply State.mk_good | exact State.Good.mem ‹_›
    | exact State.Good.regs ‹_› | exact PowerSt.Kept.of_eq (State.Good.power ‹_›) rfl rfl

theorem State.release_good {s : State} {c id : Nat} {cap : Bool} (h0 : s.Good kl kd) : (s.release c id cap).Good kl kd := by
  unfold State.release
  repeat' first
    | with_reducible assumption | extract_lets +onlyGivenNames x | with_reducible apply State.syncHeld_good | split
    | with_reducible apply State.mk_good | exact State.Good.mem ‹_› | exact State.Good.regs ‹_›
    | exact PowerSt.Kept.of_eq (State.Good.power ‹_›) rfl rfl

theorem State.dropGrants_good {s : State} {p : Nat} (h0 : s.Good kl kd) : (s.dropGrants p).Good kl kd := by
  unfold State.dropGrants
  repeat' first
    | with_reducible assumption | intro _
    | (extract_lets +onlyGivenNames x; refine (fun (_ : State.Good kl kd x) => ?_) ?_; clear_value x; rotate_left; subst x)
    | extract_lets +onlyGivenNames x | with_reducible apply State.syncHeld_good | with_reducible apply State.foldl_good
    | with_reducible apply State.mk_good | exact State.Good.mem ‹_› | exact State.Good.regs ‹_›
    | exact PowerSt.Kept.of_eq (State.Good.power ‹_›) rfl rfl

theorem State.holderLevel_good {s : State} {g total : Nat} {scaled : Bool} {stepNum : Nat} {h : Holder} (h0 : s.Good kl kd) :
    (s.holderLevel g total scaled stepNum h).Good kl kd := by
  unfold State.holderLevel
  repeat' first
    | with_reducible assumption
    | (extract_lets +onlyGivenNames x; refine (fun (_ : State.Good kl kd x) => ?_) ?_; clear_value x; rotate_left; subst x)
    | extract_lets +onlyGivenNames x | with_reducible apply State.wr_good | with_reducible apply State.updPower_good | rfl | split

theorem State.governorLevels_good {s : State} (h0 : s.Good kl kd) : (s.governorLevels).Good kl kd := by
  unfold State.governorLevels
  repeat' first
    | with_reducible assumption | intro _
    | (extract_lets +onlyGivenNames x; refine (fun (_ : State.Good kl kd x) => ?_) ?_; clear_value x; rotate_left; subst x)
    | extract_lets +onlyGivenNames x | with_reducible apply State.wr_good | with_reducible apply State.holderLevel_good
    | with_reducible apply State.updPower_good | with_reducible apply State.foldl_good | rfl

/-! ### Weights -/

theorem State.updSet_good {s : State} {c w : Nat} {f : WSet → WSet} (h0 : s.Good kl kd) : (s.updSet c w f).Good kl kd := by
  unfold State.updSet
  repeat' first
    | with_reducible assumption | with_reducible apply State.updCore_good

theorem State.eccImage_good {s : State} {img : Nat} (h0 : s.Good kl kd) : (s.eccImage img).Good kl kd := by
  unfold State.eccImage
  repeat' first
    | with_reducible assumption | intro _
    | (extract_lets +onlyGivenNames x; refine (fun (_ : State.Good kl kd x) => ?_) ?_; clear_value x; rotate_left; subst x)
    | extract_lets +onlyGivenNames x | with_reducible apply State.eccGran_good | with_reducible apply State.ite_good
    | with_reducible apply State.foldl_good

theorem State.readBlocks_good {s : State} {img : Nat} (h0 : s.Good kl kd) : (s.readBlocks img).Good kl kd := by
  unfold State.readBlocks
  repeat' first
    | with_reducible assumption | extract_lets +onlyGivenNames x | with_reducible apply State.readAll_good

/-! ### CalOps -/

theorem State.updCal_good {s : State} {c : Nat} {f : CalSt → CalSt} (h0 : s.Good kl kd) : (s.updCal c f).Good kl kd := by
  unfold State.updCal
  repeat' first
    | with_reducible assumption | with_reducible apply State.updCore_good

theorem State.syncCal_good {s : State} {c : Nat} (h0 : s.Good kl kd) : (s.syncCal c).Good kl kd := by
  unfold State.syncCal
  repeat' first
    | with_reducible assumption | extract_lets +onlyGivenNames x | with_reducible apply State.wr_good

theorem State.calDue_good {s : State} {c cause : Nat} (h0 : s.Good kl kd) : (s.calDue c cause).Good kl kd := by
  unfold State.calDue
  repeat' first
    | with_reducible assumption | extract_lets +onlyGivenNames x | with_reducible apply State.wr_good
    | with_reducible apply State.ite_good

theorem State.trailCal_good {s : State} {c : Nat} {kind : Nat} {cause : Nat} {a : Nat} (h0 : s.Good kl kd) :
    (State.trailCal s c kind cause a).Good kl kd := by
  unfold State.trailCal
  repeat' first
    | with_reducible assumption | intro _
    | (extract_lets +onlyGivenNames x; refine (fun (_ : State.Good kl kd x) => ?_) ?_; clear_value x; rotate_left; subst x)
    | extract_lets +onlyGivenNames x | with_reducible apply State.trailCore_good | with_reducible apply State.ite_good | split

theorem State.calEpoch_good {s : State} {c : Nat} {kind : Nat} {a : Nat} (h0 : s.Good kl kd) :
    (State.calEpoch s c kind a).Good kl kd := by
  unfold State.calEpoch
  repeat' first
    | with_reducible assumption | intro _
    | (extract_lets +onlyGivenNames x; refine (fun (_ : State.Good kl kd x) => ?_) ?_; clear_value x; rotate_left; subst x)
    | extract_lets +onlyGivenNames x | with_reducible apply State.updMgmt_good | with_reducible apply State.trailCal_good
    | with_reducible apply State.wr_good | with_reducible apply State.ite_good | split

theorem State.rampStep_good {s : State} {c : Nat} (h0 : s.Good kl kd) : (s.rampStep c).Good kl kd := by
  unfold State.rampStep
  repeat' first
    | with_reducible assumption
    | (extract_lets +onlyGivenNames x; refine (fun (_ : State.Good kl kd x) => ?_) ?_; clear_value x; rotate_left; subst x)
    | extract_lets +onlyGivenNames x | with_reducible apply State.updCal_good | with_reducible apply State.wr_good
    | with_reducible apply State.calEpoch_good | with_reducible apply State.syncCal_good | with_reducible apply State.ite_good

theorem State.rampWhole_good {s : State} {c kind : Nat} (h0 : s.Good kl kd) : (s.rampWhole c kind).Good kl kd := by
  unfold State.rampWhole
  repeat' first
    | with_reducible assumption
    | (extract_lets +onlyGivenNames x; refine (fun (_ : State.Good kl kd x) => ?_) ?_; clear_value x; rotate_left; subst x)
    | extract_lets +onlyGivenNames x | with_reducible apply State.updCal_good | with_reducible apply State.calEpoch_good
    | with_reducible apply State.syncCal_good | with_reducible apply State.ite_good

theorem State.calStore_good {s : State} {c run epoch : Nat} {t : Int} (h0 : s.Good kl kd) : (s.calStore c run epoch t).Good kl kd :=
    by
  unfold State.calStore
  repeat' first
    | with_reducible assumption
    | (extract_lets +onlyGivenNames x; refine (fun (_ : State.Good kl kd x) => ?_) ?_; clear_value x; rotate_left; subst x)
    | extract_lets +onlyGivenNames x | with_reducible apply State.putGranBytes_good

theorem State.calAdopt_good {s : State} {c : Nat} (h0 : s.Good kl kd) : (s.calAdopt c).Good kl kd := by
  unfold State.calAdopt
  repeat' first
    | with_reducible assumption
    | (extract_lets +onlyGivenNames x; refine (fun (_ : State.Good kl kd x) => ?_) ?_; clear_value x; rotate_left; subst x)
    | extract_lets +onlyGivenNames x | with_reducible apply State.updCal_good | with_reducible apply State.wr_good
    | with_reducible apply State.trailCal_good | with_reducible apply State.syncCal_good | with_reducible apply State.calStore_good
    | with_reducible apply State.rampStep_good | with_reducible apply State.calEpoch_good | with_reducible apply State.ite_good | split

theorem State.calEdge_good {s : State} {c : Nat} (h0 : s.Good kl kd) : (s.calEdge c).Good kl kd := by
  unfold State.calEdge
  repeat' first
    | with_reducible assumption | extract_lets +onlyGivenNames x | with_reducible apply State.calAdopt_good
    | with_reducible apply State.rampStep_good | with_reducible apply State.rampWhole_good | with_reducible apply State.ite_good | split

theorem State.calFlip_good {s : State} {c : Nat} {arrays : List Nat} (h0 : s.Good kl kd) : (State.calFlip s c arrays).Good kl kd := by
  unfold State.calFlip
  repeat' first
    | with_reducible assumption | intro _
    | (extract_lets +onlyGivenNames x; refine (fun (_ : State.Good kl kd x) => ?_) ?_; clear_value x; rotate_left; subst x)
    | (extract_lets +onlyGivenNames x; refine (fun (_ : State.Good kl kd x.1) => ?_) ?_; clear_value x; rotate_left; subst x)
    | extract_lets +onlyGivenNames x | with_reducible apply State.updCal_good | with_reducible apply State.syncCal_good
    | with_reducible apply State.calEpoch_good | with_reducible apply State.ite_good | with_reducible apply State.foldl_good
    | with_reducible apply State.foldl_fst_good | split

theorem State.calAbandon_good {s : State} {c : Nat} (h0 : s.Good kl kd) : (s.calAbandon c).Good kl kd := by
  unfold State.calAbandon
  repeat' first
    | with_reducible assumption | extract_lets +onlyGivenNames x | with_reducible apply State.trailCal_good
    | with_reducible apply State.bump_good | with_reducible apply State.wr_good | with_reducible apply State.ite_good

theorem State.skipWitness_good {s : State} {c : Nat} {count : Bool} (h0 : s.Good kl kd) : (s.skipWitness c count).Good kl kd := by
  unfold State.skipWitness
  repeat' first
    | with_reducible assumption
    | (extract_lets +onlyGivenNames x; refine (fun (_ : State.Good kl kd x) => ?_) ?_; clear_value x; rotate_left; subst x)
    | extract_lets +onlyGivenNames x | with_reducible apply State.updCore_good | with_reducible apply State.bump_good
    | with_reducible apply State.ite_good

theorem State.coreTempSample_good {s : State} {c : Nat} (h0 : s.Good kl kd) : (s.coreTempSample c).Good kl kd := by
  unfold State.coreTempSample
  repeat' first
    | with_reducible assumption
    | (extract_lets +onlyGivenNames x; refine (fun (_ : State.Good kl kd x) => ?_) ?_; clear_value x; rotate_left; subst x)
    | extract_lets +onlyGivenNames x | with_reducible apply State.wr_good | with_reducible apply State.updCore_good
    | with_reducible apply State.syncCal_good | with_reducible apply State.calDue_good | with_reducible apply State.ite_good

/-! ### Power -/

theorem State.flashStart_good {s : State} {kind off : Nat} {data : List Byte} (h0 : s.Good kl kd) :
    (s.flashStart kind off data).Good kl kd := by
  unfold State.flashStart
  repeat' first
    | with_reducible assumption | intro _ | extract_lets +onlyGivenNames x | with_reducible apply State.wr_good
    | with_reducible apply State.updMem_good | with_reducible apply State.ite_good | with_reducible apply MemSt.mk_wf
    | exact MemSt.wf.loft ‹_› | exact MemSt.wf.granary ‹_› | exact MemSt.wf.host ‹_› | exact MemSt.wf.flash ‹_›
    | exact MemSt.wf.loadWin ‹_› | exact MemSt.wf.cfgStage ‹_› | exact MemSt.wf.loftPoison ‹_› | exact MemSt.wf.loftClamp ‹_› | exact MemSt.wf.granPoison ‹_›
    | exact MemSt.wf.loftErr ‹_› | exact MemSt.wf.granErr ‹_›

theorem State.flashEnd_good {s : State} (h0 : s.Good kl kd) : (s.flashEnd).Good kl kd := by
  unfold State.flashEnd
  repeat' first
    | with_reducible assumption | intro _
    | (extract_lets +onlyGivenNames x; refine (fun (_ : State.Good kl kd x) => ?_) ?_; clear_value x; rotate_left; subst x)
    | extract_lets +onlyGivenNames x | with_reducible apply State.wr_good | with_reducible apply State.updPower_good
    | with_reducible apply State.updMem_good | with_reducible apply State.ite_good | with_reducible apply MemSt.mk_wf
    | with_reducible apply Mem.wf_write | exact MemSt.wf.loft ‹_› | exact MemSt.wf.granary ‹_› | exact MemSt.wf.host ‹_›
    | exact MemSt.wf.flash ‹_› | exact MemSt.wf.loadWin ‹_› | exact MemSt.wf.cfgStage ‹_› | exact MemSt.wf.loftPoison ‹_› | exact MemSt.wf.loftClamp ‹_›
    | exact MemSt.wf.granPoison ‹_› | exact MemSt.wf.loftErr ‹_› | exact MemSt.wf.granErr ‹_› | rfl | split

theorem State.flashCut_good {s : State} (h0 : s.Good kl kd) : (State.flashCut s).Good kl kd := by
  unfold State.flashCut
  repeat' first
    | with_reducible assumption | intro _
    | (extract_lets +onlyGivenNames x; refine (fun (_ : State.Good kl kd x) => ?_) ?_; clear_value x; rotate_left; subst x)
    | extract_lets +onlyGivenNames x | with_reducible apply State.updMem_good | with_reducible apply State.ite_good
    | with_reducible apply State.foldl_good | with_reducible apply State.foldl_fst_good | with_reducible apply Tbl.wf_foldl
    | with_reducible apply State.updMem_good | with_reducible apply MemSt.mk_wf | with_reducible apply Mem.wf_write
    | exact MemSt.wf.loft ‹_› | exact MemSt.wf.granary ‹_› | exact MemSt.wf.host ‹_› | exact MemSt.wf.flash ‹_›
    | exact MemSt.wf.loadWin ‹_› | exact MemSt.wf.cfgStage ‹_› | exact MemSt.wf.loftPoison ‹_› | exact MemSt.wf.loftClamp ‹_›
    | exact MemSt.wf.granPoison ‹_› | exact MemSt.wf.loftErr ‹_› | exact MemSt.wf.granErr ‹_› | split

theorem State.appendCause_good {s : State} {phase : Nat} (h0 : s.Good kl kd) : (s.appendCause phase).Good kl kd := by
  unfold State.appendCause
  repeat' first
    | with_reducible assumption | extract_lets +onlyGivenNames x | with_reducible apply State.flashStart_good

theorem State.raiseCause_good {s : State} {code value source : Nat} (h0 : s.Good kl kd) :
    (s.raiseCause code value source).Good kl kd := by
  unfold State.raiseCause
  repeat' first
    | with_reducible assumption | extract_lets +onlyGivenNames x | with_reducible apply State.updPower_good
    | with_reducible apply State.ite_good | rfl

theorem State.sdcBegin_good {s : State} (h0 : s.Good kl kd) : (s.sdcBegin).Good kl kd := by
  unfold State.sdcBegin
  repeat' first
    | with_reducible assumption | extract_lets +onlyGivenNames x | with_reducible apply State.updPower_good | rfl | split

theorem State.latchBegin_good {s : State} (h0 : s.Good kl kd) : (s.latchBegin).Good kl kd := by
  unfold State.latchBegin
  repeat' first
    | with_reducible assumption | extract_lets +onlyGivenNames x | with_reducible apply State.flashCut_good
    | with_reducible apply State.sdcBegin_good | with_reducible apply State.wr_good | with_reducible apply State.updPower_good | rfl

theorem State.orderlyBegin_good {s : State} {value source : Nat} (h0 : s.Good kl kd) : (s.orderlyBegin value source).Good kl kd :=
    by
  unfold State.orderlyBegin
  repeat' first
    | with_reducible assumption | extract_lets +onlyGivenNames x | with_reducible apply State.sdcBegin_good
    | with_reducible apply State.updPower_good | rfl

theorem State.stopCause_good {s : State} {code value source : Nat} (h0 : s.Good kl kd) :
    (s.stopCause code value source).Good kl kd := by
  unfold State.stopCause
  repeat' first
    | with_reducible assumption
    | (extract_lets +onlyGivenNames x; refine (fun (_ : State.Good kl kd x) => ?_) ?_; clear_value x; rotate_left; subst x)
    | extract_lets +onlyGivenNames x | with_reducible apply State.wr_good | with_reducible apply State.latchBegin_good
    | with_reducible apply State.orderlyBegin_good | with_reducible apply State.logErr_good | with_reducible apply State.ite_good

theorem execShutdownCause_good {given : Option (BitVec 4 × BitVec 16 × BitVec 16)} {s : State} (h1 : s.Good kl kd) : Out.Good kl kd
    (execShutdownCause given s) := by
  unfold execShutdownCause
  repeat' first
    | with_reducible assumption | extract_lets +onlyGivenNames x | with_reducible apply State.stopCause_good
    | with_reducible apply State.updPower_good | with_reducible apply State.ite_good | with_reducible apply Out.next_good | rfl | split

theorem execSdReq_good {s : State} (h0 : s.Good kl kd) : Out.Good kl kd (execSdReq s) := by
  unfold execSdReq
  repeat' first
    | with_reducible assumption | extract_lets +onlyGivenNames x | with_reducible apply State.stopCause_good
    | with_reducible apply State.ite_good | with_reducible apply Out.next_good

theorem execLatchedStop_good {s : State} (h0 : s.Good kl kd) : Out.Good kl kd (execLatchedStop s) := by
  unfold execLatchedStop
  repeat' first
    | with_reducible assumption
    | intro _
    | (extract_lets +onlyGivenNames x; refine (fun (_ : State.Good kl kd x) => ?_) ?_; clear_value x; rotate_left; subst x)
    | (extract_lets +onlyGivenNames x; refine (fun (_ : State.Good kl kd x.1) => ?_) ?_; clear_value x; rotate_left; subst x)
    | (extract_lets +onlyGivenNames x; refine (fun (_ : State.Good kl kd x.2) => ?_) ?_; clear_value x; rotate_left; subst x)
    | extract_lets +onlyGivenNames x
    | with_reducible apply State.setLatched_good
    | with_reducible apply State.stopCore_good
    | with_reducible apply State.wr_good
    | with_reducible apply State.ite_good
    | with_reducible apply State.foldl_good
    | with_reducible apply State.foldl_fst_good
    | with_reducible apply Out.next_good
    | split
    | with_reducible apply State.mk_good
    | exact State.Good.mem ‹_›
    | exact State.Good.regs ‹_›
    | exact State.Good.power ‹_›
    | exact PowerSt.Kept.of_eq (State.Good.power ‹_›) rfl rfl
    | exact PowerSt.Kept.of_eq ‹_› rfl rfl
    | with_reducible apply State.Good.mem
    | with_reducible apply State.Good.regs
    | with_reducible apply State.Good.power

theorem execOrderlyLimit_good {s : State} (h0 : s.Good kl kd) : Out.Good kl kd (execOrderlyLimit s) := by
  unfold execOrderlyLimit
  repeat' first
    | with_reducible assumption | extract_lets +onlyGivenNames x | with_reducible apply State.stopCause_good
    | with_reducible apply State.ite_good | with_reducible apply Out.next_good

theorem execSdcNFrame_good {s : State} (h0 : s.Good kl kd) : Out.Good kl kd (execSdcNFrame s) := by
  unfold execSdcNFrame
  repeat' first
    | with_reducible assumption | extract_lets +onlyGivenNames x | with_reducible apply State.updPower_good
    | with_reducible apply State.ite_good | with_reducible apply Out.next_good | rfl

theorem execIinSample_good {code : BitVec 12} {ovr g1 : Bool} {s : State} (h3 : s.Good kl kd) : Out.Good kl kd
    (execIinSample code ovr g1 s) := by
  unfold execIinSample
  repeat' first
    | with_reducible assumption
    | (extract_lets +onlyGivenNames x; refine (fun (_ : State.Good kl kd x) => ?_) ?_; clear_value x; rotate_left; subst x)
    | extract_lets +onlyGivenNames x | with_reducible apply State.wr_good | with_reducible apply State.bump_good
    | with_reducible apply State.raiseCause_good | with_reducible apply State.updPower_good | with_reducible apply State.ite_good
    | with_reducible apply Out.next_good | rfl

theorem State.stepFreeze_good {s : State} {x : Nat} (h0 : s.Good kl kd) : (s.stepFreeze x).Good kl kd := by
  unfold State.stepFreeze
  repeat' first
    | with_reducible assumption | extract_lets +onlyGivenNames x | with_reducible apply State.bump_good
    | with_reducible apply State.wr_good | with_reducible apply State.ite_good

theorem State.stepHold_good {s : State} {x : Nat} (h0 : s.Good kl kd) : (s.stepHold x).Good kl kd := by
  unfold State.stepHold
  repeat' first
    | with_reducible assumption | intro _
    | (extract_lets +onlyGivenNames x; refine (fun (_ : State.Good kl kd x) => ?_) ?_; clear_value x; rotate_left; subst x)
    | extract_lets +onlyGivenNames x | with_reducible apply State.logErr_good | with_reducible apply State.bump_good
    | with_reducible apply State.wr_good | with_reducible apply State.calAbandon_good | with_reducible apply State.ite_good
    | with_reducible apply State.foldl_good

theorem execFastAverage_good {s : State} (h0 : s.Good kl kd) : Out.Good kl kd (execFastAverage s) := by
  unfold execFastAverage
  repeat' first
    | with_reducible assumption
    | (extract_lets +onlyGivenNames x; refine (fun (_ : State.Good kl kd x) => ?_) ?_; clear_value x; rotate_left; subst x)
    | extract_lets +onlyGivenNames x | with_reducible apply State.stepHold_good | with_reducible apply State.stepFreeze_good
    | with_reducible apply State.updPower_good | with_reducible apply State.ite_good | with_reducible apply Out.next_good | rfl

theorem State.pinEdge_good {s : State} (h0 : s.Good kl kd) : (s.pinEdge).Good kl kd := by
  unfold State.pinEdge
  repeat' first
    | with_reducible assumption
    | (extract_lets +onlyGivenNames x; refine (fun (_ : State.Good kl kd x) => ?_) ?_; clear_value x; rotate_left; subst x)
    | extract_lets +onlyGivenNames x | with_reducible apply State.wr_good | with_reducible apply State.updPower_good
    | with_reducible apply State.ite_good | rfl

theorem execIrevTrip_good {s : State} (h0 : s.Good kl kd) : Out.Good kl kd (execIrevTrip s) := by
  unfold execIrevTrip
  repeat' first
    | with_reducible assumption
    | (extract_lets +onlyGivenNames x; refine (fun (_ : State.Good kl kd x) => ?_) ?_; clear_value x; rotate_left; subst x)
    | extract_lets +onlyGivenNames x | with_reducible apply State.bump_good | with_reducible apply State.raiseCause_good
    | with_reducible apply State.updPower_good | with_reducible apply State.ite_good | with_reducible apply Out.next_good | rfl

theorem State.warnCluster_good {s : State} {cl : Nat} (h0 : s.Good kl kd) : (s.warnCluster cl).Good kl kd := by
  unfold State.warnCluster
  repeat' first
    | with_reducible assumption | extract_lets +onlyGivenNames x | with_reducible apply State.msix_good
    | with_reducible apply State.logErr_good | with_reducible apply State.bump_good | with_reducible apply State.wr_good
    | with_reducible apply State.ite_good

theorem State.throttleCluster_good {s : State} {cl : Nat} (h0 : s.Good kl kd) : (s.throttleCluster cl).Good kl kd := by
  unfold State.throttleCluster
  repeat' first
    | with_reducible assumption | extract_lets +onlyGivenNames x | with_reducible apply State.msix_good
    | with_reducible apply State.bump_good | with_reducible apply State.wr_good | with_reducible apply State.ite_good

theorem State.syncTmax_good {s : State} (h0 : s.Good kl kd) : (s.syncTmax).Good kl kd := by
  unfold State.syncTmax
  repeat' first
    | with_reducible assumption | extract_lets +onlyGivenNames x | with_reducible apply State.wr_good

theorem execSensorConvert_good {sensor : BitVec 7} {reading : Option (BitVec 16)} {s : State} (h2 : s.Good kl kd) : Out.Good kl kd
    (execSensorConvert sensor reading s) := by
  unfold execSensorConvert
  repeat' first
    | with_reducible assumption
    | (extract_lets +onlyGivenNames x; refine (fun (_ : State.Good kl kd x) => ?_) ?_; clear_value x; rotate_left; subst x)
    | extract_lets +onlyGivenNames x | with_reducible apply State.syncTmax_good | with_reducible apply State.wr_good
    | with_reducible apply State.throttleCluster_good | with_reducible apply State.warnCluster_good
    | with_reducible apply State.raiseCause_good | with_reducible apply State.updPower_good | with_reducible apply State.ite_good
    | with_reducible apply Out.next_good | rfl

theorem State.sensFail_good {s : State} {i : Nat} (h0 : s.Good kl kd) : (s.sensFail i).Good kl kd := by
  unfold State.sensFail
  repeat' first
    | with_reducible assumption
    | (extract_lets +onlyGivenNames x; refine (fun (_ : State.Good kl kd x) => ?_) ?_; clear_value x; rotate_left; subst x)
    | extract_lets +onlyGivenNames x | with_reducible apply State.wr_good | with_reducible apply State.logErr_good
    | with_reducible apply State.bump_good | with_reducible apply State.raiseCause_good | with_reducible apply State.ite_good

theorem State.sensCheck_good {s s0 : State} {i : Nat} (h0 : s.Good kl kd) : (s.sensCheck s0 i).Good kl kd := by
  unfold State.sensCheck
  repeat' first
    | with_reducible assumption
    | (extract_lets +onlyGivenNames x; refine (fun (_ : State.Good kl kd x) => ?_) ?_; clear_value x; rotate_left; subst x)
    | extract_lets +onlyGivenNames x | with_reducible apply State.sensFail_good | with_reducible apply State.wr_good
    | with_reducible apply State.updPower_good | with_reducible apply State.ite_good | rfl

theorem execSensorCrossCheck_good {s : State} (h0 : s.Good kl kd) : Out.Good kl kd (execSensorCrossCheck s) := by
  unfold execSensorCrossCheck
  repeat' first
    | with_reducible assumption | intro _ | extract_lets +onlyGivenNames x | with_reducible apply State.sensCheck_good
    | with_reducible apply State.ite_good | with_reducible apply State.foldl_good | with_reducible apply Out.next_good

end

end Sys2Proof.Machine
end

