-- ==== Sys2Proof/Laws/SoundPower.lean ====
section
/-! SUPPORT. Soundness, and the stops that hold, are kept by the definitions of TierOps, Hbm, HostIf, Slab, Transfer, Network. -/

set_option linter.tactic.unusedName false

namespace Sys2Proof.Machine

section
variable {kl kd : Bool}

/-! ### TierOps -/

theorem State.updReq_good {s : State} {n : Nat} {f : ReqEntry → ReqEntry} (h0 : s.Good kl kd) : (s.updReq n f).Good kl kd := by
  unfold State.updReq
  repeat' first
    | extract_lets +onlyGivenNames x | with_reducible apply State.mk_good | exact State.Good.mem ‹_› | exact State.Good.regs ‹_›
    | exact State.Good.power ‹_›

theorem State.updTier_good {s : State} {f : TierSt → TierSt} (h0 : s.Good kl kd) : (s.updTier f).Good kl kd := by
  unfold State.updTier
  repeat' first
    | extract_lets +onlyGivenNames x | with_reducible apply State.mk_good | exact State.Good.mem ‹_› | exact State.Good.regs ‹_›
    | exact State.Good.power ‹_›

theorem State.entryRead_good {s : State} {n : Nat} (h0 : s.Good kl kd) : (State.entryRead s n).1.Good kl kd := by
  unfold State.entryRead
  repeat' first
    | with_reducible assumption | intro _
    | (extract_lets +onlyGivenNames x; refine (fun (_ : State.Good kl kd x) => ?_) ?_; clear_value x; rotate_left; subst x)
    | extract_lets +onlyGivenNames x | with_reducible apply State.eccGran_good | with_reducible apply State.foldl_good

theorem State.entryFail_good {s : State} {n : Nat} (h0 : s.Good kl kd) : (s.entryFail n).Good kl kd := by
  unfold State.entryFail
  repeat' first
    | with_reducible assumption | extract_lets +onlyGivenNames x | with_reducible apply State.partFatal_good
    | with_reducible apply State.updTier_good | with_reducible apply State.logErr_good | with_reducible apply State.ite_good | split

theorem State.rewriteEntries_good {s : State} (h0 : s.Good kl kd) : (s.rewriteEntries).Good kl kd := by
  unfold State.rewriteEntries
  repeat' first
    | with_reducible assumption | intro _
    | (extract_lets +onlyGivenNames x; refine (fun (_ : State.Good kl kd x) => ?_) ?_; clear_value x; rotate_left; subst x)
    | extract_lets +onlyGivenNames x | with_reducible apply State.updReq_good | with_reducible apply State.updTier_good
    | with_reducible apply State.updMem_good | with_reducible apply State.foldl_good | with_reducible apply MemSt.mk_wf
    | with_reducible apply Marks.wf_clear | exact MemSt.wf.loft ‹_› | exact MemSt.wf.granary ‹_› | exact MemSt.wf.host ‹_›
    | exact MemSt.wf.flash ‹_› | exact MemSt.wf.loadWin ‹_› | exact MemSt.wf.cfgStage ‹_› | exact MemSt.wf.loftPoison ‹_› | exact MemSt.wf.loftClamp ‹_›
    | exact MemSt.wf.granPoison ‹_› | exact MemSt.wf.loftErr ‹_› | exact MemSt.wf.granErr ‹_›

theorem State.putLinLe_good {s : State} {p b n v : Nat} (h0 : s.Good kl kd) : (s.putLinLe p b n v).Good kl kd := by
  unfold State.putLinLe
  repeat' first
    | with_reducible assumption | with_reducible apply State.putGranBytes_good | split

theorem State.putMapEnt_good {s : State} {p n l : Nat} {e : MapEnt} (h0 : s.Good kl kd) : (s.putMapEnt p n l e).Good kl kd := by
  unfold State.putMapEnt
  repeat' first
    | with_reducible assumption | with_reducible apply State.putLinLe_good

theorem State.syncTier_good {s : State} {p : Nat} (h0 : s.Good kl kd) : (s.syncTier p).Good kl kd := by
  unfold State.syncTier
  repeat' first
    | with_reducible assumption | extract_lets +onlyGivenNames x | with_reducible apply State.wr_good

theorem State.allocPage_good {s : State} {p : Nat} (h0 : s.Good kl kd) : (State.allocPage s p).1.Good kl kd := by
  unfold State.allocPage
  repeat' first
    | with_reducible assumption | extract_lets +onlyGivenNames x | with_reducible apply State.syncTier_good
    | with_reducible apply State.updTier_good | split

theorem State.freePage_good {s : State} {g : Nat} (h0 : s.Good kl kd) : (s.freePage g).Good kl kd := by
  unfold State.freePage
  repeat' first
    | with_reducible assumption | extract_lets +onlyGivenNames x | with_reducible apply State.updTier_good
    | with_reducible apply State.zeroGrans_good

theorem State.freeGranary_good {s : State} {p n : Nat} (h0 : s.Good kl kd) : (s.freeGranary p n).Good kl kd := by
  unfold State.freeGranary
  repeat' first
    | with_reducible assumption | intro _
    | (extract_lets +onlyGivenNames x; refine (fun (_ : State.Good kl kd x) => ?_) ?_; clear_value x; rotate_left; subst x)
    | extract_lets +onlyGivenNames x | with_reducible apply State.putMapEnt_good | with_reducible apply State.freePage_good
    | with_reducible apply State.syncTier_good | with_reducible apply State.updReq_good | with_reducible apply State.foldl_good

theorem State.freeSiloPages_good {s : State} {p n : Nat} (h0 : s.Good kl kd) : (s.freeSiloPages p n).Good kl kd := by
  unfold State.freeSiloPages
  repeat' first
    | with_reducible assumption | intro _
    | (extract_lets +onlyGivenNames x; refine (fun (_ : State.Good kl kd x) => ?_) ?_; clear_value x; rotate_left; subst x)
    | extract_lets +onlyGivenNames x | with_reducible apply State.putMapEnt_good | with_reducible apply State.updTier_good
    | with_reducible apply State.syncTier_good | with_reducible apply State.updReq_good | with_reducible apply State.ite_good
    | with_reducible apply State.foldl_good

theorem State.dropMove_good {s : State} {p n : Nat} (h0 : s.Good kl kd) : (s.dropMove p n).Good kl kd := by
  unfold State.dropMove
  repeat' first
    | with_reducible assumption | intro _
    | (extract_lets +onlyGivenNames x; refine (fun (_ : State.Good kl kd x) => ?_) ?_; clear_value x; rotate_left; subst x)
    | extract_lets +onlyGivenNames x | with_reducible apply State.updTier_good | with_reducible apply State.putMapEnt_good
    | with_reducible apply State.freePage_good | with_reducible apply State.syncTier_good | with_reducible apply State.ite_good
    | with_reducible apply State.foldl_good | split

theorem State.tierEvent_good {s : State} {p n event pages : Nat} (h0 : s.Good kl kd) : (s.tierEvent p n event pages).Good kl kd := by
  unfold State.tierEvent
  repeat' first
    | with_reducible assumption | extract_lets +onlyGivenNames x | with_reducible apply State.updPart_good

theorem State.setTier_good {s : State} {n st : Nat} (h0 : s.Good kl kd) : (s.setTier n st).Good kl kd := by
  unfold State.setTier
  repeat' first
    | with_reducible assumption | with_reducible apply State.updReq_good

theorem State.setIdle_good {s : State} {p : Nat} {n : Nat} (h0 : s.Good kl kd) : (State.setIdle s p n).Good kl kd := by
  unfold State.setIdle
  repeat' first
    | with_reducible assumption | intro _
    | (extract_lets +onlyGivenNames x; refine (fun (_ : State.Good kl kd x) => ?_) ?_; clear_value x; rotate_left; subst x)
    | extract_lets +onlyGivenNames x | with_reducible apply State.updTier_good | with_reducible apply State.ite_good | split

theorem State.resetIdle_good {s : State} (h0 : s.Good kl kd) : (State.resetIdle s).Good kl kd := by
  unfold State.resetIdle
  repeat' first
    | with_reducible assumption | intro _
    | (extract_lets +onlyGivenNames x; refine (fun (_ : State.Good kl kd x) => ?_) ?_; clear_value x; rotate_left; subst x)
    | (extract_lets +onlyGivenNames x; refine (fun (_ : State.Good kl kd x.1) => ?_) ?_; clear_value x; rotate_left; subst x)
    | extract_lets +onlyGivenNames x | with_reducible apply State.setIdle_good | with_reducible apply State.ite_good
    | with_reducible apply State.foldl_good | with_reducible apply State.foldl_fst_good | split

theorem State.failReq_good {s : State} {p n : Nat} (h0 : s.Good kl kd) : (s.failReq p n).Good kl kd := by
  unfold State.failReq
  repeat' first
    | with_reducible assumption
    | (extract_lets +onlyGivenNames x; refine (fun (_ : State.Good kl kd x) => ?_) ?_; clear_value x; rotate_left; subst x)
    | extract_lets +onlyGivenNames x | with_reducible apply State.dropMove_good | with_reducible apply State.freeSiloPages_good
    | with_reducible apply State.freeGranary_good | with_reducible apply State.setTier_good | with_reducible apply State.updReq_good

theorem State.headGran_good {s : State} {n : Nat} {o : Nat} (h0 : s.Good kl kd) : (State.headGran s n o).1.Good kl kd := by
  unfold State.headGran
  repeat' first
    | with_reducible assumption | intro _
    | (extract_lets +onlyGivenNames x; refine (fun (_ : State.Good kl kd x) => ?_) ?_; clear_value x; rotate_left; subst x)
    | extract_lets +onlyGivenNames x | with_reducible apply State.readGran_good | with_reducible apply State.ite_good | split

theorem State.checkReq_good {s : State} {n : Nat} (h0 : s.Good kl kd) : (State.checkReq s n).1.Good kl kd := by
  unfold State.checkReq
  repeat' first
    | with_reducible assumption | intro _
    | (extract_lets +onlyGivenNames x; refine (fun (_ : State.Good kl kd x) => ?_) ?_; clear_value x; rotate_left; subst x)
    | (extract_lets +onlyGivenNames x; refine (fun (_ : State.Good kl kd x.1) => ?_) ?_; clear_value x; rotate_left; subst x)
    | extract_lets +onlyGivenNames x | with_reducible apply State.entryRead_good | with_reducible apply State.entryFail_good
    | with_reducible apply State.ite_good | split

theorem State.reclaimPages_good {s : State} {p : Nat} (h0 : s.Good kl kd) : (State.reclaimPages s p).Good kl kd := by
  unfold State.reclaimPages
  repeat' first
    | with_reducible assumption | intro _
    | (extract_lets +onlyGivenNames x; refine (fun (_ : State.Good kl kd x) => ?_) ?_; clear_value x; rotate_left; subst x)
    | (extract_lets +onlyGivenNames x; refine (fun (_ : State.Good kl kd x.1) => ?_) ?_; clear_value x; rotate_left; subst x)
    | extract_lets +onlyGivenNames x | with_reducible apply State.updTier_good | with_reducible apply State.ite_good | split

theorem State.reclaimSilo_good {s : State} {p : Nat} (h0 : s.Good kl kd) : (State.reclaimSilo s p).Good kl kd := by
  unfold State.reclaimSilo
  repeat' first
    | with_reducible assumption | intro _
    | (extract_lets +onlyGivenNames x; refine (fun (_ : State.Good kl kd x) => ?_) ?_; clear_value x; rotate_left; subst x)
    | (extract_lets +onlyGivenNames x; refine (fun (_ : State.Good kl kd x.1) => ?_) ?_; clear_value x; rotate_left; subst x)
    | extract_lets +onlyGivenNames x | with_reducible apply State.updTier_good | with_reducible apply State.ite_good | split

/-! ### Hbm -/

theorem execHbmScrub_good {stack : BitVec 5} {found : List (BitVec 36 × Bool)} {odecc : BitVec 16} {s : State} (h3 : s.Good kl kd)
    : Out.Good kl kd (execHbmScrub stack found odecc s) := by
  unfold execHbmScrub
  refine Out.next_good (State.ite_good ?_ h3)
  have h1 : (found.foldl (fun s x => if stackOf x.1.toNat = stack.toNat ∧ x.1.toNat < granCount then
      s.updMem (fun m => { m with granErr := Tbl.set 0 m.granErr x.1.toNat (if x.2 then 2 else 1) }) else s) s).Good kl kd :=
    State.foldl_good h3 fun t x ht => State.ite_good (State.updMem_good ht fun hm =>
      ⟨hm.loft, hm.granary, hm.host, hm.flash, hm.loadWin, hm.cfgStage, hm.loftPoison, hm.loftClamp, hm.granPoison, hm.loftErr, Tbl.wf_set hm.granErr _ _⟩) ht
  generalize found.foldl _ s = t at h1
  have h2 : (if odecc.toNat = 0 then t else t.bump R.hbm_ODECC odecc.toNat stack.toNat).Good kl kd := State.ite_good h1 (State.bump_good h1)
  exact State.updMem_good (State.readGran_good h2) fun hm =>
    ⟨hm.loft, hm.granary, hm.host, hm.flash, hm.loadWin, hm.cfgStage, hm.loftPoison, hm.loftClamp, hm.granPoison, hm.loftErr, hm.granErr⟩

theorem execHbmRefresh_good {stack : BitVec 5} {s : State} (h1 : s.Good kl kd) : Out.Good kl kd (execHbmRefresh stack s) := by
  unfold execHbmRefresh
  repeat' first
    | with_reducible assumption | extract_lets +onlyGivenNames x | with_reducible apply State.wr_good
    | with_reducible apply State.ite_good | with_reducible apply Out.next_good

theorem State.hbmReading_good {s : State} {n : Nat} {t : Int} (h0 : s.Good kl kd) : (s.hbmReading n t).Good kl kd := by
  unfold State.hbmReading
  repeat' first
    | with_reducible assumption
    | (extract_lets +onlyGivenNames x; refine (fun (_ : State.Good kl kd x) => ?_) ?_; clear_value x; rotate_left; subst x)
    | extract_lets +onlyGivenNames x | with_reducible apply State.wr_good | with_reducible apply State.logErr_good
    | with_reducible apply State.raiseCause_good | with_reducible apply State.ite_good

theorem execHbmTempRead_good {stack : BitVec 5} {reading : Option (BitVec 16)} {s : State} (h2 : s.Good kl kd) : Out.Good kl kd
    (execHbmTempRead stack reading s) := by
  unfold execHbmTempRead
  repeat' first
    | with_reducible assumption | intro _
    | (extract_lets +onlyGivenNames x; refine (fun (_ : State.Good kl kd x) => ?_) ?_; clear_value x; rotate_left; subst x)
    | extract_lets +onlyGivenNames x | with_reducible apply State.bump_good | with_reducible apply State.hbmReading_good
    | with_reducible apply State.updMem_good | with_reducible apply State.ite_good | with_reducible apply Out.next_good
    | with_reducible apply MemSt.mk_wf | exact MemSt.wf.loft ‹_› | exact MemSt.wf.granary ‹_› | exact MemSt.wf.host ‹_›
    | exact MemSt.wf.flash ‹_› | exact MemSt.wf.loadWin ‹_› | exact MemSt.wf.cfgStage ‹_› | exact MemSt.wf.loftPoison ‹_› | exact MemSt.wf.loftClamp ‹_›
    | exact MemSt.wf.granPoison ‹_› | exact MemSt.wf.loftErr ‹_› | exact MemSt.wf.granErr ‹_› | split

theorem execHbmInterfaceFail_good {stack : BitVec 5} {s : State} (h1 : s.Good kl kd) : Out.Good kl kd
    (execHbmInterfaceFail stack s) := by
  unfold execHbmInterfaceFail
  repeat' first
    | with_reducible assumption | extract_lets +onlyGivenNames x | with_reducible apply State.devFatal_good
    | with_reducible apply State.ite_good | with_reducible apply Out.next_good

theorem State.hostGran_good {s : State} {d : Nat} (h0 : s.Good kl kd) : (State.hostGran s d).1.Good kl kd := by
  unfold State.hostGran
  repeat' first
    | with_reducible assumption
    | (extract_lets +onlyGivenNames x; refine (fun (_ : State.Good kl kd x.1) => ?_) ?_; clear_value x; rotate_left; subst x)
    | extract_lets +onlyGivenNames x | with_reducible apply State.readGran_good | split

theorem State.unsupported_good {s : State} (h0 : s.Good kl kd) : (s.unsupported).Good kl kd := by
  unfold State.unsupported
  repeat' first
    | extract_lets +onlyGivenNames x | with_reducible apply State.mk_good | exact State.Good.mem ‹_› | exact State.Good.regs ‹_›
    | exact State.Good.power ‹_›

theorem execBar2Read_good {addr : BitVec 36} {len : BitVec 13} {s : State} (h2 : s.Good kl kd) : Out.Good kl kd
    (execBar2Read addr len s) := by
  unfold execBar2Read
  repeat' first
    | with_reducible assumption | intro _
    | (extract_lets +onlyGivenNames x; refine (fun (_ : State.Good kl kd x) => ?_) ?_; clear_value x; rotate_left; subst x)
    | (extract_lets +onlyGivenNames x; refine (fun (_ : State.Good kl kd x.1) => ?_) ?_; clear_value x; rotate_left; subst x)
    | extract_lets +onlyGivenNames x | with_reducible apply State.unsupported_good | with_reducible apply State.hae_good
    | with_reducible apply State.hostGran_good | with_reducible apply State.ite_good | with_reducible apply State.foldl_fst_good
    | with_reducible apply Out.next_good | with_reducible apply State.mk_good | exact State.Good.mem ‹_› | exact State.Good.regs ‹_›
    | exact State.Good.power ‹_›

theorem State.bar2Gran_good {s : State} {d : Nat} {o : Nat} {bs : List Byte} {bad : Bool} (h0 : s.Good kl kd) :
    (State.bar2Gran s d o bs bad).Good kl kd := by
  unfold State.bar2Gran
  repeat' first
    | with_reducible assumption | intro _
    | (extract_lets +onlyGivenNames x; refine (fun (_ : State.Good kl kd x) => ?_) ?_; clear_value x; rotate_left; subst x)
    | (extract_lets +onlyGivenNames x; refine (fun (_ : State.Good kl kd x.1) => ?_) ?_; clear_value x; rotate_left; subst x)
    | extract_lets +onlyGivenNames x | with_reducible apply State.bump_good | with_reducible apply State.readGran_good
    | with_reducible apply State.writeGran_good | with_reducible apply State.ite_good | split

theorem execBar2Write_good {addr : BitVec 36} {data : List Byte} {poisoned : Bool} {s : State} (h3 : s.Good kl kd) : Out.Good kl kd
    (execBar2Write addr data poisoned s) := by
  unfold execBar2Write
  repeat' first
    | with_reducible assumption | intro _ | extract_lets +onlyGivenNames x | with_reducible apply State.hae_good
    | with_reducible apply State.bar2Gran_good | with_reducible apply State.ite_good | with_reducible apply State.foldl_good
    | with_reducible apply Out.next_good

theorem State.mapWrite_good {s : State} {k v : Nat} (h0 : s.Good kl kd) : (s.mapWrite k v).Good kl kd := by
  unfold State.mapWrite
  repeat' first
    | with_reducible assumption | extract_lets +onlyGivenNames x | with_reducible apply State.wr_good
    | with_reducible apply State.hae_good | with_reducible apply State.ite_good

theorem execBar2MapWrite_good {seg : BitVec 5} {value : Word} {s : State} (h2 : s.Good kl kd) : Out.Good kl kd
    (execBar2MapWrite seg value s) := by
  unfold execBar2MapWrite
  repeat' first
    | with_reducible assumption | extract_lets +onlyGivenNames x | with_reducible apply State.mapWrite_good
    | with_reducible apply State.ite_good | with_reducible apply Out.next_good

theorem State.closeSegments_good {s : State} (h0 : s.Good kl kd) : (s.closeSegments).Good kl kd := by
  unfold State.closeSegments
  repeat' first
    | with_reducible assumption | intro _ | extract_lets +onlyGivenNames x | with_reducible apply State.wr_good
    | with_reducible apply State.foldl_good

theorem execBar2Resize_good {n : BitVec 6} {decode : Bool} {s : State} (h2 : s.Good kl kd) : Out.Good kl kd
    (execBar2Resize n decode s) :=
    by
  unfold execBar2Resize
  repeat' first
    | with_reducible assumption | extract_lets +onlyGivenNames x | with_reducible apply State.closeSegments_good
    | with_reducible apply State.wr_good | with_reducible apply State.ite_good | with_reducible apply Out.next_good

/-! ### HostIf -/

theorem State.updHost_good {s : State} {f : HostSt → HostSt} (h0 : s.Good kl kd) : (s.updHost f).Good kl kd := by
  unfold State.updHost
  repeat' first
    | extract_lets +onlyGivenNames x | with_reducible apply State.mk_good | exact State.Good.mem ‹_› | exact State.Good.regs ‹_›
    | exact State.Good.power ‹_›

theorem State.syncHeldWrites_good {s : State} (h0 : s.Good kl kd) : (s.syncHeldWrites).Good kl kd := by
  unfold State.syncHeldWrites
  repeat' first
    | with_reducible assumption | with_reducible apply State.wr_good

theorem State.drainHeld_good {s : State} (h0 : s.Good kl kd) : (s.drainHeld).Good kl kd := by
  unfold State.drainHeld
  repeat' first
    | with_reducible assumption | intro _ | extract_lets +onlyGivenNames x | with_reducible apply State.syncHeldWrites_good
    | with_reducible apply State.deliver_good | with_reducible apply State.updHost_good | with_reducible apply State.foldl_good

theorem State.linkDown_good {s : State} (h0 : s.Good kl kd) : (s.linkDown).Good kl kd := by
  unfold State.linkDown
  repeat' first
    | with_reducible assumption | extract_lets +onlyGivenNames x | with_reducible apply State.updHost_good
    | with_reducible apply State.bump_good | with_reducible apply State.wr_good

theorem execHostLinkDown_good {s : State} (h0 : s.Good kl kd) : Out.Good kl kd (execHostLinkDown s) := by
  unfold execHostLinkDown
  repeat' first
    | with_reducible assumption | extract_lets +onlyGivenNames x | with_reducible apply State.linkDown_good
    | with_reducible apply State.ite_good | with_reducible apply Out.next_good

theorem execHostLinkUp_good {gen : BitVec 3} {width : BitVec 5} {flit : Bool} {s : State} (h3 : s.Good kl kd) : Out.Good kl kd
    (execHostLinkUp gen width flit s) := by
  unfold execHostLinkUp
  repeat' first
    | with_reducible assumption | extract_lets +onlyGivenNames x | with_reducible apply State.drainHeld_good
    | with_reducible apply State.updHost_good | with_reducible apply State.wr_good | with_reducible apply State.ite_good
    | with_reducible apply Out.next_good

theorem execIdeFail_good {stream : Option (BitVec 7)} {s : State} (h1 : s.Good kl kd) : Out.Good kl kd (execIdeFail stream s) := by
  unfold execIdeFail
  repeat' first
    | with_reducible assumption | extract_lets +onlyGivenNames x | with_reducible apply State.updHost_good
    | with_reducible apply State.bump_good | with_reducible apply State.wr_good | with_reducible apply State.ite_good
    | with_reducible apply Out.next_good | split

theorem State.unmask_good {s : State} {fn v : Nat} (h0 : s.Good kl kd) : (s.unmask fn v).Good kl kd := by
  unfold State.unmask
  repeat' first
    | with_reducible assumption
    | (extract_lets +onlyGivenNames x; refine (fun (_ : State.Good kl kd x) => ?_) ?_; clear_value x; rotate_left; subst x)
    | extract_lets +onlyGivenNames x | with_reducible apply State.updHost_good | with_reducible apply State.sendHost_good
    | with_reducible apply State.ite_good

theorem State.mask_good {s : State} {fn v : Nat} (h0 : s.Good kl kd) : (s.mask fn v).Good kl kd := by
  unfold State.mask
  repeat' first
    | with_reducible assumption | with_reducible apply State.updHost_good

theorem execMsixUnmask_good {fn : BitVec 7} {v : BitVec 5} {s : State} (h2 : s.Good kl kd) : Out.Good kl kd
    (execMsixUnmask fn v s) := by
  unfold execMsixUnmask
  repeat' first
    | with_reducible assumption | extract_lets +onlyGivenNames x | with_reducible apply State.unmask_good
    | with_reducible apply State.ite_good | with_reducible apply Out.next_good

theorem State.syncCopies_good {s : State} {p : Nat} (h0 : s.Good kl kd) : (s.syncCopies p).Good kl kd := by
  unfold State.syncCopies
  repeat' first
    | with_reducible assumption | with_reducible apply State.wr_good

theorem State.copyGo_good {s : State} {fn p off : Nat} (h0 : s.Good kl kd) : (s.copyGo fn p off).Good kl kd := by
  unfold State.copyGo
  repeat' first
    | with_reducible assumption | extract_lets +onlyGivenNames x | with_reducible apply State.hae_good
    | with_reducible apply State.syncCopies_good | with_reducible apply State.updPart_good | with_reducible apply State.ite_good

theorem execHcGo_good {fn : BitVec 7} {p : BitVec 6} {s : State} (h2 : s.Good kl kd) : Out.Good kl kd (execHcGo fn p s) := by
  unfold execHcGo
  repeat' first
    | with_reducible assumption | extract_lets +onlyGivenNames x | with_reducible apply State.copyGo_good
    | with_reducible apply State.ite_good | with_reducible apply Out.next_good

theorem State.copyGran_good {s : State} {p : Nat} {k : HostCopy} {i : Nat} (h0 : s.Good kl kd) :
    (State.copyGran s p k i).1.Good kl kd :=
    by
  unfold State.copyGran
  repeat' first
    | with_reducible assumption | intro _
    | (extract_lets +onlyGivenNames x; refine (fun (_ : State.Good kl kd x.1) => ?_) ?_; clear_value x; rotate_left; subst x)
    | extract_lets +onlyGivenNames x | with_reducible apply State.readGran_good | with_reducible apply State.writeGran_good
    | with_reducible apply State.updMem_good | with_reducible apply State.ite_good | with_reducible apply MemSt.mk_wf
    | with_reducible apply Mem.wf_write | with_reducible apply Mem.wf_zero | exact MemSt.wf.loft ‹_› | exact MemSt.wf.granary ‹_›
    | exact MemSt.wf.host ‹_› | exact MemSt.wf.flash ‹_› | exact MemSt.wf.loadWin ‹_› | exact MemSt.wf.cfgStage ‹_›
    | exact MemSt.wf.loftPoison ‹_› | exact MemSt.wf.loftClamp ‹_› | exact MemSt.wf.granPoison ‹_› | exact MemSt.wf.loftErr ‹_› | exact MemSt.wf.granErr ‹_› | split

theorem execHostCopyDone_good {p : BitVec 6} {s : State} (h1 : s.Good kl kd) : Out.Good kl kd (execHostCopyDone p s) := by
  unfold execHostCopyDone
  repeat' first
    | with_reducible assumption | intro _
    | (extract_lets +onlyGivenNames x; refine (fun (_ : State.Good kl kd x) => ?_) ?_; clear_value x; rotate_left; subst x)
    | (extract_lets +onlyGivenNames x; refine (fun (_ : State.Good kl kd x.1) => ?_) ?_; clear_value x; rotate_left; subst x)
    | extract_lets +onlyGivenNames x | with_reducible apply State.copyGran_good | with_reducible apply State.hae_good
    | with_reducible apply State.syncCopies_good | with_reducible apply State.updPart_good | with_reducible apply State.msix_good
    | with_reducible apply State.wr_good | with_reducible apply State.ite_good | with_reducible apply State.foldl_fst_good
    | with_reducible apply Out.next_good | split

theorem State.setSqEn_good {s : State} {p r : Nat} {en : Bool} (h0 : s.Good kl kd) : (s.setSqEn p r en).Good kl kd := by
  unfold State.setSqEn
  repeat' first
    | with_reducible assumption
    | (extract_lets +onlyGivenNames x; refine (fun (_ : State.Good kl kd x) => ?_) ?_; clear_value x; rotate_left; subst x)
    | extract_lets +onlyGivenNames x | with_reducible apply State.wr_good | with_reducible apply State.updPart_good
    | with_reducible apply State.ite_good

theorem execSqEn_good {fn : BitVec 7} {p : BitVec 6} {ring : BitVec 2} {en : Bool} {s : State} (h4 : s.Good kl kd) : Out.Good kl kd
    (execSqEn fn p ring en s) := by
  unfold execSqEn
  repeat' first
    | with_reducible assumption | extract_lets +onlyGivenNames x | with_reducible apply State.setSqEn_good
    | with_reducible apply State.ite_good | with_reducible apply Out.next_good

theorem State.flr_good {s : State} {p : Nat} (h0 : s.Good kl kd) : (s.flr p).Good kl kd := by
  unfold State.flr
  repeat' first
    | with_reducible assumption | intro _
    | (extract_lets +onlyGivenNames x; refine (fun (_ : State.Good kl kd x) => ?_) ?_; clear_value x; rotate_left; subst x)
    | extract_lets +onlyGivenNames x | with_reducible apply State.endCheck_good | with_reducible apply State.requestReset_good
    | with_reducible apply State.clr_good | with_reducible apply State.syncCopies_good | with_reducible apply State.updPart_good
    | with_reducible apply State.syncHeldWrites_good | with_reducible apply State.updHost_good | with_reducible apply State.ite_good
    | with_reducible apply State.foldl_good

theorem execFlr_good {vf : BitVec 7} {s : State} (h1 : s.Good kl kd) : Out.Good kl kd (execFlr vf s) := by
  unfold execFlr
  repeat' first
    | with_reducible assumption | extract_lets +onlyGivenNames x | with_reducible apply State.flr_good
    | with_reducible apply State.ite_good | with_reducible apply Out.next_good

theorem execBar0BadAccess_good {fn : BitVec 7} {write : Bool} {width : BitVec 7} {off : BitVec 26} {data : BitVec 64} {s : State} (h5
    : s.Good kl kd) : Out.Good kl kd (execBar0BadAccess fn write width off data s) := by
  unfold execBar0BadAccess
  repeat' first
    | with_reducible assumption
    | (extract_lets +onlyGivenNames x; refine (fun (_ : State.Good kl kd x) => ?_) ?_; clear_value x; rotate_left; subst x)
    | extract_lets +onlyGivenNames x | with_reducible apply State.unsupported_good | with_reducible apply State.hae_good
    | with_reducible apply State.updHost_good | with_reducible apply State.ite_good | with_reducible apply Out.next_good

/-! ### Slab -/

theorem State.writeSlab_good {s : State} {c g : Nat} {gs : List PsGroup} (h0 : s.Good kl kd) : (s.writeSlab c g gs).Good kl kd := by
  unfold State.writeSlab
  repeat' first
    | with_reducible assumption | intro _ | extract_lets +onlyGivenNames x | with_reducible apply State.putGran_good
    | with_reducible apply State.ite_good | with_reducible apply State.foldl_good

theorem State.spoilSlab_good {s : State} {c g n : Nat} {keep : Bool} (h0 : s.Good kl kd) : (s.spoilSlab c g n keep).Good kl kd := by
  unfold State.spoilSlab
  repeat' first
    | with_reducible assumption | intro _ | extract_lets +onlyGivenNames x | with_reducible apply State.poisonLoft_good
    | with_reducible apply State.putGran_good | with_reducible apply State.ite_good | with_reducible apply State.foldl_good

theorem State.consumePoison_good {s : State} {c req src code addr : Nat} (h0 : s.Good kl kd) :
    (s.consumePoison c req src code addr).Good kl kd := by
  unfold State.consumePoison
  repeat' first
    | with_reducible assumption | with_reducible apply State.updPart_good | split

theorem State.serve_good {s : State} {c req : Nat} (h0 : s.Good kl kd) : (s.serve c req).Good kl kd := by
  unfold State.serve
  repeat' first
    | with_reducible assumption | with_reducible apply State.updPart_good | split

theorem State.useClass_good {s : State} {c req cls : Nat} (h0 : s.Good kl kd) : (s.useClass c req cls).Good kl kd := by
  unfold State.useClass
  repeat' first
    | with_reducible assumption
    | (extract_lets +onlyGivenNames x; refine (fun (_ : State.Good kl kd x) => ?_) ?_; clear_value x; rotate_left; subst x)
    | extract_lets +onlyGivenNames x | with_reducible apply State.eccGran_good | with_reducible apply State.consumePoison_good
    | with_reducible apply State.updCore_good | with_reducible apply State.ite_good

theorem State.clipEvent_good {s : State} {c : Nat} (h0 : s.Good kl kd) : (s.clipEvent c).Good kl kd := by
  unfold State.clipEvent
  repeat' first
    | with_reducible assumption
    | (extract_lets +onlyGivenNames x; refine (fun (_ : State.Good kl kd x) => ?_) ?_; clear_value x; rotate_left; subst x)
    | extract_lets +onlyGivenNames x | with_reducible apply State.bump_good | with_reducible apply State.updPart_good | split

theorem State.markClipped_good {s : State} {c req : Nat} (h0 : s.Good kl kd) : (s.markClipped c req).Good kl kd := by
  unfold State.markClipped
  repeat' first
    | with_reducible assumption
    | (extract_lets +onlyGivenNames x; refine (fun (_ : State.Good kl kd x) => ?_) ?_; clear_value x; rotate_left; subst x)
    | with_reducible apply State.updPart_good | with_reducible apply State.trailEv_good | split

/-! ### Transfer -/

theorem State.xferErrs_good {s : State} {c : Nat} {x : XErr} (h0 : s.Good kl kd) : (s.xferErrs c x).Good kl kd := by
  unfold State.xferErrs
  repeat' first
    | with_reducible assumption
    | (extract_lets +onlyGivenNames x; refine (fun (_ : State.Good kl kd x) => ?_) ?_; clear_value x; rotate_left; subst x)
    | extract_lets +onlyGivenNames x | with_reducible apply State.logCore_good | with_reducible apply State.bump_good
    | with_reducible apply State.coreErr_good | with_reducible apply State.ite_good

theorem State.readMap_good {s : State} {c : Nat} {p : Nat} {n : Nat} {l : Nat} (h0 : s.Good kl kd) :
    (State.readMap s c p n l).1.Good kl kd := by
  unfold State.readMap
  repeat' first
    | with_reducible assumption | intro _
    | (extract_lets +onlyGivenNames x; refine (fun (_ : State.Good kl kd x) => ?_) ?_; clear_value x; rotate_left; subst x)
    | (extract_lets +onlyGivenNames x; refine (fun (_ : State.Good kl kd x.1) => ?_) ?_; clear_value x; rotate_left; subst x)
    | extract_lets +onlyGivenNames x | with_reducible apply State.readGran_good | with_reducible apply State.memRead_good
    | with_reducible apply State.ite_good | split

theorem State.viewFetch_good {s : State} {c : Nat} {p : Nat} {v : Nat} {x : XErr} (h0 : s.Good kl kd) :
    (State.viewFetch s c p v x).1.Good kl kd := by
  unfold State.viewFetch
  repeat' first
    | with_reducible assumption | intro _
    | (extract_lets +onlyGivenNames x; refine (fun (_ : State.Good kl kd x) => ?_) ?_; clear_value x; rotate_left; subst x)
    | (extract_lets +onlyGivenNames x; refine (fun (_ : State.Good kl kd x.1) => ?_) ?_; clear_value x; rotate_left; subst x)
    | extract_lets +onlyGivenNames x | with_reducible apply State.bump_good | with_reducible apply State.readGran_good
    | with_reducible apply State.memRead_good | with_reducible apply State.headGran_good | with_reducible apply State.checkReq_good
    | with_reducible apply State.readMap_good | with_reducible apply State.ite_good | split

theorem State.viewStore_good {s : State} {c : Nat} {p : Nat} {v : Nat} {bs : List Byte} {bad : Bool} {x : XErr} (h0 : s.Good kl kd) :
    (State.viewStore s c p v bs bad x).1.Good kl kd := by
  unfold State.viewStore
  repeat' first
    | with_reducible assumption | intro _
    | (extract_lets +onlyGivenNames x; refine (fun (_ : State.Good kl kd x) => ?_) ?_; clear_value x; rotate_left; subst x)
    | (extract_lets +onlyGivenNames x; refine (fun (_ : State.Good kl kd x.1) => ?_) ?_; clear_value x; rotate_left; subst x)
    | extract_lets +onlyGivenNames x | with_reducible apply State.bump_good | with_reducible apply State.writeGran_good
    | with_reducible apply State.memWrite_good | with_reducible apply State.updReq_good | with_reducible apply State.updTier_good
    | with_reducible apply State.putMapEnt_good | with_reducible apply State.allocPage_good | with_reducible apply State.checkReq_good
    | with_reducible apply State.readMap_good | with_reducible apply State.ite_good | split

theorem State.fetchGran_good {s : State} {c : Nat} {p : Nat} {cmd : Cmd} {noted : List Nat} {x : XErr} {r : Nat} {i : Nat} (h0 : s.Good kl kd) :
    (State.fetchGran s c p cmd noted x r i).1.Good kl kd := by
  unfold State.fetchGran
  repeat' first
    | with_reducible assumption | intro _
    | (extract_lets +onlyGivenNames x; refine (fun (_ : State.Good kl kd x) => ?_) ?_; clear_value x; rotate_left; subst x)
    | (extract_lets +onlyGivenNames x; refine (fun (_ : State.Good kl kd x.1) => ?_) ?_; clear_value x; rotate_left; subst x)
    | extract_lets +onlyGivenNames x | with_reducible apply State.putGran_good | with_reducible apply State.readGran_good
    | with_reducible apply State.memRead_good | with_reducible apply State.viewFetch_good | with_reducible apply State.ite_good
    | split

theorem State.landFetch_good {s : State} {c : Nat} {p : Nat} {cmd : Cmd} {noted : List Nat} (h0 : s.Good kl kd) :
    (State.landFetch s c p cmd noted).Good kl kd := by
  unfold State.landFetch
  repeat' first
    | with_reducible assumption | intro _
    | (extract_lets +onlyGivenNames x; refine (fun (_ : State.Good kl kd x) => ?_) ?_; clear_value x; rotate_left; subst x)
    | (extract_lets +onlyGivenNames x; refine (fun (_ : State.Good kl kd x.1) => ?_) ?_; clear_value x; rotate_left; subst x)
    | extract_lets +onlyGivenNames x | with_reducible apply State.xferErrs_good | with_reducible apply State.fetchGran_good
    | with_reducible apply State.ite_good | with_reducible apply State.foldl_good | with_reducible apply State.foldl_fst_good | split

theorem State.storeGran_good {s : State} {c : Nat} {p : Nat} {cmd : Cmd} {x : XErr} {r : Nat} {i : Nat} {bs : List Byte} {bad : Bool} (h0 : s.Good kl kd) :
    (State.storeGran s c p cmd x r i bs bad).1.Good kl kd := by
  unfold State.storeGran
  repeat' first
    | with_reducible assumption | intro _
    | (extract_lets +onlyGivenNames x; refine (fun (_ : State.Good kl kd x) => ?_) ?_; clear_value x; rotate_left; subst x)
    | extract_lets +onlyGivenNames x | with_reducible apply State.writeGran_good | with_reducible apply State.memWrite_good
    | with_reducible apply State.viewStore_good | with_reducible apply State.ite_good | split

theorem State.landStore_good {s : State} {c p : Nat} {cmd : Cmd} {data : List (List Byte × Bool)} (h0 : s.Good kl kd) :
    (s.landStore c p cmd data).Good kl kd := by
  unfold State.landStore
  repeat' first
    | with_reducible assumption | intro _
    | (extract_lets +onlyGivenNames x; refine (fun (_ : State.Good kl kd x.1) => ?_) ?_; clear_value x; rotate_left; subst x)
    | extract_lets +onlyGivenNames x | with_reducible apply State.storeGran_good | with_reducible apply State.xferErrs_good
    | with_reducible apply State.foldl_fst_good

theorem State.readStore_good {s : State} {c : Nat} {cmd : Cmd} (h0 : s.Good kl kd) : (State.readStore s c cmd).1.Good kl kd := by
  unfold State.readStore
  repeat' first
    | with_reducible assumption | intro _
    | (extract_lets +onlyGivenNames x; refine (fun (_ : State.Good kl kd x) => ?_) ?_; clear_value x; rotate_left; subst x)
    | extract_lets +onlyGivenNames x | with_reducible apply State.eccLoftN_good | with_reducible apply State.foldl_good

theorem State.syncFq_good {s : State} {c q : Nat} (h0 : s.Good kl kd) : (s.syncFq c q).Good kl kd := by
  unfold State.syncFq
  repeat' first
    | with_reducible assumption | with_reducible apply State.wr_good

theorem State.takeTurns_good {s : State} {c j a : Nat} (h0 : s.Good kl kd) : (s.takeTurns c j a).Good kl kd := by
  induction a generalizing s with
  | zero => exact h0
  | succ n ih =>
    unfold State.takeTurns
    split
    · exact h0
    · split
      · exact h0
      · exact ih (State.updCore_good h0)

theorem State.tookHead_good {s : State} {c : Nat} {j : Nat} (h0 : s.Good kl kd) : (State.tookHead s c j).Good kl kd := by
  unfold State.tookHead
  repeat' first
    | with_reducible assumption | intro _
    | (extract_lets +onlyGivenNames x; refine (fun (_ : State.Good kl kd x) => ?_) ?_; clear_value x; rotate_left; subst x)
    | extract_lets +onlyGivenNames x | with_reducible apply State.updCore_good | with_reducible apply State.takeTurns_good
    | with_reducible apply State.ite_good | split

theorem execFetch_good {core : BitVec 9} {cmd : Cmd} {s : State} (h2 : s.Good kl kd) : Out.Good kl kd (execFetch core cmd s) := by
  unfold execFetch
  repeat' first
    | with_reducible assumption | with_reducible apply State.wr_good | intro _ | extract_lets +onlyGivenNames x | with_reducible apply State.engRun_good
    | with_reducible apply State.guarded_good | with_reducible apply State.retire_good | with_reducible apply State.syncFq_good
    | with_reducible apply State.updCore_good | with_reducible apply State.ite_good | with_reducible apply Out.next_good

theorem State.drainSq_good {s : State} {c q : Nat} (h0 : s.Good kl kd) : (s.drainSq c q).Good kl kd := by
  unfold State.drainSq
  repeat' first
    | with_reducible assumption | extract_lets +onlyGivenNames x | with_reducible apply State.wr_good
    | with_reducible apply State.updCore_good | with_reducible apply State.ite_good

theorem State.placeSq_good {s : State} {c : Nat} {q : Nat} {op : Nat} {cmd : Cmd} {num : Nat} {gens : Tbl Nat} (h0 : s.Good kl kd) :
    (State.placeSq s c q op cmd num gens).Good kl kd := by
  unfold State.placeSq
  repeat' first
    | with_reducible assumption | intro _
    | (extract_lets +onlyGivenNames x; refine (fun (_ : State.Good kl kd x) => ?_) ?_; clear_value x; rotate_left; subst x)
    | extract_lets +onlyGivenNames x | with_reducible apply State.updCore_good | with_reducible apply State.retire_good
    | with_reducible apply State.wr_good | with_reducible apply State.ite_good | split

theorem execStore_good {core : BitVec 9} {cmd : Cmd} {s : State} (h2 : s.Good kl kd) : Out.Good kl kd (execStore core cmd s) := by
  unfold execStore
  repeat' first
    | with_reducible assumption | intro _ | extract_lets +onlyGivenNames x | with_reducible apply State.engRun_good
    | with_reducible apply State.guarded_good | with_reducible apply State.placeSq_good | with_reducible apply Out.next_good

theorem execLcopy_good {core : BitVec 9} {cmd : Cmd} {s : State} (h0 : s.Good kl kd) : Out.Good kl kd (execLcopy core cmd s) := by
  unfold execLcopy
  repeat' first
    | with_reducible assumption | intro _
    | (extract_lets +onlyGivenNames x; refine (fun (_ : State.Good kl kd x) => ?_) ?_; clear_value x; rotate_left; subst x)
    | (extract_lets +onlyGivenNames x; refine (fun (_ : State.Good kl kd x.1) => ?_) ?_; clear_value x; rotate_left; subst x)
    | extract_lets +onlyGivenNames x | with_reducible apply State.eccLoftN_good | with_reducible apply State.putGran_good
    | with_reducible apply State.retire_good | with_reducible apply State.guarded_good | with_reducible apply State.engRun_good
    | with_reducible apply State.xferErrs_good | with_reducible apply State.updMem_good | with_reducible apply State.ite_good
    | with_reducible apply State.foldl_good | with_reducible apply State.foldl_fst_good | with_reducible apply Out.next_good
    | with_reducible apply Tbl.wf_foldl | with_reducible apply State.updMem_good | with_reducible apply MemSt.mk_wf
    | with_reducible apply Marks.wf_put | exact MemSt.wf.loft ‹_› | exact MemSt.wf.granary ‹_› | exact MemSt.wf.host ‹_›
    | exact MemSt.wf.flash ‹_› | exact MemSt.wf.loadWin ‹_› | exact MemSt.wf.cfgStage ‹_› | exact MemSt.wf.loftPoison ‹_›
    | exact MemSt.wf.loftClamp ‹_› | exact MemSt.wf.granPoison ‹_› | exact MemSt.wf.loftErr ‹_› | exact MemSt.wf.granErr ‹_› | split

theorem execFetchComplete_good {core : BitVec 9} {q : BitVec 4} {s : State} (h0 : s.Good kl kd) :
    Out.Good kl kd (execFetchComplete core q s) := by
  unfold execFetchComplete
  repeat' first
    | with_reducible assumption | intro _
    | (extract_lets +onlyGivenNames x; refine (fun (_ : State.Good kl kd x) => ?_) ?_; clear_value x; rotate_left; subst x)
    | (extract_lets +onlyGivenNames x; refine (fun (_ : State.Good kl kd x.1) => ?_) ?_; clear_value x; rotate_left; subst x)
    | extract_lets +onlyGivenNames x | with_reducible apply State.updCore_good | with_reducible apply State.hazStop_good
    | with_reducible apply State.landFetch_good | with_reducible apply State.syncFq_good | with_reducible apply State.tookHead_good
    | with_reducible apply State.wr_good | with_reducible apply State.ite_good | with_reducible apply Out.next_good | split

/-! ### Network -/

theorem State.updWindow_good {s : State} {c v : Nat} {f : Window → Window} (h0 : s.Good kl kd) : (s.updWindow c v f).Good kl kd :=
    by
  unfold State.updWindow
  repeat' first
    | with_reducible assumption | with_reducible apply State.updCore_good

theorem State.consume_good {s : State} {c v n : Nat} (h0 : s.Good kl kd) : (s.consume c v n).Good kl kd := by
  unfold State.consume
  repeat' first
    | with_reducible assumption | extract_lets +onlyGivenNames x | with_reducible apply State.bump_good
    | with_reducible apply State.updWindow_good

theorem State.landGrans_good {s : State} {c v woff : Nat} {data : List (List Byte × Bool)} (h0 : s.Good kl kd) :
    (s.landGrans c v woff data).Good kl kd := by
  unfold State.landGrans
  repeat' first
    | with_reducible assumption | intro _ | extract_lets +onlyGivenNames x | with_reducible apply State.putGran_good
    | with_reducible apply State.ite_good | with_reducible apply State.foldl_good

theorem State.landWrite_good {s : State} {r : WinReq} {data : List (List Byte × Bool)} {raise : Bool} (h0 : s.Good kl kd) :
    (State.landWrite s r data raise).1.Good kl kd := by
  unfold State.landWrite
  repeat' first
    | with_reducible assumption
    | (extract_lets +onlyGivenNames x; refine (fun (_ : State.Good kl kd x) => ?_) ?_; clear_value x; rotate_left; subst x)
    | extract_lets +onlyGivenNames x | with_reducible apply State.consume_good | with_reducible apply State.landGrans_good
    | with_reducible apply State.raise_good | with_reducible apply State.bump_good | with_reducible apply State.ite_good | split

theorem State.takeCredit_good {s : State} {c mod_ core win n : Nat} (h0 : s.Good kl kd) :
    (s.takeCredit c mod_ core win n).Good kl kd := by
  unfold State.takeCredit
  repeat' first
    | with_reducible assumption | with_reducible apply State.updCore_good

theorem State.syncCred_good {s : State} {c : Nat} (h0 : s.Good kl kd) : (s.syncCred c).Good kl kd := by
  unfold State.syncCred
  repeat' first
    | with_reducible assumption | with_reducible apply State.wr_good

theorem State.setBuf_good {s : State} {r c i : Nat} {l : List Slab} (h0 : s.Good kl kd) : (s.setBuf r c i l).Good kl kd := by
  unfold State.setBuf
  repeat' first
    | with_reducible assumption | with_reducible apply State.updNet_good

theorem State.circRead_good {s : State} {k : Nat} {st : Nat} {go : State → State} (h0 : s.Good kl kd) (h1 : ∀ t0, t0.Good kl kd → (go t0).Good kl kd) :
    (State.circRead s k st go).Good kl kd := by
  unfold State.circRead
  repeat' first
    | with_reducible assumption | intro _
    | (extract_lets +onlyGivenNames x; refine (fun (_ : State.Good kl kd x) => ?_) ?_; clear_value x; rotate_left; subst x)
    | extract_lets +onlyGivenNames x | with_reducible apply h1 | with_reducible apply State.partFatal_good
    | with_reducible apply State.ite_good | split

theorem State.badSend_good {s : State} {c q op : Nat} {cmd : Cmd} (h0 : s.Good kl kd) : (s.badSend c q op cmd).Good kl kd := by
  unfold State.badSend
  repeat' first
    | with_reducible assumption
    | (extract_lets +onlyGivenNames x; refine (fun (_ : State.Good kl kd x) => ?_) ?_; clear_value x; rotate_left; subst x)
    | extract_lets +onlyGivenNames x | with_reducible apply State.wr_good | with_reducible apply State.logCore_good
    | with_reducible apply State.bump_good | with_reducible apply State.netErr_good | with_reducible apply State.placeSq_good
    | with_reducible apply State.ite_good

theorem execRsend_good {core : BitVec 9} {cmd : Cmd} {s : State} (h0 : s.Good kl kd) : Out.Good kl kd (execRsend core cmd s) := by
  unfold execRsend
  repeat' first
    | with_reducible assumption | intro _
    | (extract_lets +onlyGivenNames x; refine (fun (_ : State.Good kl kd x) => ?_) ?_; clear_value x; rotate_left; subst x)
    | extract_lets +onlyGivenNames x | with_reducible apply State.guarded_good | with_reducible apply State.engRun_good
    | with_reducible apply State.placeSq_good | with_reducible apply State.circRead_good | with_reducible apply State.badSend_good
    | with_reducible apply State.ite_good | with_reducible apply Out.next_good | split

theorem State.readRsend_good {s : State} {c : Nat} {cmd : Cmd} (h0 : s.Good kl kd) : (State.readRsend s c cmd).1.Good kl kd := by
  unfold State.readRsend
  repeat' first
    | with_reducible assumption
    | (extract_lets +onlyGivenNames x; refine (fun (_ : State.Good kl kd x) => ?_) ?_; clear_value x; rotate_left; subst x)
    | extract_lets +onlyGivenNames x | with_reducible apply State.eccLoftN_good

theorem State.feedNode_good {s : State} {r c i : Nat} {x : Slab} {t : State} (h0 : s.Good kl kd) (h : s.feedNode r c i x = some t)
    : t.Good kl kd := by
  unfold State.feedNode at h
  split at h
  · cases h
  · cases h
    exact State.setBuf_good h0

theorem State.placeSum_good {s : State} {r c : Nat} {x : Slab} {t : State} (h0 : s.Good kl kd) (h : s.placeSum r c x = some t)
    : t.Good kl kd := by
  unfold State.placeSum at h
  dsimp only at h
  split at h
  · split at h
    · cases h
      exact State.updNet_good h0
    · cases h
  · split at h
    · cases h
    · split at h
      · cases h
      · exact State.feedNode_good (State.bump_good h0) h

theorem State.returnSlabs_good {s : State} {r c : Nat} {ins : List Nat} (h0 : s.Good kl kd) : (s.returnSlabs r c ins).Good kl kd :=
    by
  unfold State.returnSlabs
  repeat' first
    | with_reducible assumption | intro _ | extract_lets +onlyGivenNames x | with_reducible apply State.sendMsg_good
    | with_reducible apply State.ite_good | with_reducible apply State.foldl_good | split

theorem State.foldNode_good {s : State} {r c : Nat} (h0 : s.Good kl kd) : (s.foldNode r c).Good kl kd := by
  unfold State.foldNode
  dsimp only
  split
  · exact h0
  · split
    · exact h0
    · split
      · exact h0
      · rename_i s' hs
        have h1 := State.placeSum_good h0 hs
        have h2 : ∀ (xs : List Nat), (xs.foldl (fun s i => s.setBuf r c i ((s.nodeBuf r c i).drop 1)) s').Good kl kd := fun _ =>
          State.foldl_good h1 fun _ _ h => State.setBuf_good h
        repeat' first
          | with_reducible apply h2
          | with_reducible apply State.returnSlabs_good
          | with_reducible apply State.ite_good
          | with_reducible apply State.logErr_good
          | with_reducible apply State.bump_good
          | with_reducible apply State.netErr_good

theorem execRedFold_good {router : BitVec 5} {circ : BitVec 8} {intact : Bool} {s : State} (h0 : s.Good kl kd) :
    Out.Good kl kd (execRedFold router circ intact s) := by
  unfold execRedFold
  repeat' first
    | with_reducible assumption | intro _
    | (extract_lets +onlyGivenNames x; refine (fun (_ : State.Good kl kd x) => ?_) ?_; clear_value x; rotate_left; subst x)
    | extract_lets +onlyGivenNames x | with_reducible apply State.updNet_good | with_reducible apply State.circRead_good
    | with_reducible apply State.foldNode_good | with_reducible apply State.ite_good | with_reducible apply Out.next_good | split

theorem State.deliverSum_good {s : State} {c : Nat} {x : Slab} {held : Nat} (h0 : s.Good kl kd) :
    (State.deliverSum s c x held).Good kl kd := by
  unfold State.deliverSum
  repeat' first
    | with_reducible assumption | intro _
    | (extract_lets +onlyGivenNames x; refine (fun (_ : State.Good kl kd x) => ?_) ?_; clear_value x; rotate_left; subst x)
    | (extract_lets +onlyGivenNames x; refine (fun (_ : State.Good kl kd x.1) => ?_) ?_; clear_value x; rotate_left; subst x)
    | extract_lets +onlyGivenNames x | with_reducible apply State.bump_good | with_reducible apply State.raise_good
    | with_reducible apply State.updNet_good | with_reducible apply State.landWrite_good | with_reducible apply State.ite_good
    | with_reducible apply State.foldl_good | with_reducible apply State.foldl_fst_good | split

theorem State.sendSum_good {s : State} {c : Nat} {x : Slab} {held : Nat} (h0 : s.Good kl kd) : (s.sendSum c x held).Good kl kd := by
  unfold State.sendSum
  repeat' first
    | with_reducible assumption
    | (extract_lets +onlyGivenNames x; refine (fun (_ : State.Good kl kd x) => ?_) ?_; clear_value x; rotate_left; subst x)
    | extract_lets +onlyGivenNames x | with_reducible apply State.updNet_good | with_reducible apply State.bump_good
    | with_reducible apply State.queueMsg_good | with_reducible apply State.undeliverable_good | with_reducible apply State.ite_good
    | split

theorem execRedDeliver_good {circ : BitVec 8} {held : BitVec 32} {s : State} (h0 : s.Good kl kd) :
    Out.Good kl kd (execRedDeliver circ held s) := by
  unfold execRedDeliver
  repeat' first
    | with_reducible assumption | intro _
    | (extract_lets +onlyGivenNames x; refine (fun (_ : State.Good kl kd x) => ?_) ?_; clear_value x; rotate_left; subst x)
    | extract_lets +onlyGivenNames x | with_reducible apply State.circRead_good | with_reducible apply State.deliverSum_good
    | with_reducible apply State.sendSum_good | with_reducible apply State.ite_good | with_reducible apply Out.next_good | split

theorem execMsend_good {core : BitVec 9} {cmd : Cmd} {s : State} (h0 : s.Good kl kd) : Out.Good kl kd (execMsend core cmd s) := by
  unfold execMsend
  repeat' first
    | with_reducible assumption | intro _
    | (extract_lets +onlyGivenNames x; refine (fun (_ : State.Good kl kd x) => ?_) ?_; clear_value x; rotate_left; subst x)
    | (extract_lets +onlyGivenNames x; refine (fun (_ : State.Good kl kd x.1) => ?_) ?_; clear_value x; rotate_left; subst x)
    | extract_lets +onlyGivenNames x | with_reducible apply State.guarded_good | with_reducible apply State.engRun_good
    | with_reducible apply State.placeSq_good | with_reducible apply State.takeCredit_good | with_reducible apply State.circRead_good
    | with_reducible apply State.badSend_good | with_reducible apply State.wr_good | with_reducible apply State.ite_good
    | with_reducible apply State.foldl_good | with_reducible apply State.foldl_fst_good | with_reducible apply Out.next_good | split

theorem State.wwrites_good {s : State} {c : Nat} {part : Nat} {tmod : Nat} {tcore : Nat} {twin : Nat} {woff : Nat} {gen : Nat} {raise : Bool} {data : List (List Byte × Bool)} {mesh : Bool} (h0 : s.Good kl kd) :
    (State.wwrites s c part tmod tcore twin woff gen raise data mesh).1.Good kl kd := by
  unfold State.wwrites
  repeat' first
    | with_reducible assumption | intro _
    | (extract_lets +onlyGivenNames x; refine (fun (_ : State.Good kl kd x) => ?_) ?_; clear_value x; rotate_left; subst x)
    | (extract_lets +onlyGivenNames x; refine (fun (_ : State.Good kl kd x.1) => ?_) ?_; clear_value x; rotate_left; subst x)
    | extract_lets +onlyGivenNames x | with_reducible apply State.updCore_good | with_reducible apply State.raise_good
    | with_reducible apply State.sendMsg_good | with_reducible apply State.ite_good | with_reducible apply State.foldl_good
    | with_reducible apply State.foldl_fst_good | split

theorem State.sendCopies_good {s : State} {c : Nat} {cmd : Cmd} {gens : Tbl Nat} {data : List (List Byte × Bool)} (h0 : s.Good kl kd) :
    (State.sendCopies s c cmd gens data).1.Good kl kd := by
  unfold State.sendCopies
  repeat' first
    | with_reducible assumption | intro _
    | (extract_lets +onlyGivenNames x; refine (fun (_ : State.Good kl kd x) => ?_) ?_; clear_value x; rotate_left; subst x)
    | (extract_lets +onlyGivenNames x; refine (fun (_ : State.Good kl kd x.1) => ?_) ?_; clear_value x; rotate_left; subst x)
    | extract_lets +onlyGivenNames x | with_reducible apply State.bump_good | with_reducible apply State.wwrites_good
    | with_reducible apply State.ite_good | with_reducible apply State.foldl_good | with_reducible apply State.foldl_fst_good | split

theorem State.updSq_good {s : State} {c q : Nat} {p : SqEnt → Bool} {f : SqEnt → SqEnt} (h0 : s.Good kl kd) :
    (s.updSq c q p f).Good kl kd := by
  unfold State.updSq
  repeat' first
    | with_reducible assumption | with_reducible apply State.updCore_good

theorem execMcAck_good {core : BitVec 9} {q : BitVec 3} {target : BitVec 6} {s : State} (h0 : s.Good kl kd) :
    Out.Good kl kd (execMcAck core q target s) := by
  unfold execMcAck
  repeat' first
    | with_reducible assumption | intro _
    | (extract_lets +onlyGivenNames x; refine (fun (_ : State.Good kl kd x) => ?_) ?_; clear_value x; rotate_left; subst x)
    | (extract_lets +onlyGivenNames x; refine (fun (_ : State.Good kl kd x.1) => ?_) ?_; clear_value x; rotate_left; subst x)
    | extract_lets +onlyGivenNames x | with_reducible apply State.bump_good | with_reducible apply State.traverse_good
    | with_reducible apply State.landWrite_good | with_reducible apply State.updSq_good | with_reducible apply State.ite_good
    | with_reducible apply Out.next_good | split

theorem execMcComplete_good {core : BitVec 9} {q : BitVec 3} {s : State} (h0 : s.Good kl kd) :
    Out.Good kl kd (execMcComplete core q s) := by
  unfold execMcComplete
  repeat' first
    | with_reducible assumption | intro _
    | (extract_lets +onlyGivenNames x; refine (fun (_ : State.Good kl kd x) => ?_) ?_; clear_value x; rotate_left; subst x)
    | (extract_lets +onlyGivenNames x; refine (fun (_ : State.Good kl kd x.1) => ?_) ?_; clear_value x; rotate_left; subst x)
    | extract_lets +onlyGivenNames x | with_reducible apply State.putGran_good | with_reducible apply State.hazStop_good
    | with_reducible apply State.drainSq_good | with_reducible apply State.updSq_good | with_reducible apply State.ite_good
    | with_reducible apply Out.next_good | split

theorem State.noteGran_good {s t : State} {r c q g : Nat} {hit : BufHit} (h0 : s.Good kl kd) (h : s.noteGran r c q g hit = some t) :
    t.Good kl kd := by
  unfold State.noteGran at h
  cases hit <;> dsimp only at h <;> split at h
  any_goals cases h
  all_goals (split at h <;> cases h)
  · exact State.updSq_good h0
  · exact State.setBuf_good h0
  · exact State.updNet_good h0
  · exact State.updCore_good h0
  · exact State.updSq_good h0

theorem execPoisonNote_good {router : BitVec 5} {core : BitVec 9} {q : BitVec 4} {hit : BufHit} {gran : BitVec 32}
    {correctable : Bool} {s : State} (h0 : s.Good kl kd) :
    Out.Good kl kd (execPoisonNote router core q hit gran correctable s) := by
  unfold execPoisonNote
  refine Out.next_good (State.ite_good h0 (State.ite_good (State.logErr_good (State.bump_good h0)) ?_))
  split
  · exact h0
  · rename_i h
    exact State.logErr_good (State.bump_good (State.noteGran_good h0 h))

theorem State.nodeWrite_good {s : State} {a v : Nat} (h0 : s.Good kl kd) : (s.nodeWrite a v).Good kl kd := by
  unfold State.nodeWrite
  repeat' first
    | with_reducible assumption
    | (extract_lets +onlyGivenNames x; refine (fun (_ : State.Good kl kd x) => ?_) ?_; clear_value x; rotate_left; subst x)
    | extract_lets +onlyGivenNames x | with_reducible apply State.hae_good | with_reducible apply State.wr_good
    | with_reducible apply State.updNet_good | with_reducible apply State.ite_good

theorem execNodeWrite_good {addr : BitVec 26} {value : Word} {s : State} (h2 : s.Good kl kd) : Out.Good kl kd
    (execNodeWrite addr value s) := by
  unfold execNodeWrite
  repeat' first
    | with_reducible assumption | extract_lets +onlyGivenNames x | with_reducible apply State.nodeWrite_good
    | with_reducible apply State.ite_good | with_reducible apply Out.next_good

theorem State.dropCircs_good {s : State} {p : Nat} (h0 : s.Good kl kd) : (State.dropCircs s p).Good kl kd := by
  unfold State.dropCircs
  repeat' first
    | with_reducible assumption | intro _
    | (extract_lets +onlyGivenNames x; refine (fun (_ : State.Good kl kd x) => ?_) ?_; clear_value x; rotate_left; subst x)
    | (extract_lets +onlyGivenNames x; refine (fun (_ : State.Good kl kd x.1) => ?_) ?_; clear_value x; rotate_left; subst x)
    | extract_lets +onlyGivenNames x | with_reducible apply State.wr_good | with_reducible apply State.ite_good
    | with_reducible apply State.foldl_good | with_reducible apply State.foldl_fst_good | split

theorem State.discardNet_good {s : State} {p : Nat} (h0 : s.Good kl kd) : (State.discardNet s p).Good kl kd := by
  unfold State.discardNet
  repeat' first
    | with_reducible assumption | intro _
    | (extract_lets +onlyGivenNames x; refine (fun (_ : State.Good kl kd x) => ?_) ?_; clear_value x; rotate_left; subst x)
    | (extract_lets +onlyGivenNames x; refine (fun (_ : State.Good kl kd x.1) => ?_) ?_; clear_value x; rotate_left; subst x)
    | extract_lets +onlyGivenNames x | with_reducible apply State.updCore_good | with_reducible apply State.updNet_good
    | with_reducible apply State.syncCred_good | with_reducible apply State.dropCircs_good | with_reducible apply State.wr_good
    | with_reducible apply State.ite_good | with_reducible apply State.foldl_good | with_reducible apply State.foldl_fst_good | split

end

end Sys2Proof.Machine
end

