-- ==== Sys2Proof/Laws/SoundNet.lean ====
section
/-! SUPPORT. Soundness, and the stops that hold, are kept by the definitions of Accord, Tier, Trail, Messages, Cells, Audit. -/

set_option linter.tactic.unusedName false

namespace Sys2Proof.Machine

section
variable {kl kd : Bool}

/-! ### Accord -/

theorem State.passCheck_good {s : State} {p : Nat} {r : ProgRec} {flips : List (Nat × Nat × Nat)} (h0 : s.Good kl kd) :
    (s.passCheck p r flips).Good kl kd := by
  unfold State.passCheck
  repeat' first
    | with_reducible assumption
    | (extract_lets +onlyGivenNames x; refine (fun (_ : State.Good kl kd x) => ?_) ?_; clear_value x; rotate_left; subst x)
    | extract_lets +onlyGivenNames x | with_reducible apply State.wr_good | with_reducible apply State.updPart_good
    | with_reducible apply State.sendResult_good | with_reducible apply State.unqueue_good

theorem State.failAccord_good {s : State} {p code detail : Nat} (h0 : s.Good kl kd) : (s.failAccord p code detail).Good kl kd := by
  unfold State.failAccord
  repeat' first
    | with_reducible assumption | extract_lets +onlyGivenNames x | with_reducible apply State.updPart_good
    | with_reducible apply State.failCheck_good

theorem State.readProg_good {s : State} {p : Nat} (h0 : s.Good kl kd) : (State.readProg s p).1.Good kl kd := by
  unfold State.readProg
  repeat' first
    | with_reducible assumption
    | (extract_lets +onlyGivenNames x; refine (fun (_ : State.Good kl kd x.1) => ?_) ?_; clear_value x; rotate_left; subst x)
    | extract_lets +onlyGivenNames x | with_reducible apply State.readAll_good

theorem State.accord_good {s : State} {p : Nat} (h0 : s.Good kl kd) : (s.accord p).Good kl kd := by
  unfold State.accord
  repeat' first
    | with_reducible assumption | intro _
    | (extract_lets +onlyGivenNames x; refine (fun (_ : State.Good kl kd x) => ?_) ?_; clear_value x; rotate_left; subst x)
    | (extract_lets +onlyGivenNames x; refine (fun (_ : State.Good kl kd x.1) => ?_) ?_; clear_value x; rotate_left; subst x)
    | extract_lets +onlyGivenNames x | with_reducible apply State.readProg_good | with_reducible apply State.failAccord_good
    | with_reducible apply State.bump_good | with_reducible apply State.updPart_good | with_reducible apply State.queueMsg_good
    | with_reducible apply State.passCheck_good | with_reducible apply State.ite_good | with_reducible apply State.foldl_good | split

theorem execAccordCheck_good {p : BitVec 6} {s : State} (h1 : s.Good kl kd) : Out.Good kl kd (execAccordCheck p s) := by
  unfold execAccordCheck
  repeat' first
    | with_reducible assumption | extract_lets +onlyGivenNames x | with_reducible apply State.accord_good
    | with_reducible apply State.ite_good | with_reducible apply Out.next_good

/-! ### Tier -/

theorem State.beginPark_good {s : State} {p n : Nat} (h0 : s.Good kl kd) : (s.beginPark p n).Good kl kd := by
  unfold State.beginPark
  repeat' first
    | with_reducible assumption | extract_lets +onlyGivenNames x | with_reducible apply State.tierEvent_good
    | with_reducible apply State.updTier_good | with_reducible apply State.syncTier_good | with_reducible apply State.setTier_good
    | with_reducible apply State.ite_good

theorem State.cancelPark_good {s : State} {p n : Nat} (h0 : s.Good kl kd) : (s.cancelPark p n).Good kl kd := by
  unfold State.cancelPark
  repeat' first
    | with_reducible assumption | extract_lets +onlyGivenNames x | with_reducible apply State.tierEvent_good
    | with_reducible apply State.setTier_good | with_reducible apply State.dropMove_good

theorem State.askReturn_good {s : State} {n : Nat} (h0 : s.Good kl kd) : (s.askReturn n).Good kl kd := by
  unfold State.askReturn
  repeat' first
    | with_reducible assumption | extract_lets +onlyGivenNames x | with_reducible apply State.setTier_good
    | with_reducible apply State.updTier_good

theorem State.openReq_good {s : State} {p : Nat} {n : Nat} {addr : Nat} (h0 : s.Good kl kd) : (State.openReq s p n addr).Good kl kd := by
  unfold State.openReq
  repeat' first
    | with_reducible assumption | intro _
    | (extract_lets +onlyGivenNames x; refine (fun (_ : State.Good kl kd x) => ?_) ?_; clear_value x; rotate_left; subst x)
    | (extract_lets +onlyGivenNames x; refine (fun (_ : State.Good kl kd x.1) => ?_) ?_; clear_value x; rotate_left; subst x)
    | extract_lets +onlyGivenNames x | with_reducible apply State.trailEv_good | with_reducible apply State.updReq_good
    | with_reducible apply State.updTier_good | with_reducible apply State.setIdle_good | with_reducible apply State.ite_good | split

theorem State.readOpen_good {s : State} {p n addr : Nat} (h0 : s.Good kl kd) : (s.readOpen p n addr).Good kl kd := by
  unfold State.readOpen
  repeat' first
    | with_reducible assumption
    | (extract_lets +onlyGivenNames x; refine (fun (_ : State.Good kl kd x) => ?_) ?_; clear_value x; rotate_left; subst x)
    | extract_lets +onlyGivenNames x | with_reducible apply State.readAll_good | with_reducible apply State.ite_good

theorem State.tierOp_good {s : State} {op p n arg addr : Nat} (h0 : s.Good kl kd) : (State.tierOp s op p n arg addr).2.Good kl kd := by
  unfold State.tierOp
  repeat' first
    | with_reducible assumption
    | (extract_lets +onlyGivenNames x; refine (fun (_ : State.Good kl kd x) => ?_) ?_; clear_value x; rotate_left; subst x)
    | extract_lets +onlyGivenNames x | with_reducible apply State.readOpen_good | with_reducible apply State.openReq_good
    | with_reducible apply State.updTier_good | with_reducible apply State.beginPark_good | with_reducible apply State.cancelPark_good
    | with_reducible apply State.askReturn_good | with_reducible apply State.updReq_good | with_reducible apply State.ite_good | split

theorem State.tierRes_good {s : State} {fn res code : Nat} (h0 : s.Good kl kd) : (s.tierRes fn res code).Good kl kd := by
  unfold State.tierRes
  repeat' first
    | with_reducible assumption | extract_lets +onlyGivenNames x | with_reducible apply State.wr_good
    | with_reducible apply State.ite_good

theorem State.tierGo_good {s : State} {fn off : Nat} (h0 : s.Good kl kd) : (s.tierGo fn off).Good kl kd := by
  unfold State.tierGo
  repeat' first
    | with_reducible assumption | extract_lets +onlyGivenNames x | with_reducible apply State.hae_good
    | with_reducible apply State.tierRes_good | with_reducible apply State.updTier_good | with_reducible apply State.ite_good

theorem State.tierCommand_good {s : State} {fn op n arg addr : Nat} (h0 : s.Good kl kd) :
    (s.tierCommand fn op n arg addr).Good kl kd := by
  unfold State.tierCommand
  repeat' first
    | with_reducible assumption
    | (extract_lets +onlyGivenNames x; refine (fun (_ : State.Good kl kd x.1) => ?_) ?_; clear_value x; rotate_left; subst x)
    | (extract_lets +onlyGivenNames x; refine (fun (_ : State.Good kl kd x.2) => ?_) ?_; clear_value x; rotate_left; subst x)
    | extract_lets +onlyGivenNames x | with_reducible apply State.entryRead_good | with_reducible apply State.entryFail_good
    | with_reducible apply State.tierOp_good | with_reducible apply State.msix_good | with_reducible apply State.tierRes_good | split

theorem State.tierRow_good {s : State} {fn op n arg addr : Nat} (h0 : s.Good kl kd) : (s.tierRow fn op n arg addr).Good kl kd := by
  unfold State.tierRow
  repeat' first
    | with_reducible assumption | extract_lets +onlyGivenNames x | with_reducible apply State.tierCommand_good
    | with_reducible apply State.ite_good

theorem execOpenCmd_good {fn : BitVec 7} {req : BitVec 16} {addr : BitVec 36} {s : State} (h3 : s.Good kl kd) : Out.Good kl kd
    (execOpenCmd fn req addr s) := by
  unfold execOpenCmd
  repeat' first
    | with_reducible assumption | extract_lets +onlyGivenNames x | with_reducible apply State.tierRow_good
    | with_reducible apply Out.next_good

theorem execClose_good {fn : BitVec 7} {req : BitVec 16} {s : State} (h2 : s.Good kl kd) : Out.Good kl kd (execClose fn req s) := by
  unfold execClose
  repeat' first
    | with_reducible assumption | extract_lets +onlyGivenNames x | with_reducible apply State.tierRow_good
    | with_reducible apply Out.next_good

theorem execParkCmd_good {fn : BitVec 7} {req : BitVec 16} {s : State} (h2 : s.Good kl kd) : Out.Good kl kd (execParkCmd fn req s) := by
  unfold execParkCmd
  repeat' first
    | with_reducible assumption | extract_lets +onlyGivenNames x | with_reducible apply State.tierRow_good
    | with_reducible apply Out.next_good

theorem execResume_good {fn : BitVec 7} {req : BitVec 16} {s : State} (h2 : s.Good kl kd) : Out.Good kl kd (execResume fn req s) := by
  unfold execResume
  repeat' first
    | with_reducible assumption | extract_lets +onlyGivenNames x | with_reducible apply State.tierRow_good
    | with_reducible apply Out.next_good

theorem execSetTtl_good {fn : BitVec 7} {req : BitVec 16} {seconds : BitVec 32} {s : State} (h3 : s.Good kl kd) : Out.Good kl kd
    (execSetTtl fn req seconds s) := by
  unfold execSetTtl
  repeat' first
    | with_reducible assumption | extract_lets +onlyGivenNames x | with_reducible apply State.tierRow_good
    | with_reducible apply Out.next_good

theorem execPin_good {fn : BitVec 7} {req : BitVec 16} {pinned : Bool} {s : State} (h3 : s.Good kl kd) : Out.Good kl kd
    (execPin fn req pinned s) := by
  unfold execPin
  repeat' first
    | with_reducible assumption | extract_lets +onlyGivenNames x | with_reducible apply State.tierRow_good
    | with_reducible apply Out.next_good

theorem State.openDone_good {s : State} {p n : Nat} (h0 : s.Good kl kd) : (s.openDone p n).Good kl kd := by
  unfold State.openDone
  repeat' first
    | with_reducible assumption | intro _
    | (extract_lets +onlyGivenNames x; refine (fun (_ : State.Good kl kd x) => ?_) ?_; clear_value x; rotate_left; subst x)
    | extract_lets +onlyGivenNames x | with_reducible apply State.zeroGrans_good | with_reducible apply State.tierEvent_good
    | with_reducible apply State.setTier_good | with_reducible apply State.updTier_good | with_reducible apply State.ite_good
    | with_reducible apply State.foldl_good | split

theorem execOpenDone_good {req : BitVec 16} {s : State} (h1 : s.Good kl kd) : Out.Good kl kd (execOpenDone req s) := by
  unfold execOpenDone
  repeat' first
    | with_reducible assumption | extract_lets +onlyGivenNames x | with_reducible apply State.openDone_good
    | with_reducible apply State.ite_good | with_reducible apply Out.next_good

theorem execIdleDeadline_good {req : BitVec 16} {s : State} (h0 : s.Good kl kd) : Out.Good kl kd (execIdleDeadline req s) := by
  unfold execIdleDeadline
  repeat' first
    | with_reducible assumption | intro _
    | (extract_lets +onlyGivenNames x; refine (fun (_ : State.Good kl kd x) => ?_) ?_; clear_value x; rotate_left; subst x)
    | (extract_lets +onlyGivenNames x; refine (fun (_ : State.Good kl kd x.1) => ?_) ?_; clear_value x; rotate_left; subst x)
    | extract_lets +onlyGivenNames x | with_reducible apply State.checkReq_good | with_reducible apply State.beginPark_good
    | with_reducible apply State.ite_good | with_reducible apply Out.next_good | split

theorem execTtlDeadline_good {req : BitVec 16} {s : State} (h0 : s.Good kl kd) : Out.Good kl kd (execTtlDeadline req s) := by
  unfold execTtlDeadline
  repeat' first
    | with_reducible assumption | intro _
    | (extract_lets +onlyGivenNames x; refine (fun (_ : State.Good kl kd x) => ?_) ?_; clear_value x; rotate_left; subst x)
    | (extract_lets +onlyGivenNames x; refine (fun (_ : State.Good kl kd x.1) => ?_) ?_; clear_value x; rotate_left; subst x)
    | extract_lets +onlyGivenNames x | with_reducible apply State.bump_good | with_reducible apply State.freeSiloPages_good
    | with_reducible apply State.tierEvent_good | with_reducible apply State.setTier_good | with_reducible apply State.checkReq_good
    | with_reducible apply State.ite_good | with_reducible apply Out.next_good | split

theorem State.parkPage_good {s : State} {p : Nat} {n : Nat} {x : MovedPage} (h0 : s.Good kl kd) :
    (State.parkPage s p n x).1.Good kl kd := by
  unfold State.parkPage
  repeat' first
    | with_reducible assumption | intro _
    | (extract_lets +onlyGivenNames x; refine (fun (_ : State.Good kl kd x) => ?_) ?_; clear_value x; rotate_left; subst x)
    | (extract_lets +onlyGivenNames x; refine (fun (_ : State.Good kl kd x.1) => ?_) ?_; clear_value x; rotate_left; subst x)
    | extract_lets +onlyGivenNames x | with_reducible apply State.bump_good | with_reducible apply State.sendHost_good
    | with_reducible apply State.readAll_good | with_reducible apply State.ite_good | split

theorem State.returnPage_good {s : State} {p : Nat} {x : MovedPage} (h0 : s.Good kl kd) : (State.returnPage s p x).1.Good kl kd := by
  unfold State.returnPage
  repeat' first
    | with_reducible assumption | intro _
    | (extract_lets +onlyGivenNames x; refine (fun (_ : State.Good kl kd x) => ?_) ?_; clear_value x; rotate_left; subst x)
    | extract_lets +onlyGivenNames x | with_reducible apply State.writeGran_good | with_reducible apply State.bump_good
    | with_reducible apply State.foldl_good

theorem State.updMove_good {s : State} {n : Nat} {f : Move → Move} (h0 : s.Good kl kd) : (s.updMove n f).Good kl kd := by
  unfold State.updMove
  repeat' first
    | with_reducible assumption | with_reducible apply State.updTier_good

theorem State.setMover_good {s : State} {n : Nat} (h0 : s.Good kl kd) : (State.setMover s n).Good kl kd := by
  unfold State.setMover
  repeat' first
    | with_reducible assumption | intro _
    | (extract_lets +onlyGivenNames x; refine (fun (_ : State.Good kl kd x) => ?_) ?_; clear_value x; rotate_left; subst x)
    | extract_lets +onlyGivenNames x | with_reducible apply State.updTier_good | with_reducible apply State.ite_good | split

theorem execTierPageMove_good {req : BitVec 16} {s : State} (h0 : s.Good kl kd) : Out.Good kl kd (execTierPageMove req s) := by
  unfold execTierPageMove
  repeat' first
    | with_reducible assumption | intro _
    | (extract_lets +onlyGivenNames x; refine (fun (_ : State.Good kl kd x) => ?_) ?_; clear_value x; rotate_left; subst x)
    | (extract_lets +onlyGivenNames x; refine (fun (_ : State.Good kl kd x.1) => ?_) ?_; clear_value x; rotate_left; subst x)
    | extract_lets +onlyGivenNames x | with_reducible apply State.parkPage_good | with_reducible apply State.returnPage_good
    | with_reducible apply State.updMove_good | with_reducible apply State.setMover_good | with_reducible apply State.ite_good
    | with_reducible apply Out.next_good | split

theorem State.parkDone_good {s : State} {p n : Nat} {m : Move} (h0 : s.Good kl kd) : (s.parkDone p n m).Good kl kd := by
  unfold State.parkDone
  repeat' first
    | with_reducible assumption | intro _
    | (extract_lets +onlyGivenNames x; refine (fun (_ : State.Good kl kd x) => ?_) ?_; clear_value x; rotate_left; subst x)
    | extract_lets +onlyGivenNames x | with_reducible apply State.updTier_good | with_reducible apply State.freeGranary_good
    | with_reducible apply State.putMapEnt_good | with_reducible apply State.setTier_good | with_reducible apply State.updReq_good
    | with_reducible apply State.syncTier_good | with_reducible apply State.tierEvent_good | with_reducible apply State.bump_good
    | with_reducible apply State.foldl_good

theorem execParkDone_good {req : BitVec 16} {s : State} (h1 : s.Good kl kd) : Out.Good kl kd (execParkDone req s) := by
  unfold execParkDone
  repeat' first
    | with_reducible assumption | extract_lets +onlyGivenNames x | with_reducible apply State.parkDone_good
    | with_reducible apply State.ite_good | with_reducible apply Out.next_good | split

theorem execParkAbort_good {req : BitVec 16} {s : State} (h1 : s.Good kl kd) : Out.Good kl kd (execParkAbort req s) := by
  unfold execParkAbort
  repeat' first
    | with_reducible assumption | extract_lets +onlyGivenNames x | with_reducible apply State.logErr_good
    | with_reducible apply State.tierEvent_good | with_reducible apply State.wr_good | with_reducible apply State.setTier_good
    | with_reducible apply State.dropMove_good | with_reducible apply State.ite_good | with_reducible apply Out.next_good | split

theorem execReturnStart_good {req : BitVec 16} {s : State} (h1 : s.Good kl kd) : Out.Good kl kd (execReturnStart req s) := by
  unfold execReturnStart
  repeat' first
    | with_reducible assumption | intro _
    | (extract_lets +onlyGivenNames x; refine (fun (_ : State.Good kl kd x) => ?_) ?_; clear_value x; rotate_left; subst x)
    | extract_lets +onlyGivenNames x | with_reducible apply State.updTier_good | with_reducible apply State.putMapEnt_good
    | with_reducible apply State.syncTier_good | with_reducible apply State.updMove_good | with_reducible apply State.ite_good
    | with_reducible apply State.foldl_good | with_reducible apply Out.next_good | split

theorem State.returnDone_good {s : State} {p : Nat} {n : Nat} {m : Move} (h0 : s.Good kl kd) :
    (State.returnDone s p n m).Good kl kd := by
  unfold State.returnDone
  repeat' first
    | with_reducible assumption | intro _
    | (extract_lets +onlyGivenNames x; refine (fun (_ : State.Good kl kd x) => ?_) ?_; clear_value x; rotate_left; subst x)
    | extract_lets +onlyGivenNames x | with_reducible apply State.bump_good | with_reducible apply State.updReq_good
    | with_reducible apply State.updTier_good | with_reducible apply State.putMapEnt_good | with_reducible apply State.syncTier_good
    | with_reducible apply State.tierEvent_good | with_reducible apply State.setTier_good | with_reducible apply State.setIdle_good
    | with_reducible apply State.ite_good | with_reducible apply State.foldl_good | with_reducible apply State.foldl_fst_good | split

theorem execReturnDone_good {req : BitVec 16} {s : State} (h1 : s.Good kl kd) : Out.Good kl kd (execReturnDone req s) := by
  unfold execReturnDone
  repeat' first
    | with_reducible assumption | extract_lets +onlyGivenNames x | with_reducible apply State.returnDone_good
    | with_reducible apply State.ite_good | with_reducible apply Out.next_good | split

theorem execReturnFail_good {req : BitVec 16} {s : State} (h1 : s.Good kl kd) : Out.Good kl kd (execReturnFail req s) := by
  unfold execReturnFail
  repeat' first
    | with_reducible assumption | extract_lets +onlyGivenNames x | with_reducible apply State.logErr_good
    | with_reducible apply State.tierEvent_good | with_reducible apply State.failReq_good | with_reducible apply State.ite_good
    | with_reducible apply Out.next_good | split

theorem State.pressPark_good {s : State} {p : Nat} {n : Nat} (h0 : s.Good kl kd) : (State.pressPark s p n).Good kl kd := by
  unfold State.pressPark
  repeat' first
    | with_reducible assumption | intro _
    | (extract_lets +onlyGivenNames x; refine (fun (_ : State.Good kl kd x) => ?_) ?_; clear_value x; rotate_left; subst x)
    | (extract_lets +onlyGivenNames x; refine (fun (_ : State.Good kl kd x.1) => ?_) ?_; clear_value x; rotate_left; subst x)
    | extract_lets +onlyGivenNames x | with_reducible apply State.checkReq_good | with_reducible apply State.beginPark_good
    | with_reducible apply State.ite_good | split

theorem execPoolPressure_good {p : BitVec 6} {s : State} (h0 : s.Good kl kd) : Out.Good kl kd (execPoolPressure p s) := by
  unfold execPoolPressure
  repeat' first
    | with_reducible assumption | intro _
    | (extract_lets +onlyGivenNames x; refine (fun (_ : State.Good kl kd x) => ?_) ?_; clear_value x; rotate_left; subst x)
    | extract_lets +onlyGivenNames x | with_reducible apply State.pressPark_good | with_reducible apply State.ite_good
    | with_reducible apply State.foldl_good | with_reducible apply State.foldl_fst_good | with_reducible apply Out.next_good | split

theorem State.siloWrite_good {s : State} {p v : Nat} (h0 : s.Good kl kd) : (s.siloWrite p v).Good kl kd := by
  unfold State.siloWrite
  repeat' first
    | with_reducible assumption | extract_lets +onlyGivenNames x | with_reducible apply State.wr_good
    | with_reducible apply State.updTier_good

theorem execSiloCountWrite_good {p : BitVec 6} {value : BitVec 26} {s : State} (h2 : s.Good kl kd) : Out.Good kl kd
    (execSiloCountWrite p value s) := by
  unfold execSiloCountWrite
  repeat' first
    | with_reducible assumption | extract_lets +onlyGivenNames x | with_reducible apply State.siloWrite_good
    | with_reducible apply State.ite_good | with_reducible apply Out.next_good

theorem State.rqSelect_good {s : State} {n : Nat} (h0 : s.Good kl kd) : (s.rqSelect n).Good kl kd := by
  unfold State.rqSelect
  repeat' first
    | with_reducible assumption | intro _
    | (extract_lets +onlyGivenNames x; refine (fun (_ : State.Good kl kd x) => ?_) ?_; clear_value x; rotate_left; subst x)
    | (extract_lets +onlyGivenNames x; refine (fun (_ : State.Good kl kd x.1) => ?_) ?_; clear_value x; rotate_left; subst x)
    | extract_lets +onlyGivenNames x | with_reducible apply State.entryRead_good | with_reducible apply State.entryFail_good
    | with_reducible apply State.wr_good | with_reducible apply State.ite_good | with_reducible apply State.foldl_good

theorem execRqSel_good {sel : BitVec 16} {s : State} (h1 : s.Good kl kd) : Out.Good kl kd (execRqSel sel s) := by
  unfold execRqSel
  repeat' first
    | with_reducible assumption | extract_lets +onlyGivenNames x | with_reducible apply State.rqSelect_good
    | with_reducible apply State.ite_good | with_reducible apply Out.next_good

theorem State.tierEdge_good {s : State} (h0 : s.Good kl kd) : (State.tierEdge s).Good kl kd := by
  unfold State.tierEdge
  repeat' first
    | with_reducible assumption | intro _
    | (extract_lets +onlyGivenNames x; refine (fun (_ : State.Good kl kd x) => ?_) ?_; clear_value x; rotate_left; subst x)
    | (extract_lets +onlyGivenNames x; refine (fun (_ : State.Good kl kd x.1) => ?_) ?_; clear_value x; rotate_left; subst x)
    | extract_lets +onlyGivenNames x | with_reducible apply State.updTier_good | with_reducible apply State.rewriteEntries_good
    | with_reducible apply State.syncTier_good | with_reducible apply State.reclaimSilo_good
    | with_reducible apply State.cancelPark_good | with_reducible apply State.tierCommand_good | with_reducible apply State.wr_good
    | with_reducible apply State.ite_good | with_reducible apply State.foldl_good | with_reducible apply State.foldl_fst_good | split

theorem State.closeReq_good {s : State} {p n : Nat} (h0 : s.Good kl kd) : (s.closeReq p n).Good kl kd := by
  unfold State.closeReq
  repeat' first
    | with_reducible assumption
    | (extract_lets +onlyGivenNames x; refine (fun (_ : State.Good kl kd x) => ?_) ?_; clear_value x; rotate_left; subst x)
    | extract_lets +onlyGivenNames x | with_reducible apply State.tierEvent_good | with_reducible apply State.freeSiloPages_good
    | with_reducible apply State.freeGranary_good | with_reducible apply State.dropMove_good | with_reducible apply State.updTier_good
    | with_reducible apply State.updReq_good

theorem State.tierPublish_good {s : State} {p : Nat} (h0 : s.Good kl kd) : (s.tierPublish p).Good kl kd := by
  unfold State.tierPublish
  repeat' first
    | with_reducible assumption | intro _
    | (extract_lets +onlyGivenNames x; refine (fun (_ : State.Good kl kd x) => ?_) ?_; clear_value x; rotate_left; subst x)
    | extract_lets +onlyGivenNames x | with_reducible apply State.updTier_good | with_reducible apply State.tierEvent_good
    | with_reducible apply State.failReq_good | with_reducible apply State.closeReq_good | with_reducible apply State.foldl_good

/-! ### Trail -/

theorem State.putUnit_good {s : State} {p : Nat} {bs : List Byte} (h0 : s.Good kl kd) : (s.putUnit p bs).Good kl kd := by
  unfold State.putUnit
  repeat' first
    | with_reducible assumption
    | (extract_lets +onlyGivenNames x; refine (fun (_ : State.Good kl kd x) => ?_) ?_; clear_value x; rotate_left; subst x)
    | extract_lets +onlyGivenNames x | with_reducible apply State.partFatal_good | with_reducible apply State.writeGran_good
    | with_reducible apply State.wr_good | with_reducible apply State.ite_good | split

theorem State.putUnits_good {s : State} {p : Nat} {bs : List Byte} {n : Nat} (h0 : s.Good kl kd) : (s.putUnits p bs n).Good kl kd :=
    by
  unfold State.putUnits
  repeat' first
    | with_reducible assumption | intro _ | extract_lets +onlyGivenNames x | with_reducible apply State.putUnit_good
    | with_reducible apply State.foldl_good

theorem State.putRec_good {s : State} {p : Nat} {r : TrailRec} (h0 : s.Good kl kd) : (s.putRec p r).Good kl kd := by
  unfold State.putRec
  repeat' first
    | with_reducible assumption
    | (extract_lets +onlyGivenNames x; refine (fun (_ : State.Good kl kd x) => ?_) ?_; clear_value x; rotate_left; subst x)
    | extract_lets +onlyGivenNames x | with_reducible apply State.putUnits_good | with_reducible apply State.bump_good
    | with_reducible apply State.ite_good

theorem State.writeRec_good {s : State} {p : Nat} {r : TrailRec} (h0 : s.Good kl kd) : (s.writeRec p r).Good kl kd := by
  unfold State.writeRec
  repeat' first
    | with_reducible assumption
    | (extract_lets +onlyGivenNames x; refine (fun (_ : State.Good kl kd x) => ?_) ?_; clear_value x; rotate_left; subst x)
    | extract_lets +onlyGivenNames x | with_reducible apply State.updPart_good | with_reducible apply State.putRec_good
    | with_reducible apply State.bump_good | with_reducible apply State.ite_good

/-! ### Messages -/

theorem State.onMsg_good {s : State} {type : Nat} {m : Option LinkMsg} {go : LinkMsg → State → State} (h0 : s.Good kl kd) (h3
    : ∀ x3_0 x3_1, x3_1.Good kl kd → (go x3_0 x3_1).Good kl kd) : (s.onMsg type m go).Good kl kd := by
  unfold State.onMsg
  split
  · split
    · rename_i s' m' hm
      have h1 : s'.Good kl kd := by have := State.takeMsg_good (type := type) (m := m) h0; rwa [hm] at this
      split
      · exact State.deliverOr_good h1 fun t ht => h3 _ _ ht
      · exact h0
    · exact h0
  · exact h0

theorem State.openWindow_good {s : State} {c : Nat} {cmd : Cmd} (h0 : s.Good kl kd) : (s.openWindow c cmd).Good kl kd := by
  unfold State.openWindow
  repeat' first
    | with_reducible assumption
    | (extract_lets +onlyGivenNames x; refine (fun (_ : State.Good kl kd x) => ?_) ?_; clear_value x; rotate_left; subst x)
    | extract_lets +onlyGivenNames x | with_reducible apply State.wr_good | with_reducible apply State.updWindow_good

theorem State.refuseWindow_good {s : State} {c code : Nat} (h0 : s.Good kl kd) : (s.refuseWindow c code).Good kl kd := by
  unfold State.refuseWindow
  repeat' first
    | with_reducible assumption | extract_lets +onlyGivenNames x | with_reducible apply State.logCore_good
    | with_reducible apply State.bump_good | with_reducible apply State.wr_good

theorem execWopen_good {core : BitVec 9} {cmd : Cmd} {s : State} (h2 : s.Good kl kd) : Out.Good kl kd (execWopen core cmd s) := by
  unfold execWopen
  repeat' first
    | with_reducible assumption | intro _ | extract_lets +onlyGivenNames x | with_reducible apply State.engRun_good
    | with_reducible apply State.retire_good | with_reducible apply State.openWindow_good | with_reducible apply State.refuseWindow_good
    | with_reducible apply State.ite_good | with_reducible apply Out.next_good

theorem execWclose_good {core : BitVec 9} {cmd : Cmd} {s : State} (h2 : s.Good kl kd) : Out.Good kl kd (execWclose core cmd s) := by
  unfold execWclose
  repeat' first
    | with_reducible assumption | intro _ | extract_lets +onlyGivenNames x | with_reducible apply State.engRun_good
    | with_reducible apply State.retire_good | with_reducible apply State.updWindow_good | with_reducible apply State.ite_good
    | with_reducible apply Out.next_good

theorem execWsend_good {core : BitVec 9} {cmd : Cmd} {s : State} (h2 : s.Good kl kd) : Out.Good kl kd (execWsend core cmd s) := by
  unfold execWsend
  repeat' first
    | with_reducible assumption | intro _ | extract_lets +onlyGivenNames x | with_reducible apply State.engRun_good
    | with_reducible apply State.guarded_good | with_reducible apply State.wr_good | with_reducible apply State.placeSq_good
    | with_reducible apply State.takeCredit_good | with_reducible apply State.ite_good | with_reducible apply Out.next_good | split

theorem State.takeBlock_good {s : State} {p : Nat} {m : LinkMsg} (h0 : s.Good kl kd) : (s.takeBlock p m).Good kl kd := by
  unfold State.takeBlock
  repeat' first
    | with_reducible assumption | extract_lets +onlyGivenNames x | with_reducible apply State.updPart_good
    | with_reducible apply State.ite_good

theorem State.takeWrite_good {s : State} {m : LinkMsg} (h0 : s.Good kl kd) : (s.takeWrite m).Good kl kd := by
  unfold State.takeWrite
  repeat' first
    | with_reducible assumption
    | (extract_lets +onlyGivenNames x; refine (fun (_ : State.Good kl kd x.1) => ?_) ?_; clear_value x; rotate_left; subst x)
    | extract_lets +onlyGivenNames x | with_reducible apply State.takeBlock_good | with_reducible apply State.landWrite_good
    | with_reducible apply State.sendMsg_good | with_reducible apply State.ite_good

theorem execWwrite_good {m : Option LinkMsg} {s : State} (h1 : s.Good kl kd) : Out.Good kl kd (execWwrite m s) := by
  unfold execWwrite
  repeat' first
    | with_reducible assumption | intro _ | extract_lets +onlyGivenNames x | with_reducible apply State.onMsg_good
    | with_reducible apply State.takeWrite_good | with_reducible apply Out.next_good

theorem State.takeAck_good {s : State} {c num st : Nat} (h0 : s.Good kl kd) : (s.takeAck c num st).Good kl kd := by
  unfold State.takeAck
  repeat' first
    | with_reducible assumption
    | (extract_lets +onlyGivenNames x; refine (fun (_ : State.Good kl kd x) => ?_) ?_; clear_value x; rotate_left; subst x)
    | extract_lets +onlyGivenNames x | with_reducible apply State.logCore_good | with_reducible apply State.bump_good
    | with_reducible apply State.drainSq_good | with_reducible apply State.updSq_good | with_reducible apply State.ite_good | split

theorem execWack_good {m : Option LinkMsg} {s : State} (h1 : s.Good kl kd) : Out.Good kl kd (execWack m s) := by
  unfold execWack
  repeat' first
    | with_reducible assumption | intro _ | extract_lets +onlyGivenNames x | with_reducible apply State.onMsg_good
    | with_reducible apply State.takeAck_good | with_reducible apply State.ite_good | with_reducible apply Out.next_good

theorem State.grantCore_good {s : State} {c : Nat} {e : CreditEnt} {closed : Bool} (h0 : s.Good kl kd) :
    (s.grantCore c e closed).Good kl kd := by
  unfold State.grantCore
  repeat' first
    | with_reducible assumption | extract_lets +onlyGivenNames x | with_reducible apply State.syncCred_good
    | with_reducible apply State.updCore_good | with_reducible apply State.bump_good | with_reducible apply State.ite_good | split

theorem State.grantCirc_good {s : State} {k gen n : Nat} {closed : Bool} (h0 : s.Good kl kd) :
    (s.grantCirc k gen n closed).Good kl kd := by
  unfold State.grantCirc
  repeat' first
    | with_reducible assumption | extract_lets +onlyGivenNames x | with_reducible apply State.updNet_good
    | with_reducible apply State.ite_good

theorem State.takeGrant_good {s : State} {m : LinkMsg} (h0 : s.Good kl kd) : (s.takeGrant m).Good kl kd := by
  unfold State.takeGrant
  repeat' first
    | with_reducible assumption | extract_lets +onlyGivenNames x | with_reducible apply State.grantCirc_good
    | with_reducible apply State.grantCore_good | with_reducible apply State.ite_good

theorem execCgrant_good {m : Option LinkMsg} {s : State} (h1 : s.Good kl kd) : Out.Good kl kd (execCgrant m s) := by
  unfold execCgrant
  repeat' first
    | with_reducible assumption | intro _ | extract_lets +onlyGivenNames x | with_reducible apply State.onMsg_good
    | with_reducible apply State.takeGrant_good | with_reducible apply Out.next_good

theorem State.windowReturn_good {s : State} {c v : Nat} (h0 : s.Good kl kd) : (s.windowReturn c v).Good kl kd := by
  unfold State.windowReturn
  repeat' first
    | with_reducible assumption
    | (extract_lets +onlyGivenNames x; refine (fun (_ : State.Good kl kd x) => ?_) ?_; clear_value x; rotate_left; subst x)
    | extract_lets +onlyGivenNames x | with_reducible apply State.wr_good | with_reducible apply State.updWindow_good
    | with_reducible apply State.sendMsg_good | with_reducible apply State.ite_good

theorem State.windowGrant_good {s : State} {c v : Nat} (h0 : s.Good kl kd) : (s.windowGrant c v).Good kl kd := by
  unfold State.windowGrant
  repeat' first
    | with_reducible assumption | extract_lets +onlyGivenNames x | with_reducible apply State.sendMsg_good
    | with_reducible apply State.updWindow_good | with_reducible apply State.wr_good | with_reducible apply State.ite_good

theorem State.slabIn_good {s : State} {n : Nat} {m : LinkMsg} {x : Slab} {t : State} (h0 : s.Good kl kd) (h : s.slabIn n m x = some t)
    : t.Good kl kd := by
  unfold State.slabIn at h
  split at h
  · cases h
    exact h0
  · exact State.feedNode_good h0 h

theorem State.onSlab_good {s : State} {type : Nat} {m : Option LinkMsg} {go : LinkMsg → State → Option State} (h0 : s.Good kl kd) (hg
    : ∀ m t u, t.Good kl kd → go m t = some u → u.Good kl kd) : (s.onSlab type m go).Good kl kd := by
  unfold State.onSlab
  split
  · split
    · rename_i s' m' hm
      have h1 : s'.Good kl kd := by have := State.takeMsg_good (type := type) (m := m) h0; rwa [hm] at this
      split
      · exact h0
      · split
        · cases hgo : go m' s' with
          | none => exact h0
          | some u => exact hg _ _ _ h1 hgo
        · exact State.sendMsg_good (State.bump_good h1)
    · exact h0
  · exact h0

theorem execRadd_good {m : Option LinkMsg} {s : State} (h1 : s.Good kl kd) : Out.Good kl kd (execRadd m s) := by
  unfold execRadd
  refine Out.next_good (State.onSlab_good h1 fun m t u ht hu => ?_)
  split at hu
  · exact State.slabIn_good ht hu
  · cases hu
    exact ht

theorem State.takePoison_good {s : State} {m : LinkMsg} (h0 : s.Good kl kd) : (s.takePoison m).Good kl kd := by
  unfold State.takePoison
  repeat' first
    | with_reducible assumption
    | (extract_lets +onlyGivenNames x; refine (fun (_ : State.Good kl kd x) => ?_) ?_; clear_value x; rotate_left; subst x)
    | extract_lets +onlyGivenNames x | with_reducible apply State.consume_good | with_reducible apply State.drawn_good
    | with_reducible apply State.landGrans_good | with_reducible apply State.raise_good | with_reducible apply State.ite_good

theorem execPoison_good {m : Option LinkMsg} {s : State} (h1 : s.Good kl kd) : Out.Good kl kd (execPoison m s) := by
  unfold execPoison
  refine Out.next_good (State.onSlab_good h1 fun m t u ht hu => ?_)
  split at hu
  · split at hu
    · exact State.slabIn_good ht hu
    · cases hu
      exact ht
  · cases hu
    exact State.takePoison_good ht

theorem execSnap_good {port : BitVec 5} {m : Option LinkMsg} {s : State} (h2 : s.Good kl kd) : Out.Good kl kd (execSnap port m s) := by
  unfold execSnap
  refine Out.next_good ?_
  split
  · split
    · rename_i s' m' hm
      have h1 : s'.Good kl kd := by have := State.takeMsg_good (type := 0x06) (m := m) h2; rwa [hm] at this
      dsimp only
      split
      · exact h2
      · split
        · exact h1
        · have h3 : ∀ xs : List Nat, (xs.foldl (fun s n => if n ≠ port.toNat ∧ s.portUp n then s.queueMsg n m' else s)
              (s'.updNet fun k => { k with snaps := k.snaps ++ [(msgSrcMod m', m'.arg1.toNat / 65536 % 65536)] })).Good kl kd := fun _ =>
            State.foldl_good (State.updNet_good h1) fun _ _ h => State.ite_good (State.queueMsg_good h) h
          have h3 := h3 (List.range 24)
          split
          · exact State.bump_good h3
          · refine State.wr_good ?_
            exact ⟨h3.mem, h3.regs, h3.power⟩
    · exact h2
  · exact h2

theorem State.confirm_good {s : State} {n i : Nat} (h0 : s.Good kl kd) : (s.confirm n i).Good kl kd := by
  unfold State.confirm
  repeat' first
    | with_reducible assumption
    | (extract_lets +onlyGivenNames x; refine (fun (_ : State.Good kl kd x) => ?_) ?_; clear_value x; rotate_left; subst x)
    | extract_lets +onlyGivenNames x | with_reducible apply State.wr_good | with_reducible apply State.queueMsg_good
    | with_reducible apply State.ite_good

theorem State.takeCset_good {s : State} {n : Nat} {m : LinkMsg} (h0 : s.Good kl kd) : (s.takeCset n m).Good kl kd := by
  unfold State.takeCset
  refine State.queueMsg_good ?_
  split
  · exact State.confirm_good h0
  · exact h0

theorem execCset_good {m : Option LinkMsg} {s : State} (h1 : s.Good kl kd) : Out.Good kl kd (execCset m s) := by
  unfold execCset
  repeat' first
    | with_reducible assumption | intro _ | extract_lets +onlyGivenNames x | with_reducible apply State.onMsg_good
    | with_reducible apply State.takeCset_good | with_reducible apply State.ite_good | with_reducible apply Out.next_good

theorem execCsetAck_good {m : Option LinkMsg} {s : State} (h1 : s.Good kl kd) : Out.Good kl kd (execCsetAck m s) := by
  unfold execCsetAck
  repeat' first
    | with_reducible assumption | intro _ | extract_lets +onlyGivenNames x | with_reducible apply State.onMsg_good
    | with_reducible apply State.confirm_good | with_reducible apply State.ite_good | with_reducible apply Out.next_good | split

theorem execCommit_good {m : Option LinkMsg} {s : State} (h1 : s.Good kl kd) : Out.Good kl kd (execCommit m s) := by
  unfold execCommit
  repeat' first
    | with_reducible assumption | intro _
    | (extract_lets +onlyGivenNames x; refine (fun (_ : State.Good kl kd x) => ?_) ?_; clear_value x; rotate_left; subst x)
    | extract_lets +onlyGivenNames x | with_reducible apply State.onMsg_good | with_reducible apply State.updPart_good
    | with_reducible apply State.sendMsg_good | with_reducible apply State.ite_good | with_reducible apply Out.next_good

theorem execNoteAck_good {m : Option LinkMsg} {s : State} (h1 : s.Good kl kd) : Out.Good kl kd (execNoteAck m s) := by
  unfold execNoteAck
  repeat' first
    | with_reducible assumption | intro _ | extract_lets +onlyGivenNames x | with_reducible apply State.onMsg_good
    | with_reducible apply State.updPart_good | with_reducible apply Out.next_good

theorem State.takeMgmt_good {s : State} {m : LinkMsg} (h0 : s.Good kl kd) : (s.takeMgmt m).Good kl kd := by
  unfold State.takeMgmt
  repeat' first
    | with_reducible assumption | intro _ | extract_lets +onlyGivenNames x | with_reducible apply State.updPart_good
    | with_reducible apply State.refuse_good | with_reducible apply State.sendMsg_good | with_reducible apply State.partFatal_good
    | with_reducible apply State.ite_good | with_reducible apply State.foldl_good

theorem execMgmt_good {m : Option LinkMsg} {taken : Bool} {s : State} (h2 : s.Good kl kd) : Out.Good kl kd (execMgmt m taken s) := by
  unfold execMgmt
  repeat' first
    | with_reducible assumption | intro _ | extract_lets +onlyGivenNames x | with_reducible apply State.onMsg_good
    | with_reducible apply State.takeMgmt_good | with_reducible apply State.updNet_good | with_reducible apply State.bump_good
    | with_reducible apply State.ite_good | with_reducible apply Out.next_good

/-! ### Cells -/

theorem State.updBank_good {s : State} {c a b : Nat} {f : BankSt → BankSt} (h0 : s.Good kl kd) : (s.updBank c a b f).Good kl kd :=
    by
  unfold State.updBank
  repeat' first
    | with_reducible assumption | with_reducible apply State.updCore_good

theorem State.setCells_good {s : State} {c : Nat} {a : Nat} {b : Nat} {ls : List (Nat × Nat × Nat × Nat)} (h0 : s.Good kl kd) :
    (State.setCells s c a b ls).Good kl kd := by
  unfold State.setCells
  repeat' first
    | with_reducible assumption | intro _
    | (extract_lets +onlyGivenNames x; refine (fun (_ : State.Good kl kd x) => ?_) ?_; clear_value x; rotate_left; subst x)
    | (extract_lets +onlyGivenNames x; refine (fun (_ : State.Good kl kd x.1) => ?_) ?_; clear_value x; rotate_left; subst x)
    | extract_lets +onlyGivenNames x | with_reducible apply State.updCore_good | with_reducible apply State.ite_good
    | with_reducible apply State.foldl_good | with_reducible apply State.foldl_fst_good | split

theorem State.programCells_good {s : State} {c : Nat} {a : Nat} {b : Nat} {ls : List (Nat × Nat × Nat × Nat)} (h0 : s.Good kl kd) :
    (State.programCells s c a b ls).Good kl kd := by
  unfold State.programCells
  repeat' first
    | with_reducible assumption | intro _
    | (extract_lets +onlyGivenNames x; refine (fun (_ : State.Good kl kd x) => ?_) ?_; clear_value x; rotate_left; subst x)
    | (extract_lets +onlyGivenNames x; refine (fun (_ : State.Good kl kd x.1) => ?_) ?_; clear_value x; rotate_left; subst x)
    | extract_lets +onlyGivenNames x | with_reducible apply State.setCells_good | with_reducible apply State.ite_good | split

theorem State.programBlock_good {s : State} {c : Nat} {b : Nat} {fmt : Nat} {cols : Nat} {p : Piece} {ws : List Int} (h0 : s.Good kl kd) :
    (State.programBlock s c b fmt cols p ws).Good kl kd := by
  unfold State.programBlock
  repeat' first
    | with_reducible assumption | intro _
    | (extract_lets +onlyGivenNames x; refine (fun (_ : State.Good kl kd x) => ?_) ?_; clear_value x; rotate_left; subst x)
    | extract_lets +onlyGivenNames x | with_reducible apply State.programCells_good | with_reducible apply State.ite_good | split

theorem State.programImage_good {s : State} {c b fmt : Nat} {a : List (Nat × Piece × List Byte × Nat)} (h0 : s.Good kl kd) :
    (State.programImage s c b fmt a).1.Good kl kd := by
  induction a generalizing s with
  | nil => exact h0
  | cons x r ih =>
    unfold State.programImage
    split
    · exact h0
    · exact ih (State.programBlock_good h0)

theorem State.fillColumn_good {s : State} {c : Nat} {a : Nat} {b : Nat} {k : Nat} {ls : List (Nat × Nat × Nat × Nat)} {u : Nat} (h0 : s.Good kl kd) :
    (State.fillColumn s c a b k ls u).Good kl kd := by
  unfold State.fillColumn
  repeat' first
    | with_reducible assumption | intro _
    | (extract_lets +onlyGivenNames x; refine (fun (_ : State.Good kl kd x) => ?_) ?_; clear_value x; rotate_left; subst x)
    | (extract_lets +onlyGivenNames x; refine (fun (_ : State.Good kl kd x.1) => ?_) ?_; clear_value x; rotate_left; subst x)
    | extract_lets +onlyGivenNames x | with_reducible apply State.updCore_good | with_reducible apply State.setCells_good
    | with_reducible apply State.ite_good | split

theorem State.writeHealth_good {s : State} {c : Nat} {pa : Nat} {b : Nat} (h0 : s.Good kl kd) :
    (State.writeHealth s c pa b).Good kl kd := by
  unfold State.writeHealth
  repeat' first
    | with_reducible assumption | intro _
    | (extract_lets +onlyGivenNames x; refine (fun (_ : State.Good kl kd x) => ?_) ?_; clear_value x; rotate_left; subst x)
    | extract_lets +onlyGivenNames x | with_reducible apply State.updCore_good | with_reducible apply State.ite_good | split

theorem State.writeHealths_good {s : State} {c : Nat} {b : Nat} {arrays : List Nat} (h0 : s.Good kl kd) :
    (State.writeHealths s c b arrays).Good kl kd := by
  unfold State.writeHealths
  repeat' first
    | with_reducible assumption | intro _
    | (extract_lets +onlyGivenNames x; refine (fun (_ : State.Good kl kd x) => ?_) ?_; clear_value x; rotate_left; subst x)
    | extract_lets +onlyGivenNames x | with_reducible apply State.writeHealth_good | with_reducible apply State.ite_good
    | with_reducible apply State.foldl_good | with_reducible apply State.foldl_fst_good | split

theorem State.syncArrays_good {s : State} {c : Nat} (h0 : s.Good kl kd) : (s.syncArrays c).Good kl kd := by
  unfold State.syncArrays
  repeat' first
    | with_reducible assumption | extract_lets +onlyGivenNames x | with_reducible apply State.wr_good

theorem State.defectEvent_good {s : State} {c : Nat} (h0 : s.Good kl kd) : (s.defectEvent c).Good kl kd := by
  unfold State.defectEvent
  repeat' first
    | with_reducible assumption | extract_lets +onlyGivenNames x | with_reducible apply State.wr_good

theorem State.addWear_good {s : State} {c a b : Nat} {hot : Bool} (h0 : s.Good kl kd) : (s.addWear c a b hot).Good kl kd := by
  unfold State.addWear
  repeat' first
    | with_reducible assumption
    | (extract_lets +onlyGivenNames x; refine (fun (_ : State.Good kl kd x) => ?_) ?_; clear_value x; rotate_left; subst x)
    | extract_lets +onlyGivenNames x | with_reducible apply State.updBank_good | with_reducible apply State.wr_good
    | with_reducible apply State.ite_good

theorem State.syncDue_good {s : State} {c : Nat} (h0 : s.Good kl kd) : (s.syncDue c).Good kl kd := by
  unfold State.syncDue
  repeat' first
    | with_reducible assumption | with_reducible apply State.wr_good

theorem State.takeMargin_good {s : State} {c : Nat} {a : Nat} {b : Nat} {m : Nat} {fresh : Bool} {verified : Bool} (h0 : s.Good kl kd) :
    (State.takeMargin s c a b m fresh verified).Good kl kd := by
  unfold State.takeMargin
  repeat' first
    | with_reducible assumption | intro _
    | (extract_lets +onlyGivenNames x; refine (fun (_ : State.Good kl kd x) => ?_) ?_; clear_value x; rotate_left; subst x)
    | (extract_lets +onlyGivenNames x; refine (fun (_ : State.Good kl kd x.1) => ?_) ?_; clear_value x; rotate_left; subst x)
    | extract_lets +onlyGivenNames x | with_reducible apply State.trailWset_good | with_reducible apply State.updBank_good
    | with_reducible apply State.wr_good | with_reducible apply State.ite_good | with_reducible apply State.foldl_good
    | with_reducible apply State.foldl_fst_good | split

theorem State.weErr_good {s : State} {c code set : Nat} (h0 : s.Good kl kd) : (s.weErr c code set).Good kl kd := by
  unfold State.weErr
  repeat' first
    | with_reducible assumption | extract_lets +onlyGivenNames x | with_reducible apply State.wr_good

theorem State.syncPasses_good {s : State} {c : Nat} (h0 : s.Good kl kd) : (s.syncPasses c).Good kl kd := by
  unfold State.syncPasses
  repeat' first
    | with_reducible assumption | extract_lets +onlyGivenNames x | with_reducible apply State.wr_good

theorem State.updPass_good {s : State} {c id : Nat} {f : Pass → Pass} (h0 : s.Good kl kd) : (s.updPass c id f).Good kl kd := by
  unfold State.updPass
  repeat' first
    | with_reducible assumption | extract_lets +onlyGivenNames x | with_reducible apply State.syncPasses_good
    | with_reducible apply State.updCore_good

theorem State.addPass_good {s : State} {c : Nat} {p : Pass} (h0 : s.Good kl kd) : (s.addPass c p).Good kl kd := by
  unfold State.addPass
  repeat' first
    | with_reducible assumption | extract_lets +onlyGivenNames x | with_reducible apply State.syncPasses_good
    | with_reducible apply State.updCore_good

/-! ### Audit -/

theorem State.updAudits_good {s : State} {c : Nat} {f : List AuditSt → List AuditSt} (h0 : s.Good kl kd) :
    (s.updAudits c f).Good kl kd := by
  unfold State.updAudits
  repeat' first
    | with_reducible assumption | with_reducible apply State.updCore_good

theorem State.sampleProd_good {s : State} {c id : Nat} (h0 : s.Good kl kd) : (s.sampleProd c id).Good kl kd := by
  unfold State.sampleProd
  repeat' first
    | with_reducible assumption | with_reducible apply State.updAudits_good

theorem State.captureProd_good {s : State} {c : Nat} {p : Product} {octs : List (Nat × Int × List Int)} {clipped : Bool} (h0
    : s.Good kl kd) : (s.captureProd c p octs clipped).Good kl kd := by
  unfold State.captureProd
  repeat' first
    | with_reducible assumption
    | (extract_lets +onlyGivenNames x; refine (fun (_ : State.Good kl kd x) => ?_) ?_; clear_value x; rotate_left; subst x)
    | extract_lets +onlyGivenNames x | with_reducible apply State.updAudits_good | with_reducible apply State.bump_good
    | with_reducible apply State.ite_good

theorem State.auditWorst_good {s : State} {c : Nat} {cols : List AuditCol} (h0 : s.Good kl kd) : (s.auditWorst c cols).Good kl kd :=
    by
  unfold State.auditWorst
  repeat' first
    | with_reducible assumption | extract_lets +onlyGivenNames x | with_reducible apply State.wr_good

theorem State.auditOutcome_good {s : State} {c : Nat} {a : AuditSt} (h0 : s.Good kl kd) : (s.auditOutcome c a).Good kl kd := by
  unfold State.auditOutcome
  repeat' first
    | with_reducible assumption
    | (extract_lets +onlyGivenNames x; refine (fun (_ : State.Good kl kd x) => ?_) ?_; clear_value x; rotate_left; subst x)
    | extract_lets +onlyGivenNames x | with_reducible apply State.bump_good | with_reducible apply State.logCore_good
    | with_reducible apply State.calDue_good | with_reducible apply State.trailCore_good | with_reducible apply State.updCore_good
    | with_reducible apply State.wr_good | with_reducible apply State.ite_good | split

theorem State.endAudits_good {s : State} {c : Nat} (h0 : s.Good kl kd) : (s.endAudits c).Good kl kd := by
  unfold State.endAudits
  repeat' first
    | with_reducible assumption | intro _
    | (extract_lets +onlyGivenNames x; refine (fun (_ : State.Good kl kd x) => ?_) ?_; clear_value x; rotate_left; subst x)
    | extract_lets +onlyGivenNames x | with_reducible apply State.updAudits_good | with_reducible apply State.auditOutcome_good
    | with_reducible apply State.ite_good | with_reducible apply State.foldl_good

theorem State.beginAudit_good {s : State} {c p seq : Nat} (h0 : s.Good kl kd) : (s.beginAudit c p seq).Good kl kd := by
  unfold State.beginAudit
  repeat' first
    | with_reducible assumption
    | (extract_lets +onlyGivenNames x; refine (fun (_ : State.Good kl kd x) => ?_) ?_; clear_value x; rotate_left; subst x)
    | extract_lets +onlyGivenNames x | with_reducible apply State.updAudits_good | with_reducible apply State.bump_good
    | with_reducible apply State.ite_good

theorem State.closeAudit_good {s : State} {c : Nat} (h0 : s.Good kl kd) : (s.closeAudit c).Good kl kd := by
  unfold State.closeAudit
  repeat' first
    | with_reducible assumption
    | (extract_lets +onlyGivenNames x; refine (fun (_ : State.Good kl kd x) => ?_) ?_; clear_value x; rotate_left; subst x)
    | extract_lets +onlyGivenNames x | with_reducible apply State.skipWitness_good | with_reducible apply State.bump_good
    | with_reducible apply State.updAudits_good | with_reducible apply State.endAudits_good | with_reducible apply State.ite_good

theorem State.auditPart_good {s : State} {c frame part : Nat} {cols : List AuditCol} (h0 : s.Good kl kd) :
    (s.auditPart c frame part cols).Good kl kd := by
  unfold State.auditPart
  repeat' first
    | with_reducible assumption | extract_lets +onlyGivenNames x | with_reducible apply State.updAudits_good
    | with_reducible apply State.auditWorst_good

end

end Sys2Proof.Machine
end

