-- ==== Sys2Proof/Laws/SoundLink.lean ====
section
/-! SUPPORT. Soundness, and the stops that hold, are kept by the definitions of Matrix, WeightCmds, Passes, Calibration, Testing,
Admission. -/

set_option linter.tactic.unusedName false

namespace Sys2Proof.Machine

section
variable {kl kd : Bool}

/-! ### Matrix -/

theorem State.updProd_good {s : State} {c id : Nat} {f : Product → Product} (h0 : s.Good kl kd) : (s.updProd c id f).Good kl kd :=
    by
  unfold State.updProd
  repeat' first
    | with_reducible assumption | with_reducible apply State.updCore_good

theorem State.mxError_good {s : State} {c code : Nat} {cmd : Cmd} (h0 : s.Good kl kd) : (s.mxError c code cmd).Good kl kd := by
  unfold State.mxError
  repeat' first
    | with_reducible assumption
    | (extract_lets +onlyGivenNames x; refine (fun (_ : State.Good kl kd x) => ?_) ?_; clear_value x; rotate_left; subst x)
    | extract_lets +onlyGivenNames x | with_reducible apply State.wr_good | with_reducible apply State.bump_good
    | with_reducible apply State.consumePoison_good | with_reducible apply State.logCore_good | with_reducible apply State.ite_good

theorem State.prodFail_good {s : State} {c : Nat} {code : Nat} {cmd : Cmd} (h0 : s.Good kl kd) :
    (State.prodFail s c code cmd).Good kl kd := by
  unfold State.prodFail
  repeat' first
    | with_reducible assumption | intro _
    | (extract_lets +onlyGivenNames x; refine (fun (_ : State.Good kl kd x) => ?_) ?_; clear_value x; rotate_left; subst x)
    | extract_lets +onlyGivenNames x | with_reducible apply State.bump_good | with_reducible apply State.updCore_good
    | with_reducible apply State.goNext_good | with_reducible apply State.retire_good | with_reducible apply State.spoilSlab_good
    | with_reducible apply State.serve_good | with_reducible apply State.mxError_good | with_reducible apply State.ite_good
    | with_reducible apply Out.next_good | split

theorem State.beginPulse_good {s : State} {c : Nat} {id : Nat} {f : Product → Product} (h0 : s.Good kl kd) :
    (State.beginPulse s c id f).Good kl kd := by
  unfold State.beginPulse
  repeat' first
    | with_reducible assumption | intro _
    | (extract_lets +onlyGivenNames x; refine (fun (_ : State.Good kl kd x) => ?_) ?_; clear_value x; rotate_left; subst x)
    | extract_lets +onlyGivenNames x | with_reducible apply State.updCore_good | with_reducible apply State.updProd_good
    | with_reducible apply State.ite_good | with_reducible apply Out.next_good | split

theorem State.tryStart_good {s : State} {c : Nat} (h0 : s.Good kl kd) : (State.tryStart s c).Good kl kd := by
  unfold State.tryStart
  repeat' first
    | with_reducible assumption | intro _
    | (extract_lets +onlyGivenNames x; refine (fun (_ : State.Good kl kd x) => ?_) ?_; clear_value x; rotate_left; subst x)
    | extract_lets +onlyGivenNames x | with_reducible apply State.headWait_good | with_reducible apply State.goNext_good
    | with_reducible apply State.updProd_good | with_reducible apply State.beginPulse_good | with_reducible apply State.ite_good
    | split

theorem State.prodIssue_good {s : State} {c : Nat} {cmd : Cmd} {p : Nat} (h0 : s.Good kl kd) : (s.prodIssue c cmd p).Good kl kd :=
    by
  unfold State.prodIssue
  repeat' first
    | with_reducible assumption | intro _
    | (extract_lets +onlyGivenNames x; refine (fun (_ : State.Good kl kd x) => ?_) ?_; clear_value x; rotate_left; subst x)
    | extract_lets +onlyGivenNames x | with_reducible apply State.eccLoftN_good | with_reducible apply State.calAbandon_good
    | with_reducible apply State.useClass_good | with_reducible apply State.serve_good | with_reducible apply State.sampleProd_good
    | with_reducible apply State.updCore_good | with_reducible apply State.goNext_good | with_reducible apply State.tryStart_good
    | with_reducible apply State.requestGrant_good | with_reducible apply State.ite_good | with_reducible apply State.foldl_good

theorem execMprod_good {core : BitVec 9} {cmd : Cmd} {s : State} (h0 : s.Good kl kd) : Out.Good kl kd (execMprod core cmd s) := by
  unfold execMprod
  repeat' first
    | with_reducible assumption | intro _
    | (extract_lets +onlyGivenNames x; refine (fun (_ : State.Good kl kd x) => ?_) ?_; clear_value x; rotate_left; subst x)
    | (extract_lets +onlyGivenNames x; refine (fun (_ : State.Good kl kd x.1) => ?_) ?_; clear_value x; rotate_left; subst x)
    | extract_lets +onlyGivenNames x | with_reducible apply State.syncMx_good | with_reducible apply State.eccLoftN_good
    | with_reducible apply State.headWait_good | with_reducible apply State.hazStop_good | with_reducible apply State.guarded_good
    | with_reducible apply State.engRun_good | with_reducible apply State.prodFail_good | with_reducible apply State.tryStart_good
    | with_reducible apply State.prodIssue_good | with_reducible apply State.ite_good | with_reducible apply State.foldl_good
    | with_reducible apply State.foldl_fst_good | with_reducible apply Out.next_good | split

theorem execMframe_good {core : BitVec 9} {cmd : Cmd} {s : State} (h0 : s.Good kl kd) : Out.Good kl kd (execMframe core cmd s) := by
  unfold execMframe
  repeat' first
    | with_reducible assumption | intro _
    | (extract_lets +onlyGivenNames x; refine (fun (_ : State.Good kl kd x) => ?_) ?_; clear_value x; rotate_left; subst x)
    | extract_lets +onlyGivenNames x | with_reducible apply State.bump_good | with_reducible apply State.updCore_good
    | with_reducible apply State.logCore_good | with_reducible apply State.syncMx_good | with_reducible apply State.retire_good
    | with_reducible apply State.engRun_good | with_reducible apply State.wr_good | with_reducible apply State.ite_good
    | with_reducible apply Out.next_good | split

theorem execGrantAdmit_good {holder : Option (BitVec 6)} {cycles : BitVec 32} {s : State} (h2 : s.Good kl kd) : Out.Good kl kd
    (execGrantAdmit holder cycles s) := by
  unfold execGrantAdmit
  refine Out.next_good ?_
  dsimp only
  split
  · exact h2
  · split
    · split
      · exact State.syncMx_good (State.tryStart_good (State.bump_good (State.admitHolder_good h2)))
      · exact State.admitHolder_good h2
    · exact h2

theorem State.trailFallback_good {s : State} {c : Nat} {p : Product} {step outcome sat : Nat} (h0 : s.Good kl kd) :
    (s.trailFallback c p step outcome sat).Good kl kd := by
  unfold State.trailFallback
  repeat' first
    | with_reducible assumption | with_reducible apply State.trailCore_good

theorem State.staleCheck_good {s : State} {c : Nat} {p : Product} (h0 : s.Good kl kd) : (s.staleCheck c p).Good kl kd := by
  unfold State.staleCheck
  repeat' first
    | with_reducible assumption
    | (extract_lets +onlyGivenNames x; refine (fun (_ : State.Good kl kd x) => ?_) ?_; clear_value x; rotate_left; subst x)
    | extract_lets +onlyGivenNames x | with_reducible apply State.updCore_good | with_reducible apply State.wr_good
    | with_reducible apply State.trailCore_good | with_reducible apply State.logCore_good | with_reducible apply State.ite_good

theorem State.finalise_good {s : State} {c : Nat} {p : Product} (h0 : s.Good kl kd) : (s.finalise c p).Good kl kd := by
  unfold State.finalise
  repeat' first
    | with_reducible assumption | extract_lets +onlyGivenNames x | with_reducible apply State.tryStart_good
    | with_reducible apply State.updProd_good | with_reducible apply State.release_good

theorem State.decideProd_good {s : State} {c : Nat} {p : Product} (h0 : s.Good kl kd) : (s.decideProd c p).Good kl kd := by
  unfold State.decideProd
  repeat' first
    | with_reducible assumption
    | (extract_lets +onlyGivenNames x; refine (fun (_ : State.Good kl kd x) => ?_) ?_; clear_value x; rotate_left; subst x)
    | extract_lets +onlyGivenNames x | with_reducible apply State.staleCheck_good | with_reducible apply State.drawn_good
    | with_reducible apply State.bump_good | with_reducible apply State.logCore_good | with_reducible apply State.updProd_good
    | with_reducible apply State.updCore_good | with_reducible apply State.trailFallback_good
    | with_reducible apply State.clipEvent_good | with_reducible apply State.finalise_good | with_reducible apply State.captureProd_good
    | with_reducible apply State.wr_good | with_reducible apply State.ite_good

theorem execProductDecide_good {core : BitVec 9} {id : Nat} {s : State} (h2 : s.Good kl kd) : Out.Good kl kd
    (execProductDecide core id s) := by
  unfold execProductDecide
  repeat' first
    | with_reducible assumption | extract_lets +onlyGivenNames x | with_reducible apply State.syncMx_good
    | with_reducible apply State.decideProd_good | with_reducible apply State.ite_good | with_reducible apply Out.next_good | split

theorem execFallbackRepeat_good {core : BitVec 9} {id : Nat} {s : State} (h0 : s.Good kl kd) :
    Out.Good kl kd (execFallbackRepeat core id s) := by
  unfold execFallbackRepeat
  repeat' first
    | with_reducible assumption | intro _
    | (extract_lets +onlyGivenNames x; refine (fun (_ : State.Good kl kd x) => ?_) ?_; clear_value x; rotate_left; subst x)
    | (extract_lets +onlyGivenNames x; refine (fun (_ : State.Good kl kd x.1) => ?_) ?_; clear_value x; rotate_left; subst x)
    | extract_lets +onlyGivenNames x | with_reducible apply State.bump_good | with_reducible apply State.syncMx_good
    | with_reducible apply State.beginPulse_good | with_reducible apply State.tryStart_good | with_reducible apply State.ite_good
    | with_reducible apply Out.next_good | split

theorem State.retireFailed_good {s : State} {c a : Nat} (h0 : s.Good kl kd) : (s.retireFailed c a).Good kl kd := by
  induction a generalizing s with
  | zero => exact h0
  | succ n ih =>
    unfold State.retireFailed
    split
    · split
      · exact ih (State.signal_good (State.countRetired_good (State.updCore_good h0)))
      · exact h0
    · exact h0

theorem State.slabOut_good {s : State} {c : Nat} {p : Product} {rest : List Product} (h0 : s.Good kl kd) :
    (s.slabOut c p rest).Good kl kd := by
  unfold State.slabOut
  repeat' first
    | with_reducible assumption
    | (extract_lets +onlyGivenNames x; refine (fun (_ : State.Good kl kd x) => ?_) ?_; clear_value x; rotate_left; subst x)
    | extract_lets +onlyGivenNames x | with_reducible apply State.eccLoftN_good | with_reducible apply State.consumePoison_good
    | with_reducible apply State.bump_good | with_reducible apply State.logCore_good | with_reducible apply State.writeSlab_good
    | with_reducible apply State.signal_good | with_reducible apply State.countRetired_good | with_reducible apply State.updCore_good
    | with_reducible apply State.tryStart_good | with_reducible apply State.retireFailed_good | with_reducible apply State.ite_good

theorem execSlabWrite_good {core : BitVec 9} {s : State} (h0 : s.Good kl kd) : Out.Good kl kd (execSlabWrite core s) := by
  unfold execSlabWrite
  repeat' first
    | with_reducible assumption | intro _
    | (extract_lets +onlyGivenNames x; refine (fun (_ : State.Good kl kd x) => ?_) ?_; clear_value x; rotate_left; subst x)
    | extract_lets +onlyGivenNames x | with_reducible apply State.syncMx_good | with_reducible apply State.hazStop_good
    | with_reducible apply State.slabOut_good | with_reducible apply State.ite_good | with_reducible apply Out.next_good | split

theorem execRefProduct_good {core : BitVec 9} {id : Nat} {s : State} (h2 : s.Good kl kd) : Out.Good kl kd
    (execRefProduct core id s) := by
  unfold execRefProduct
  repeat' first
    | with_reducible assumption | extract_lets +onlyGivenNames x | with_reducible apply State.syncMx_good
    | with_reducible apply State.updProd_good | with_reducible apply State.bump_good | with_reducible apply State.ite_good
    | with_reducible apply Out.next_good | split

theorem State.wsSelect_good {s : State} {c sel : Nat} (h0 : s.Good kl kd) : (s.wsSelect c sel).Good kl kd := by
  unfold State.wsSelect
  repeat' first
    | with_reducible assumption | intro _
    | (extract_lets +onlyGivenNames x; refine (fun (_ : State.Good kl kd x) => ?_) ?_; clear_value x; rotate_left; subst x)
    | extract_lets +onlyGivenNames x | with_reducible apply State.wr_good | with_reducible apply State.foldl_good

theorem execWsSel_good {core : BitVec 9} {sel : BitVec 12} {s : State} (h2 : s.Good kl kd) : Out.Good kl kd (execWsSel core sel s) := by
  unfold execWsSel
  repeat' first
    | with_reducible assumption | extract_lets +onlyGivenNames x | with_reducible apply State.wsSelect_good
    | with_reducible apply State.ite_good | with_reducible apply Out.next_good

/-! ### WeightCmds -/

theorem State.refuseW_good {s : State} {c code : Nat} {cmd : Cmd} {tally : Bool} (h0 : s.Good kl kd) :
    (s.refuseW c code cmd tally).Good kl kd := by
  unfold State.refuseW
  repeat' first
    | with_reducible assumption
    | (extract_lets +onlyGivenNames x; refine (fun (_ : State.Good kl kd x) => ?_) ?_; clear_value x; rotate_left; subst x)
    | extract_lets +onlyGivenNames x | with_reducible apply State.weErr_good | with_reducible apply State.wr_good
    | with_reducible apply State.updCore_good | with_reducible apply State.ite_good

theorem State.install_good {s : State} {c : Nat} {x : WCtx} {cmd : Cmd} {bank st : Nat} (h0 : s.Good kl kd) :
    (s.install c x cmd bank st).Good kl kd := by
  unfold State.install
  repeat' first
    | with_reducible assumption
    | (extract_lets +onlyGivenNames x; refine (fun (_ : State.Good kl kd x) => ?_) ?_; clear_value x; rotate_left; subst x)
    | extract_lets +onlyGivenNames x | with_reducible apply State.updCore_good | with_reducible apply State.updSet_good
    | with_reducible apply State.ite_good

theorem wprogAct_good {s : State} {c : Nat} {x : WCtx} {cmd : Cmd} (h0 : s.Good kl kd) : WRes.Good kl kd (wprogAct s c x cmd) := by
  unfold wprogAct
  repeat' first
    | with_reducible assumption | extract_lets +onlyGivenNames x | with_reducible apply State.addPass_good
    | with_reducible apply State.install_good | with_reducible apply WRes.accepted_good | exact trivial | split

theorem wadoptAct_good {s : State} {c : Nat} {x : WCtx} {cmd : Cmd} (h0 : s.Good kl kd) : WRes.Good kl kd (wadoptAct s c x cmd) := by
  unfold wadoptAct
  repeat' first
    | with_reducible assumption
    | (extract_lets +onlyGivenNames x; refine (fun (_ : State.Good kl kd x) => ?_) ?_; clear_value x; rotate_left; subst x)
    | extract_lets +onlyGivenNames x | with_reducible apply State.install_good | with_reducible apply State.updSet_good
    | with_reducible apply State.addPass_good | with_reducible apply WRes.accepted_good | exact trivial | split

theorem wflipAct_good {s : State} {c : Nat} {x : WCtx} {cmd : Cmd} (h0 : s.Good kl kd) : WRes.Good kl kd (wflipAct s c x cmd) := by
  unfold wflipAct
  repeat' first
    | with_reducible assumption
    | (extract_lets +onlyGivenNames x; refine (fun (_ : State.Good kl kd x) => ?_) ?_; clear_value x; rotate_left; subst x)
    | extract_lets +onlyGivenNames x | with_reducible apply State.updCore_good | with_reducible apply State.wr_good
    | with_reducible apply WRes.accepted_good | exact trivial | split

theorem wrefrAct_good {s : State} {c : Nat} {x : WCtx} {cmd : Cmd} (h0 : s.Good kl kd) : WRes.Good kl kd (wrefrAct s c x cmd) := by
  unfold wrefrAct
  repeat' first
    | with_reducible assumption | extract_lets +onlyGivenNames x | with_reducible apply State.addPass_good
    | with_reducible apply WRes.accepted_good | exact trivial | split

theorem weraseAct_good {s : State} {c : Nat} {x : WCtx} {cmd : Cmd} (h0 : s.Good kl kd) : WRes.Good kl kd (weraseAct s c x cmd) := by
  unfold weraseAct
  repeat' first
    | with_reducible assumption | intro _
    | (extract_lets +onlyGivenNames x; refine (fun (_ : State.Good kl kd x) => ?_) ?_; clear_value x; rotate_left; subst x)
    | extract_lets +onlyGivenNames x | with_reducible apply State.updCore_good | with_reducible apply State.release_good
    | with_reducible apply State.updSet_good | with_reducible apply State.writeHealths_good
    | with_reducible apply State.syncArrays_good | with_reducible apply State.addWear_good
    | with_reducible apply State.syncPasses_good | with_reducible apply State.ite_good | with_reducible apply State.foldl_good
    | with_reducible apply State.foldl_fst_good | with_reducible apply WRes.accepted_good | exact trivial | split

theorem wverifyAct_good {s : State} {c : Nat} {x : WCtx} {cmd : Cmd} (h0 : s.Good kl kd) : WRes.Good kl kd (wverifyAct s c x cmd) := by
  unfold wverifyAct
  repeat' first
    | with_reducible assumption | extract_lets +onlyGivenNames x | with_reducible apply State.addPass_good
    | with_reducible apply WRes.accepted_good | exact trivial | split

theorem State.weightRun_good {s : State} {c : Nat} {cmd : Cmd} {act : State → Nat → WCtx → Cmd → WRes} {tally : Bool} (h0
    : s.Good kl kd) (h3 : ∀ x3_0 x3_1 x3_2 x3_3, x3_0.Good kl kd → WRes.Good kl kd (act x3_0 x3_1 x3_2 x3_3)) :
    (s.weightRun c cmd act tally).Good kl kd := by
  unfold State.weightRun
  refine State.engRun_good h0 fun t ht => ?_
  have hi : (if imageCmd cmd then t.eccImage (wImg cmd) else t).Good kl kd := State.ite_good (State.eccImage_good ht) ht
  generalize (if imageCmd cmd then t.eccImage (wImg cmd) else t) = u at hi
  have ha := h3 u c (u.listCtx c) cmd hi
  dsimp only
  cases hr : act u c (u.listCtx c) cmd with
  | accepted v => rw [hr] at ha; exact State.retire_good ha
  | refused code => exact State.retire_good (State.refuseW_good hi)
  | held => exact hi

theorem execWprog_good {core : BitVec 9} {cmd : Cmd} {s : State} (h2 : s.Good kl kd) : Out.Good kl kd (execWprog core cmd s) := by
  unfold execWprog
  repeat' first
    | with_reducible assumption | intro _ | extract_lets +onlyGivenNames x | with_reducible apply State.weightRun_good
    | with_reducible apply wprogAct_good | with_reducible apply Out.next_good

theorem execWadopt_good {core : BitVec 9} {cmd : Cmd} {s : State} (h2 : s.Good kl kd) : Out.Good kl kd (execWadopt core cmd s) := by
  unfold execWadopt
  repeat' first
    | with_reducible assumption | intro _ | extract_lets +onlyGivenNames x | with_reducible apply State.weightRun_good
    | with_reducible apply wadoptAct_good | with_reducible apply Out.next_good

theorem execWflip_good {core : BitVec 9} {cmd : Cmd} {s : State} (h2 : s.Good kl kd) : Out.Good kl kd (execWflip core cmd s) := by
  unfold execWflip
  repeat' first
    | with_reducible assumption | intro _ | extract_lets +onlyGivenNames x | with_reducible apply State.weightRun_good
    | with_reducible apply wflipAct_good | with_reducible apply Out.next_good

theorem execWrefr_good {core : BitVec 9} {cmd : Cmd} {s : State} (h2 : s.Good kl kd) : Out.Good kl kd (execWrefr core cmd s) := by
  unfold execWrefr
  repeat' first
    | with_reducible assumption | intro _ | extract_lets +onlyGivenNames x | with_reducible apply State.weightRun_good
    | with_reducible apply wrefrAct_good | with_reducible apply Out.next_good

theorem execWerase_good {core : BitVec 9} {cmd : Cmd} {s : State} (h2 : s.Good kl kd) : Out.Good kl kd (execWerase core cmd s) := by
  unfold execWerase
  repeat' first
    | with_reducible assumption | intro _ | extract_lets +onlyGivenNames x | with_reducible apply State.weightRun_good
    | with_reducible apply weraseAct_good | with_reducible apply Out.next_good

theorem execWverify_good {core : BitVec 9} {cmd : Cmd} {s : State} (h2 : s.Good kl kd) : Out.Good kl kd (execWverify core cmd s) := by
  unfold execWverify
  repeat' first
    | with_reducible assumption | intro _ | extract_lets +onlyGivenNames x | with_reducible apply State.weightRun_good
    | with_reducible apply wverifyAct_good | with_reducible apply Out.next_good

theorem State.hostDone_good {s : State} {c res code : Nat} (h0 : s.Good kl kd) : (s.hostDone c res code).Good kl kd := by
  unfold State.hostDone
  repeat' first
    | with_reducible assumption | extract_lets +onlyGivenNames x | with_reducible apply State.msix_good
    | with_reducible apply State.wr_good | with_reducible apply State.updCore_good

theorem State.hostFinish_good {s : State} {c : Nat} {cmd : Cmd} {r : WRes} {tally : Bool} (h0 : s.Good kl kd) (h : WRes.Good kl kd r) :
    (s.hostFinish c cmd r tally).Good kl kd := by
  cases r with
  | accepted v => exact State.hostDone_good (State.signal_good h)
  | refused code => exact State.hostDone_good (State.signal_good (State.refuseW_good h0))
  | held => exact h0

theorem State.hostAct_good {s : State} {c : Nat} {cmd : Cmd} (h0 : s.Good kl kd) : (s.hostAct c cmd).Good kl kd := by
  unfold State.hostAct
  extract_lets
  split
  · exact State.hostFinish_good h0 (wprogAct_good h0)
  · exact State.hostFinish_good h0 (wadoptAct_good h0)
  · exact State.hostFinish_good h0 (wflipAct_good h0)
  · exact State.hostFinish_good h0 (wrefrAct_good h0)
  · exact State.hostFinish_good h0 (weraseAct_good h0)
  · exact State.hostFinish_good h0 (wverifyAct_good h0)
  · exact State.hostDone_good h0

theorem State.takeHostCmd_good {s : State} {c : Nat} (h0 : s.Good kl kd) : (s.takeHostCmd c).Good kl kd := by
  unfold State.takeHostCmd
  repeat' first
    | with_reducible assumption | extract_lets +onlyGivenNames x | with_reducible apply State.hostAct_good
    | with_reducible apply State.eccImage_good | with_reducible apply State.ite_good

/-! ### Passes -/

theorem State.askProgram_good {s : State} {c : Nat} {p : Pass} (h0 : s.Good kl kd) : (s.askProgram c p).Good kl kd := by
  unfold State.askProgram
  repeat' first
    | with_reducible assumption | intro _ | extract_lets +onlyGivenNames x | with_reducible apply State.admitHolder_good
    | with_reducible apply State.requestGrant_good | with_reducible apply State.ite_good | with_reducible apply State.foldl_good

theorem State.endPass_good {s : State} {c id code : Nat} (h0 : s.Good kl kd) : (s.endPass c id code).Good kl kd := by
  unfold State.endPass
  repeat' first
    | with_reducible assumption
    | (extract_lets +onlyGivenNames x; refine (fun (_ : State.Good kl kd x) => ?_) ?_; clear_value x; rotate_left; subst x)
    | extract_lets +onlyGivenNames x | with_reducible apply State.updPass_good | with_reducible apply State.release_good
    | with_reducible apply State.mk_good | exact State.Good.mem ‹_› | exact State.Good.regs ‹_›
    | exact PowerSt.Kept.of_eq (State.Good.power ‹_›) rfl rfl

theorem State.readRefresh_good {s : State} {c : Nat} {p : Pass} (h0 : s.Good kl kd) : (s.readRefresh c p).Good kl kd := by
  unfold State.readRefresh
  repeat' first
    | with_reducible assumption | intro _
    | (extract_lets +onlyGivenNames x; refine (fun (_ : State.Good kl kd x) => ?_) ?_; clear_value x; rotate_left; subst x)
    | extract_lets +onlyGivenNames x | with_reducible apply State.eccImage_good | with_reducible apply State.readBlocks_good
    | with_reducible apply State.ite_good | with_reducible apply State.foldl_good

theorem execPassStart_good {core : BitVec 9} {id : Nat} {s : State} (h2 : s.Good kl kd) : Out.Good kl kd (execPassStart core id s) := by
  unfold execPassStart
  repeat' first
    | with_reducible assumption | intro _
    | (extract_lets +onlyGivenNames x; refine (fun (_ : State.Good kl kd x) => ?_) ?_; clear_value x; rotate_left; subst x)
    | extract_lets +onlyGivenNames x | with_reducible apply State.readRefresh_good | with_reducible apply State.endPass_good
    | with_reducible apply State.weErr_good | with_reducible apply State.wr_good | with_reducible apply State.askProgram_good
    | with_reducible apply State.updPass_good | with_reducible apply State.updSet_good | with_reducible apply State.trailWset_good
    | with_reducible apply State.ite_good | with_reducible apply State.foldl_good | with_reducible apply Out.next_good | split

theorem State.storeCorr_good {s : State} {c : Nat} {b : Nat} {arrays : List Nat} {cols : List CalMeas} {refs : List CalMeas} {t : Int} {time : Nat} (h0 : s.Good kl kd) :
    (State.storeCorr s c b arrays cols refs t time).Good kl kd := by
  unfold State.storeCorr
  repeat' first
    | with_reducible assumption | intro _
    | (extract_lets +onlyGivenNames x; refine (fun (_ : State.Good kl kd x) => ?_) ?_; clear_value x; rotate_left; subst x)
    | extract_lets +onlyGivenNames x | with_reducible apply State.updCal_good | with_reducible apply State.ite_good
    | with_reducible apply State.foldl_good | with_reducible apply State.foldl_fst_good | split

theorem State.retireOctet_good {s : State} {c : Nat} {o : Nat} (h0 : s.Good kl kd) : (State.retireOctet s c o).Good kl kd := by
  unfold State.retireOctet
  repeat' first
    | with_reducible assumption | intro _
    | (extract_lets +onlyGivenNames x; refine (fun (_ : State.Good kl kd x) => ?_) ?_; clear_value x; rotate_left; subst x)
    | extract_lets +onlyGivenNames x | with_reducible apply State.updCore_good | with_reducible apply State.logCore_good
    | with_reducible apply State.wr_good | with_reducible apply State.ite_good | split

theorem State.copyBank_good {s : State} {c : Nat} {a : Nat} {b : Nat} (h0 : s.Good kl kd) : (State.copyBank s c a b).Good kl kd := by
  unfold State.copyBank
  repeat' first
    | with_reducible assumption | intro _
    | (extract_lets +onlyGivenNames x; refine (fun (_ : State.Good kl kd x) => ?_) ?_; clear_value x; rotate_left; subst x)
    | (extract_lets +onlyGivenNames x; refine (fun (_ : State.Good kl kd x.1) => ?_) ?_; clear_value x; rotate_left; subst x)
    | extract_lets +onlyGivenNames x | with_reducible apply State.updCore_good | with_reducible apply State.setCells_good
    | with_reducible apply State.ite_good | split

theorem State.takeSpare_good {s : State} {c : Nat} {a : Nat} (h0 : s.Good kl kd) : (State.takeSpare s c a).Good kl kd := by
  unfold State.takeSpare
  repeat' first
    | with_reducible assumption | intro _
    | (extract_lets +onlyGivenNames x; refine (fun (_ : State.Good kl kd x) => ?_) ?_; clear_value x; rotate_left; subst x)
    | extract_lets +onlyGivenNames x | with_reducible apply State.updCore_good | with_reducible apply State.calDue_good
    | with_reducible apply State.writeHealth_good | with_reducible apply State.syncArrays_good
    | with_reducible apply State.storeCorr_good | with_reducible apply State.copyBank_good | with_reducible apply State.wr_good
    | with_reducible apply State.ite_good | with_reducible apply State.foldl_good | with_reducible apply State.foldl_fst_good | split

theorem State.replaceIn_good {s : State} {c : Nat} {a : Nat} {b : Nat} {hot : Bool} (h0 : s.Good kl kd) :
    (State.replaceIn s c a b hot).1.Good kl kd := by
  unfold State.replaceIn
  repeat' first
    | with_reducible assumption | intro _
    | (extract_lets +onlyGivenNames x; refine (fun (_ : State.Good kl kd x) => ?_) ?_; clear_value x; rotate_left; subst x)
    | extract_lets +onlyGivenNames x | with_reducible apply State.bump_good | with_reducible apply State.updCore_good
    | with_reducible apply State.logCore_good | with_reducible apply State.addWear_good | with_reducible apply State.retireOctet_good
    | with_reducible apply State.copyBank_good | with_reducible apply State.wr_good | with_reducible apply State.ite_good | split

theorem State.countCells_good {s : State} {c : Nat} {b : Nat} {reads : List CellRead} (h0 : s.Good kl kd) :
    (State.countCells s c b reads).Good kl kd := by
  unfold State.countCells
  repeat' first
    | with_reducible assumption | intro _
    | (extract_lets +onlyGivenNames x; refine (fun (_ : State.Good kl kd x) => ?_) ?_; clear_value x; rotate_left; subst x)
    | extract_lets +onlyGivenNames x | with_reducible apply State.updBank_good | with_reducible apply State.ite_good
    | with_reducible apply State.foldl_good | with_reducible apply State.foldl_fst_good | split

theorem State.idleDefect_good {s : State} {c : Nat} {a : Nat} {b : Nat} {pos : Nat} (h0 : s.Good kl kd) :
    (State.idleDefect s c a b pos).1.Good kl kd := by
  unfold State.idleDefect
  repeat' first
    | with_reducible assumption | intro _
    | (extract_lets +onlyGivenNames x; refine (fun (_ : State.Good kl kd x) => ?_) ?_; clear_value x; rotate_left; subst x)
    | (extract_lets +onlyGivenNames x; refine (fun (_ : State.Good kl kd x.1) => ?_) ?_; clear_value x; rotate_left; subst x)
    | extract_lets +onlyGivenNames x | with_reducible apply State.logCore_good | with_reducible apply State.updBank_good
    | with_reducible apply State.fillColumn_good | with_reducible apply State.defectEvent_good | with_reducible apply State.ite_good
    | split

theorem State.passDefects_good {s : State} {c : Nat} {b : Nat} {hot : Bool} {found : PassFindings} {arrays : List Nat} (h0 : s.Good kl kd) :
    (State.passDefects s c b hot found arrays).1.Good kl kd := by
  unfold State.passDefects
  repeat' first
    | with_reducible assumption | intro _
    | (extract_lets +onlyGivenNames x; refine (fun (_ : State.Good kl kd x) => ?_) ?_; clear_value x; rotate_left; subst x)
    | (extract_lets +onlyGivenNames x; refine (fun (_ : State.Good kl kd x.1) => ?_) ?_; clear_value x; rotate_left; subst x)
    | extract_lets +onlyGivenNames x | with_reducible apply State.replaceIn_good | with_reducible apply State.countCells_good
    | with_reducible apply State.idleDefect_good | with_reducible apply State.ite_good | with_reducible apply State.foldl_good
    | with_reducible apply State.foldl_fst_good | split

theorem State.passWear_good {s : State} {c : Nat} {p : Pass} (h0 : s.Good kl kd) : (State.passWear s c p).Good kl kd := by
  unfold State.passWear
  repeat' first
    | with_reducible assumption | intro _
    | (extract_lets +onlyGivenNames x; refine (fun (_ : State.Good kl kd x) => ?_) ?_; clear_value x; rotate_left; subst x)
    | extract_lets +onlyGivenNames x | with_reducible apply State.addWear_good | with_reducible apply State.ite_good
    | with_reducible apply State.foldl_good | with_reducible apply State.foldl_fst_good | split

theorem State.passMargins_good {s : State} {c : Nat} {p : Pass} {reads : List CellRead} {fresh : Bool} (h0 : s.Good kl kd) :
    (State.passMargins s c p reads fresh).Good kl kd := by
  unfold State.passMargins
  repeat' first
    | with_reducible assumption | intro _
    | (extract_lets +onlyGivenNames x; refine (fun (_ : State.Good kl kd x) => ?_) ?_; clear_value x; rotate_left; subst x)
    | extract_lets +onlyGivenNames x | with_reducible apply State.syncArrays_good | with_reducible apply State.syncDue_good
    | with_reducible apply State.takeMargin_good | with_reducible apply State.ite_good | with_reducible apply State.foldl_good
    | with_reducible apply State.foldl_fst_good | split

theorem State.endRepair_good {s : State} {c : Nat} {p : Pass} {found : PassFindings} (h0 : s.Good kl kd) :
    (State.endRepair s c p found).Good kl kd := by
  unfold State.endRepair
  repeat' first
    | with_reducible assumption | intro _
    | (extract_lets +onlyGivenNames x; refine (fun (_ : State.Good kl kd x) => ?_) ?_; clear_value x; rotate_left; subst x)
    | (extract_lets +onlyGivenNames x; refine (fun (_ : State.Good kl kd x.1) => ?_) ?_; clear_value x; rotate_left; subst x)
    | extract_lets +onlyGivenNames x | with_reducible apply State.bump_good | with_reducible apply State.updCore_good
    | with_reducible apply State.trailWset_good | with_reducible apply State.updBank_good | with_reducible apply State.fillColumn_good
    | with_reducible apply State.writeHealth_good | with_reducible apply State.syncArrays_good
    | with_reducible apply State.addWear_good | with_reducible apply State.weErr_good | with_reducible apply State.endPass_good
    | with_reducible apply State.ite_good | with_reducible apply State.foldl_good | with_reducible apply State.foldl_fst_good | split

theorem State.passEnd_good {s : State} {c : Nat} {p : Pass} {found : PassFindings} (h0 : s.Good kl kd) :
    (State.passEnd s c p found).Good kl kd := by
  unfold State.passEnd
  repeat' first
    | with_reducible assumption | intro _
    | (extract_lets +onlyGivenNames x; refine (fun (_ : State.Good kl kd x) => ?_) ?_; clear_value x; rotate_left; subst x)
    | (extract_lets +onlyGivenNames x; refine (fun (_ : State.Good kl kd x.1) => ?_) ?_; clear_value x; rotate_left; subst x)
    | extract_lets +onlyGivenNames x | with_reducible apply State.bump_good | with_reducible apply State.logCore_good
    | with_reducible apply State.updSet_good | with_reducible apply State.readBlocks_good | with_reducible apply State.updBank_good
    | with_reducible apply State.programImage_good | with_reducible apply State.writeHealths_good
    | with_reducible apply State.weErr_good | with_reducible apply State.endPass_good | with_reducible apply State.storeCorr_good
    | with_reducible apply State.passDefects_good | with_reducible apply State.passWear_good
    | with_reducible apply State.passMargins_good | with_reducible apply State.endRepair_good | with_reducible apply State.ite_good
    | with_reducible apply State.foldl_good | with_reducible apply State.foldl_fst_good | split

theorem execPassEnd_good {core : BitVec 9} {id : Nat} {found : PassFindings} {s : State} (h0 : s.Good kl kd) :
    Out.Good kl kd (execPassEnd core id found s) := by
  unfold execPassEnd
  repeat' first
    | with_reducible assumption | intro _
    | (extract_lets +onlyGivenNames x; refine (fun (_ : State.Good kl kd x) => ?_) ?_; clear_value x; rotate_left; subst x)
    | extract_lets +onlyGivenNames x | with_reducible apply State.admitHolder_good | with_reducible apply State.release_good
    | with_reducible apply State.passEnd_good | with_reducible apply State.ite_good | with_reducible apply Out.next_good | split

theorem State.settlePass_good {s : State} {c : Nat} {p : Pass} (h0 : s.Good kl kd) : (s.settlePass c p).Good kl kd := by
  unfold State.settlePass
  repeat' first
    | with_reducible assumption
    | (extract_lets +onlyGivenNames x; refine (fun (_ : State.Good kl kd x) => ?_) ?_; clear_value x; rotate_left; subst x)
    | extract_lets +onlyGivenNames x | with_reducible apply State.updSet_good | with_reducible apply State.trailWset_good
    | with_reducible apply State.raise_good | with_reducible apply State.updCore_good | with_reducible apply State.ite_good | split

theorem State.beginFlip_good {s : State} {c : Nat} {r : FlipReq} (h0 : s.Good kl kd) : (State.beginFlip s c r).Good kl kd := by
  unfold State.beginFlip
  repeat' first
    | with_reducible assumption | intro _
    | (extract_lets +onlyGivenNames x; refine (fun (_ : State.Good kl kd x) => ?_) ?_; clear_value x; rotate_left; subst x)
    | (extract_lets +onlyGivenNames x; refine (fun (_ : State.Good kl kd x.1) => ?_) ?_; clear_value x; rotate_left; subst x)
    | extract_lets +onlyGivenNames x | with_reducible apply State.bump_good | with_reducible apply State.updCore_good
    | with_reducible apply State.trailWset_good | with_reducible apply State.updSet_good | with_reducible apply State.syncPasses_good
    | with_reducible apply State.wr_good | with_reducible apply State.ite_good | with_reducible apply State.foldl_good
    | with_reducible apply State.foldl_fst_good | split

theorem State.settleRepairs_good {s : State} {c : Nat} {arrays : List Nat} (h0 : s.Good kl kd) :
    (State.settleRepairs s c arrays).Good kl kd := by
  unfold State.settleRepairs
  repeat' first
    | with_reducible assumption | intro _
    | (extract_lets +onlyGivenNames x; refine (fun (_ : State.Good kl kd x) => ?_) ?_; clear_value x; rotate_left; subst x)
    | extract_lets +onlyGivenNames x | with_reducible apply State.updBank_good | with_reducible apply State.syncArrays_good
    | with_reducible apply State.takeSpare_good | with_reducible apply State.ite_good | with_reducible apply State.foldl_good
    | with_reducible apply State.foldl_fst_good | split

theorem State.weightEdge_good {s : State} {c : Nat} (h0 : s.Good kl kd) : (State.weightEdge s c).Good kl kd := by
  unfold State.weightEdge
  repeat' first
    | with_reducible assumption | intro _
    | (extract_lets +onlyGivenNames x; refine (fun (_ : State.Good kl kd x) => ?_) ?_; clear_value x; rotate_left; subst x)
    | (extract_lets +onlyGivenNames x; refine (fun (_ : State.Good kl kd x.1) => ?_) ?_; clear_value x; rotate_left; subst x)
    | extract_lets +onlyGivenNames x | with_reducible apply State.updCore_good | with_reducible apply State.raise_good
    | with_reducible apply State.syncArrays_good | with_reducible apply State.syncDue_good
    | with_reducible apply State.syncPasses_good | with_reducible apply State.settlePass_good
    | with_reducible apply State.beginFlip_good | with_reducible apply State.settleRepairs_good | with_reducible apply State.ite_good
    | with_reducible apply State.foldl_good | with_reducible apply State.foldl_fst_good | split

theorem State.endFlip_good {s : State} {c : Nat} {f : Flip} (h0 : s.Good kl kd) : (State.endFlip s c f).Good kl kd := by
  unfold State.endFlip
  repeat' first
    | with_reducible assumption | intro _
    | (extract_lets +onlyGivenNames x; refine (fun (_ : State.Good kl kd x) => ?_) ?_; clear_value x; rotate_left; subst x)
    | (extract_lets +onlyGivenNames x; refine (fun (_ : State.Good kl kd x.1) => ?_) ?_; clear_value x; rotate_left; subst x)
    | extract_lets +onlyGivenNames x | with_reducible apply State.updCore_good | with_reducible apply State.raise_good
    | with_reducible apply State.updSet_good | with_reducible apply State.calFlip_good | with_reducible apply State.updBank_good
    | with_reducible apply State.syncDue_good | with_reducible apply State.syncPasses_good | with_reducible apply State.takeSpare_good
    | with_reducible apply State.settleRepairs_good | with_reducible apply State.ite_good | with_reducible apply State.foldl_good
    | with_reducible apply State.foldl_fst_good | with_reducible apply WRes.accepted_good | exact trivial | split

theorem execFlipSwitchEnd_good {core : BitVec 9} {s : State} (h1 : s.Good kl kd) : Out.Good kl kd (execFlipSwitchEnd core s) := by
  unfold execFlipSwitchEnd
  repeat' first
    | with_reducible assumption | extract_lets +onlyGivenNames x | with_reducible apply State.endFlip_good
    | with_reducible apply Out.next_good | split

theorem execMarginSample_good {core : BitVec 9} {array : BitVec 6} {bank : BitVec 1} {reads : List CellRead} {s : State} (h0 : s.Good kl kd) :
    Out.Good kl kd (execMarginSample core array bank reads s) := by
  unfold execMarginSample
  repeat' first
    | with_reducible assumption | intro _
    | (extract_lets +onlyGivenNames x; refine (fun (_ : State.Good kl kd x) => ?_) ?_; clear_value x; rotate_left; subst x)
    | extract_lets +onlyGivenNames x | with_reducible apply State.syncArrays_good | with_reducible apply State.syncDue_good
    | with_reducible apply State.takeMargin_good | with_reducible apply State.ite_good | with_reducible apply Out.next_good | split

theorem execAutoRefresh_good {core : BitVec 9} {array : BitVec 6} {s : State} (h2 : s.Good kl kd) : Out.Good kl kd
    (execAutoRefresh core array s) := by
  unfold execAutoRefresh
  repeat' first
    | with_reducible assumption | extract_lets +onlyGivenNames x | with_reducible apply State.addPass_good
    | with_reducible apply State.ite_good | with_reducible apply Out.next_good | split

theorem State.addRepair_good {s : State} {c a b n : Nat} {xs : List (Nat × Nat)} (h0 : s.Good kl kd) :
    (s.addRepair c a b xs n).Good kl kd := by
  induction n generalizing s xs with
  | zero => cases xs <;> exact h0
  | succ n ih =>
    cases xs with
    | nil => exact h0
    | cons x r => exact ih (State.addPass_good (State.updBank_good h0))

theorem State.defectIn_good {s : State} {c : Nat} {a : Nat} {b : Nat} {cols : List Nat} {driver : Bool} {act : Bool} (h0 : s.Good kl kd) :
    (State.defectIn s c a b cols driver act).Good kl kd := by
  unfold State.defectIn
  repeat' first
    | with_reducible assumption | intro _
    | (extract_lets +onlyGivenNames x; refine (fun (_ : State.Good kl kd x) => ?_) ?_; clear_value x; rotate_left; subst x)
    | (extract_lets +onlyGivenNames x; refine (fun (_ : State.Good kl kd x.1) => ?_) ?_; clear_value x; rotate_left; subst x)
    | extract_lets +onlyGivenNames x | with_reducible apply State.updCore_good | with_reducible apply State.logCore_good
    | with_reducible apply State.updBank_good | with_reducible apply State.weErr_good | with_reducible apply State.addPass_good
    | with_reducible apply State.retireOctet_good | with_reducible apply State.addRepair_good | with_reducible apply State.wr_good
    | with_reducible apply State.ite_good | split

theorem State.defectActive_good {s : State} {c : Nat} {a : Nat} {cols : List Nat} {driver : Bool} (h0 : s.Good kl kd) :
    (State.defectActive s c a cols driver).Good kl kd := by
  unfold State.defectActive
  repeat' first
    | with_reducible assumption | intro _
    | (extract_lets +onlyGivenNames x; refine (fun (_ : State.Good kl kd x) => ?_) ?_; clear_value x; rotate_left; subst x)
    | extract_lets +onlyGivenNames x | with_reducible apply State.logCore_good | with_reducible apply State.defectEvent_good
    | with_reducible apply State.defectIn_good | with_reducible apply State.ite_good | split

theorem State.tableBad_good {s : State} {c o : Nat} (h0 : s.Good kl kd) : (s.tableBad c o).Good kl kd := by
  unfold State.tableBad
  repeat' first
    | with_reducible assumption | extract_lets +onlyGivenNames x | with_reducible apply State.calDue_good
    | with_reducible apply State.updCal_good

theorem execDefectActive_good {core : BitVec 9} {array : BitVec 6} {cols : List (BitVec 11)} {driver : Bool} {table : Bool} {s : State} (h0 : s.Good kl kd) :
    Out.Good kl kd (execDefectActive core array cols driver table s) := by
  unfold execDefectActive
  repeat' first
    | with_reducible assumption | intro _
    | (extract_lets +onlyGivenNames x; refine (fun (_ : State.Good kl kd x) => ?_) ?_; clear_value x; rotate_left; subst x)
    | extract_lets +onlyGivenNames x | with_reducible apply State.defectActive_good | with_reducible apply State.tableBad_good
    | with_reducible apply State.ite_good | with_reducible apply Out.next_good | split

theorem execRepairDone_good {core : BitVec 9} {done : RepairFindings} {s : State} (h0 : s.Good kl kd) :
    Out.Good kl kd (execRepairDone core done s) := by
  unfold execRepairDone
  repeat' first
    | with_reducible assumption | intro _
    | (extract_lets +onlyGivenNames x; refine (fun (_ : State.Good kl kd x) => ?_) ?_; clear_value x; rotate_left; subst x)
    | extract_lets +onlyGivenNames x | with_reducible apply State.endRepair_good | with_reducible apply State.ite_good
    | with_reducible apply Out.next_good | split

/-! ### Calibration -/

theorem execCalForce_good {core : BitVec 9} {s : State} (h1 : s.Good kl kd) : Out.Good kl kd (execCalForce core s) := by
  unfold execCalForce
  repeat' first
    | with_reducible assumption | extract_lets +onlyGivenNames x | with_reducible apply State.calDue_good
    | with_reducible apply State.ite_good | with_reducible apply Out.next_good

theorem execCalAgeExpiry_good {core : BitVec 9} {s : State} (h1 : s.Good kl kd) : Out.Good kl kd (execCalAgeExpiry core s) := by
  unfold execCalAgeExpiry
  repeat' first
    | with_reducible assumption | extract_lets +onlyGivenNames x | with_reducible apply State.calDue_good
    | with_reducible apply State.ite_good | with_reducible apply Out.next_good

theorem execCalRunStart_good {core : BitVec 9} {s : State} (h0 : s.Good kl kd) : Out.Good kl kd (execCalRunStart core s) := by
  unfold execCalRunStart
  repeat' first
    | with_reducible assumption | intro _
    | (extract_lets +onlyGivenNames x; refine (fun (_ : State.Good kl kd x) => ?_) ?_; clear_value x; rotate_left; subst x)
    | extract_lets +onlyGivenNames x | with_reducible apply State.bump_good | with_reducible apply State.updCal_good
    | with_reducible apply State.skipWitness_good | with_reducible apply State.wr_good | with_reducible apply State.ite_good
    | with_reducible apply Out.next_good | split

theorem State.calTarget_good {s : State} {c : Nat} {found : CalFindings} (h0 : s.Good kl kd) :
    (State.calTarget s c found).Good kl kd := by
  unfold State.calTarget
  repeat' first
    | with_reducible assumption | intro _
    | (extract_lets +onlyGivenNames x; refine (fun (_ : State.Good kl kd x) => ?_) ?_; clear_value x; rotate_left; subst x)
    | (extract_lets +onlyGivenNames x; refine (fun (_ : State.Good kl kd x.1) => ?_) ?_; clear_value x; rotate_left; subst x)
    | extract_lets +onlyGivenNames x | with_reducible apply State.updCal_good | with_reducible apply State.ite_good
    | with_reducible apply State.foldl_good | with_reducible apply State.foldl_fst_good | split

theorem State.declareFaults_good {s : State} {c : Nat} {found : CalFindings} {a : Nat} (h0 : s.Good kl kd) :
    (State.declareFaults s c found a).Good kl kd := by
  unfold State.declareFaults
  repeat' first
    | with_reducible assumption | intro _
    | (extract_lets +onlyGivenNames x; refine (fun (_ : State.Good kl kd x) => ?_) ?_; clear_value x; rotate_left; subst x)
    | extract_lets +onlyGivenNames x | with_reducible apply State.bump_good | with_reducible apply State.updCal_good
    | with_reducible apply State.defectIn_good | with_reducible apply State.defectActive_good | with_reducible apply State.wr_good
    | with_reducible apply State.ite_good | split

theorem State.calFinish_good {s : State} {c : Nat} {found : CalFindings} (h0 : s.Good kl kd) :
    (State.calFinish s c found).Good kl kd := by
  unfold State.calFinish
  repeat' first
    | with_reducible assumption | intro _
    | (extract_lets +onlyGivenNames x; refine (fun (_ : State.Good kl kd x) => ?_) ?_; clear_value x; rotate_left; subst x)
    | extract_lets +onlyGivenNames x | with_reducible apply State.bump_good | with_reducible apply State.calTarget_good
    | with_reducible apply State.declareFaults_good | with_reducible apply State.wr_good | with_reducible apply State.ite_good
    | with_reducible apply State.foldl_good | with_reducible apply State.foldl_fst_good | split

theorem execCalRunEnd_good {core : BitVec 9} {found : CalFindings} {s : State} (h2 : s.Good kl kd) : Out.Good kl kd
    (execCalRunEnd core found s) := by
  unfold execCalRunEnd
  repeat' first
    | with_reducible assumption | extract_lets +onlyGivenNames x | with_reducible apply State.calFinish_good
    | with_reducible apply State.ite_good | with_reducible apply Out.next_good

/-! ### Testing -/

theorem execAuditWitness_good {core : BitVec 9} {meas : List (BitVec 6 × BitVec 10 × Int)} {s : State} (h0 : s.Good kl kd) :
    Out.Good kl kd (execAuditWitness core meas s) := by
  unfold execAuditWitness
  repeat' first
    | with_reducible assumption | intro _
    | (extract_lets +onlyGivenNames x; refine (fun (_ : State.Good kl kd x) => ?_) ?_; clear_value x; rotate_left; subst x)
    | extract_lets +onlyGivenNames x | with_reducible apply State.updAudits_good | with_reducible apply State.endAudits_good
    | with_reducible apply State.auditPart_good | with_reducible apply State.wr_good | with_reducible apply State.ite_good
    | with_reducible apply Out.next_good | split

theorem execAuditTile_good {core : BitVec 9} {s : State} (h1 : s.Good kl kd) : Out.Good kl kd (execAuditTile core s) := by
  unfold execAuditTile
  repeat' first
    | with_reducible assumption
    | (extract_lets +onlyGivenNames x; refine (fun (_ : State.Good kl kd x) => ?_) ?_; clear_value x; rotate_left; subst x)
    | extract_lets +onlyGivenNames x | with_reducible apply State.updAudits_good | with_reducible apply State.endAudits_good
    | with_reducible apply State.auditPart_good | with_reducible apply State.ite_good | with_reducible apply Out.next_good | split

theorem State.syncGlean_good {s : State} (h0 : s.Good kl kd) : (s.syncGlean).Good kl kd := by
  unfold State.syncGlean
  repeat' first
    | with_reducible assumption
    | (extract_lets +onlyGivenNames x; refine (fun (_ : State.Good kl kd x) => ?_) ?_; clear_value x; rotate_left; subst x)
    | extract_lets +onlyGivenNames x | with_reducible apply State.wr_good | with_reducible apply State.ite_good | split

theorem State.updGlean_good {s : State} {c : Nat} {f : Glean → Glean} (h0 : s.Good kl kd) : (s.updGlean c f).Good kl kd := by
  unfold State.updGlean
  repeat' first
    | extract_lets +onlyGivenNames x | with_reducible apply State.syncGlean_good | with_reducible apply State.mk_good
    | exact State.Good.mem ‹_› | exact State.Good.regs ‹_› | exact State.Good.power ‹_›

theorem State.dropGleans_good {s : State} {which : Nat → Bool} (h0 : s.Good kl kd) : (s.dropGleans which).Good kl kd := by
  unfold State.dropGleans
  repeat' first
    | extract_lets +onlyGivenNames x | with_reducible apply State.syncGlean_good | with_reducible apply State.mk_good
    | exact State.Good.mem ‹_› | exact State.Good.regs ‹_› | exact State.Good.power ‹_›

theorem State.gleanGo_good {s : State} (h0 : s.Good kl kd) : (s.gleanGo).Good kl kd := by
  unfold State.gleanGo
  repeat' first
    | with_reducible assumption | extract_lets +onlyGivenNames x | with_reducible apply State.wr_good
    | with_reducible apply State.syncGlean_good | with_reducible apply State.ite_good | with_reducible apply State.mk_good
    | exact State.Good.mem ‹_› | exact State.Good.regs ‹_› | exact State.Good.power ‹_›

theorem execGlGo_good {s : State} (h0 : s.Good kl kd) : Out.Good kl kd (execGlGo s) := by
  unfold execGlGo
  repeat' first
    | with_reducible assumption | extract_lets +onlyGivenNames x | with_reducible apply State.gleanGo_good
    | with_reducible apply State.ite_good | with_reducible apply Out.next_good

theorem State.gleanTake_good {s : State} (h0 : s.Good kl kd) : (s.gleanTake).Good kl kd := by
  unfold State.gleanTake
  repeat' first
    | extract_lets +onlyGivenNames x | with_reducible apply State.syncGlean_good | with_reducible apply State.mk_good
    | exact State.Good.mem ‹_› | exact State.Good.regs ‹_› | exact State.Good.power ‹_›

theorem State.gleanDone_good {s : State} {c : Nat} (h0 : s.Good kl kd) : (s.gleanDone c).Good kl kd := by
  unfold State.gleanDone
  repeat' first
    | with_reducible assumption | extract_lets +onlyGivenNames x | with_reducible apply State.msix_good
    | with_reducible apply State.updGlean_good | with_reducible apply State.ite_good | split

theorem State.countKernel_good {s : State} {owner : Option Nat} (h0 : s.Good kl kd) : (State.countKernel s owner).Good kl kd := by
  unfold State.countKernel
  repeat' first
    | with_reducible assumption | intro _
    | (extract_lets +onlyGivenNames x; refine (fun (_ : State.Good kl kd x) => ?_) ?_; clear_value x; rotate_left; subst x)
    | extract_lets +onlyGivenNames x | with_reducible apply State.bump_good | with_reducible apply State.ite_good | split

theorem State.passSlot_good {s : State} {c : Nat} {k : Nat} {maint : Bool} (h0 : s.Good kl kd) :
    (State.passSlot s c k maint).Good kl kd := by
  unfold State.passSlot
  repeat' first
    | with_reducible assumption | intro _
    | (extract_lets +onlyGivenNames x; refine (fun (_ : State.Good kl kd x) => ?_) ?_; clear_value x; rotate_left; subst x)
    | extract_lets +onlyGivenNames x | with_reducible apply State.wr_good | with_reducible apply State.ite_good | split

theorem execGleanKernel_good {core : BitVec 9} {fails : Option Word} {s : State} (h0 : s.Good kl kd) :
    Out.Good kl kd (execGleanKernel core fails s) := by
  unfold execGleanKernel
  repeat' first
    | with_reducible assumption | intro _
    | (extract_lets +onlyGivenNames x; refine (fun (_ : State.Good kl kd x) => ?_) ?_; clear_value x; rotate_left; subst x)
    | extract_lets +onlyGivenNames x | with_reducible apply State.updCore_good | with_reducible apply State.logCore_good
    | with_reducible apply State.scrubLoft_good | with_reducible apply State.skipWitness_good
    | with_reducible apply State.endAudits_good | with_reducible apply State.updGlean_good | with_reducible apply State.gleanDone_good
    | with_reducible apply State.countKernel_good | with_reducible apply State.passSlot_good | with_reducible apply State.ite_good
    | with_reducible apply Out.next_good | split

/-! ### Admission -/

theorem State.edgeMsix_good {s : State} {fn v : Nat} (h0 : s.Good kl kd) : (s.edgeMsix fn v).Good kl kd := by
  unfold State.edgeMsix
  repeat' first
    | with_reducible assumption | extract_lets +onlyGivenNames x | with_reducible apply State.msix_good
    | with_reducible apply State.updHost_good | with_reducible apply State.ite_good

theorem State.cqEntry_good {s : State} {p c : Nat} {e : List Byte} (h0 : s.Good kl kd) : (s.cqEntry p c e).Good kl kd := by
  unfold State.cqEntry
  repeat' first
    | with_reducible assumption
    | (extract_lets +onlyGivenNames x; refine (fun (_ : State.Good kl kd x) => ?_) ?_; clear_value x; rotate_left; subst x)
    | extract_lets +onlyGivenNames x | with_reducible apply State.sendHost_good | with_reducible apply State.wr_good

theorem State.writeOut_good {s : State} {p c : Nat} {es : List (List Byte)} (h0 : s.Good kl kd) : (s.writeOut p c es).Good kl kd :=
    by
  unfold State.writeOut
  repeat' first
    | with_reducible assumption | intro _
    | (extract_lets +onlyGivenNames x; refine (fun (_ : State.Good kl kd x) => ?_) ?_; clear_value x; rotate_left; subst x)
    | extract_lets +onlyGivenNames x | with_reducible apply State.cqEntry_good | with_reducible apply State.sendHost_good
    | with_reducible apply State.edgeMsix_good | with_reducible apply State.ite_good | with_reducible apply State.foldl_good

theorem State.writeTierEvents_good {s : State} {p : Nat} (h0 : s.Good kl kd) : (s.writeTierEvents p).Good kl kd := by
  unfold State.writeTierEvents
  repeat' first
    | with_reducible assumption
    | (extract_lets +onlyGivenNames x; refine (fun (_ : State.Good kl kd x) => ?_) ?_; clear_value x; rotate_left; subst x)
    | extract_lets +onlyGivenNames x | with_reducible apply State.updPart_good | with_reducible apply State.bump_good
    | with_reducible apply State.writeOut_good | with_reducible apply State.ite_good

theorem State.checkReqs_good {s : State} {b : List Byte} (h0 : s.Good kl kd) : (State.checkReqs s b).Good kl kd := by
  unfold State.checkReqs
  repeat' first
    | with_reducible assumption | intro _
    | (extract_lets +onlyGivenNames x; refine (fun (_ : State.Good kl kd x) => ?_) ?_; clear_value x; rotate_left; subst x)
    | (extract_lets +onlyGivenNames x; refine (fun (_ : State.Good kl kd x.1) => ?_) ?_; clear_value x; rotate_left; subst x)
    | extract_lets +onlyGivenNames x | with_reducible apply State.checkReq_good | with_reducible apply State.ite_good
    | with_reducible apply State.foldl_good | with_reducible apply State.foldl_fst_good | split

theorem State.nameReq_good {s : State} {p n : Nat} (h0 : s.Good kl kd) : (s.nameReq p n).Good kl kd := by
  unfold State.nameReq
  repeat' first
    | with_reducible assumption | extract_lets +onlyGivenNames x | with_reducible apply State.cancelPark_good
    | with_reducible apply State.askReturn_good | with_reducible apply State.ite_good

theorem State.readEntry_good {s : State} {p r : Nat} (h0 : s.Good kl kd) : (State.readEntry s p r).1.Good kl kd := by
  unfold State.readEntry
  repeat' first
    | with_reducible assumption | with_reducible apply State.readGran_good | split

theorem State.passEntry_good {s : State} {p r : Nat} {b : List Byte} {o : Nat × Nat} (h0 : s.Good kl kd) :
    (s.passEntry p r b o).Good kl kd := by
  unfold State.passEntry
  repeat' first
    | with_reducible assumption | intro _
    | (extract_lets +onlyGivenNames x; refine (fun (_ : State.Good kl kd x) => ?_) ?_; clear_value x; rotate_left; subst x)
    | extract_lets +onlyGivenNames x | with_reducible apply State.wr_good | with_reducible apply State.bump_good
    | with_reducible apply State.nameReq_good | with_reducible apply State.tierEvent_good | with_reducible apply State.ite_good
    | with_reducible apply State.foldl_good

theorem Taking.one_good {t u : Taking} {p r : Nat} (h0 : t.s.Good kl kd) (h : t.one p r = some u) : u.s.Good kl kd := by
  unfold Taking.one at h
  extract_lets rd rd' at h
  split at h
  · cases h
  · cases h
    have h1 : rd.1.Good kl kd := State.readEntry_good h0
    refine State.passEntry_good ?_
    show State.Good kl kd (if rd.1.entryBad p rd.2.1 rd.2.2 then rd.1 else rd.1.checkReqs rd.2.1)
    exact State.ite_good h1 (State.checkReqs_good h1)

theorem Taking.ring_good {t : Taking} {p r n : Nat} (h0 : t.s.Good kl kd) : (t.ring p r n).s.Good kl kd := by
  induction n generalizing t with
  | zero => exact h0
  | succ n ih =>
    unfold Taking.ring
    split
    · exact h0
    · split
      · exact h0
      · exact ih (Taking.one_good h0 (by assumption))

theorem State.takeEntries_good {s : State} {p : Nat} (h0 : s.Good kl kd) : (State.takeEntries s p).1.Good kl kd := by
  unfold State.takeEntries
  split
  · exact h0
  · have hf : ∀ (xs : List Nat) (t : Taking), t.s.Good kl kd →
        (xs.foldl (fun (t : Taking) r => t.ring p r (t.s.sqWaiting p r)) t).s.Good kl kd := by
      intro xs
      induction xs with
      | nil => intro t h; exact h
      | cons x r ih => intro t h; exact ih _ (Taking.ring_good h)
    exact State.updPart_good (hf _ _ h0)

theorem State.writeRefusals_good {s : State} {p : Nat} {es : List Entry} (h0 : s.Good kl kd) : (s.writeRefusals p es).Good kl kd :=
    by
  unfold State.writeRefusals
  repeat' first
    | with_reducible assumption
    | (extract_lets +onlyGivenNames x; refine (fun (_ : State.Good kl kd x) => ?_) ?_; clear_value x; rotate_left; subst x)
    | extract_lets +onlyGivenNames x | with_reducible apply State.updPart_good | with_reducible apply State.writeOut_good

theorem State.beginEngine_good {s : State} {c : Nat} {e : Engine} {list : Nat} (h0 : s.Good kl kd) :
    (State.beginEngine s c e list).Good kl kd := by
  unfold State.beginEngine
  repeat' first
    | with_reducible assumption | intro _
    | (extract_lets +onlyGivenNames x; refine (fun (_ : State.Good kl kd x) => ?_) ?_; clear_value x; rotate_left; subst x)
    | extract_lets +onlyGivenNames x | with_reducible apply State.setEng_good | with_reducible apply State.wr_good
    | with_reducible apply State.ite_good | split

theorem State.noAllowance_good {s : State} {c : Nat} (h0 : s.Good kl kd) : (State.noAllowance s c).Good kl kd := by
  unfold State.noAllowance
  repeat' first
    | with_reducible assumption | intro _
    | (extract_lets +onlyGivenNames x; refine (fun (_ : State.Good kl kd x) => ?_) ?_; clear_value x; rotate_left; subst x)
    | extract_lets +onlyGivenNames x | with_reducible apply State.wr_good | with_reducible apply State.ite_good | split

theorem State.beginCore_good {s : State} {p : Nat} {c : Nat} (h0 : s.Good kl kd) : (State.beginCore s p c).Good kl kd := by
  unfold State.beginCore
  repeat' first
    | with_reducible assumption | intro _
    | (extract_lets +onlyGivenNames x; refine (fun (_ : State.Good kl kd x) => ?_) ?_; clear_value x; rotate_left; subst x)
    | extract_lets +onlyGivenNames x | with_reducible apply State.updCore_good | with_reducible apply State.partFatal_good
    | with_reducible apply State.stopCore_good | with_reducible apply State.eccLoft_good | with_reducible apply State.beginEngine_good
    | with_reducible apply State.noAllowance_good | with_reducible apply State.ite_good | split

theorem State.restCore_good {s : State} {c : Nat} (h0 : s.Good kl kd) : (State.restCore s c).Good kl kd := by
  unfold State.restCore
  repeat' first
    | with_reducible assumption | intro _
    | (extract_lets +onlyGivenNames x; refine (fun (_ : State.Good kl kd x) => ?_) ?_; clear_value x; rotate_left; subst x)
    | extract_lets +onlyGivenNames x | with_reducible apply State.updCore_good | with_reducible apply State.setEng_good
    | with_reducible apply State.updGlean_good | with_reducible apply State.noAllowance_good | with_reducible apply State.wr_good
    | with_reducible apply State.ite_good | split

theorem State.countDue_good {s : State} {c : Nat} (h0 : s.Good kl kd) : (s.countDue c).Good kl kd := by
  unfold State.countDue
  repeat' first
    | with_reducible assumption | extract_lets +onlyGivenNames x | with_reducible apply State.updCore_good
    | with_reducible apply State.ite_good

theorem State.tellOverdue_good {s : State} {p seq : Nat} (h0 : s.Good kl kd) : (s.tellOverdue p seq).Good kl kd := by
  unfold State.tellOverdue
  repeat' first
    | with_reducible assumption | extract_lets +onlyGivenNames x | with_reducible apply State.sendMsg_good
    | with_reducible apply State.ite_good

theorem State.admitFrame_good {s : State} {p : Nat} {es : List Entry} {maint : Bool} (h0 : s.Good kl kd) :
    (s.admitFrame p es maint).Good kl kd := by
  unfold State.admitFrame
  repeat' first
    | with_reducible assumption | intro _
    | (extract_lets +onlyGivenNames x; refine (fun (_ : State.Good kl kd x) => ?_) ?_; clear_value x; rotate_left; subst x)
    | extract_lets +onlyGivenNames x | with_reducible apply State.writeRec_good | with_reducible apply State.updPart_good
    | with_reducible apply State.wr_good | with_reducible apply State.tellOverdue_good | with_reducible apply State.countDue_good
    | with_reducible apply State.beginAudit_good | with_reducible apply State.restCore_good | with_reducible apply State.beginCore_good
    | with_reducible apply State.putBytes_good | with_reducible apply State.ite_good | with_reducible apply State.foldl_good

end

end Sys2Proof.Machine
end

