-- ==== Sys2Proof/Laws/SoundTier.lean ====
section
/-! SUPPORT. Soundness, and the stops that hold, are kept by the definitions of Link, Boot, Control, Replay, Winnow. -/

set_option linter.tactic.unusedName false

namespace Sys2Proof.Machine

section
variable {kl kd : Bool}

/-! ### Link -/

theorem State.handBack_good {s : State} {n : Nat} (h0 : s.Good kl kd) : (s.handBack n).Good kl kd := by
  unfold State.handBack
  repeat' first
    | with_reducible assumption | intro _
    | (extract_lets +onlyGivenNames x; refine (fun (_ : State.Good kl kd x) => ?_) ?_; clear_value x; rotate_left; subst x)
    | extract_lets +onlyGivenNames x | with_reducible apply State.bump_good | with_reducible apply State.updPort_good
    | with_reducible apply State.undeliverable_good | with_reducible apply State.foldl_good

theorem State.unUp_good {s : State} {n st : Nat} (h0 : s.Good kl kd) : (s.unUp n st).Good kl kd := by
  unfold State.unUp
  repeat' first
    | with_reducible assumption
    | (extract_lets +onlyGivenNames x; refine (fun (_ : State.Good kl kd x) => ?_) ?_; clear_value x; rotate_left; subst x)
    | extract_lets +onlyGivenNames x | with_reducible apply State.wr_good | with_reducible apply State.updPort_good

theorem State.failPort_good {s : State} {n code : Nat} (h0 : s.Good kl kd) : (s.failPort n code).Good kl kd := by
  unfold State.failPort
  repeat' first
    | with_reducible assumption | extract_lets +onlyGivenNames x | with_reducible apply State.logErr_good
    | with_reducible apply State.wr_good | with_reducible apply State.unUp_good

theorem execPortFail_good {port : BitVec 5} {s : State} (h1 : s.Good kl kd) : Out.Good kl kd (execPortFail port s) := by
  unfold execPortFail
  repeat' first
    | with_reducible assumption | extract_lets +onlyGivenNames x | with_reducible apply State.handBack_good
    | with_reducible apply State.ite_good | with_reducible apply Out.next_good

theorem State.startTrain_good {s : State} {n : Nat} {full : Bool} (h0 : s.Good kl kd) : (s.startTrain n full).Good kl kd := by
  unfold State.startTrain
  repeat' first
    | with_reducible assumption
    | (extract_lets +onlyGivenNames x; refine (fun (_ : State.Good kl kd x) => ?_) ?_; clear_value x; rotate_left; subst x)
    | extract_lets +onlyGivenNames x | with_reducible apply State.bump_good | with_reducible apply State.updPort_good
    | with_reducible apply State.unUp_good | with_reducible apply State.ite_good

theorem State.portEnable_good {s : State} {n : Nat} {en : Bool} (h0 : s.Good kl kd) : (s.portEnable n en).Good kl kd := by
  unfold State.portEnable
  repeat' first
    | with_reducible assumption
    | (extract_lets +onlyGivenNames x; refine (fun (_ : State.Good kl kd x) => ?_) ?_; clear_value x; rotate_left; subst x)
    | extract_lets +onlyGivenNames x | with_reducible apply State.wr_good | with_reducible apply State.startTrain_good
    | with_reducible apply State.handBack_good | with_reducible apply State.unUp_good | with_reducible apply State.ite_good

theorem execPortEnable_good {port : BitVec 5} {en : Bool} {s : State} (h2 : s.Good kl kd) : Out.Good kl kd (execPortEnable port en s) :=
    by
  unfold execPortEnable
  repeat' first
    | with_reducible assumption | extract_lets +onlyGivenNames x | with_reducible apply State.portEnable_good
    | with_reducible apply State.ite_good | with_reducible apply Out.next_good

theorem State.retrain_good {s : State} {n : Nat} (h0 : s.Good kl kd) : (s.retrain n).Good kl kd := by
  unfold State.retrain
  repeat' first
    | with_reducible assumption | extract_lets +onlyGivenNames x | with_reducible apply State.startTrain_good
    | with_reducible apply State.ite_good

theorem execRetrain_good {port : BitVec 5} {s : State} (h1 : s.Good kl kd) : Out.Good kl kd (execRetrain port s) := by
  unfold execRetrain
  repeat' first
    | with_reducible assumption | extract_lets +onlyGivenNames x | with_reducible apply State.retrain_good
    | with_reducible apply State.ite_good | with_reducible apply Out.next_good

theorem execPartnerTrain_good {port : BitVec 5} {full : Bool} {s : State} (h2 : s.Good kl kd) : Out.Good kl kd
    (execPartnerTrain port full s) := by
  unfold execPartnerTrain
  repeat' first
    | with_reducible assumption | extract_lets +onlyGivenNames x | with_reducible apply State.startTrain_good
    | with_reducible apply State.ite_good | with_reducible apply Out.next_good

theorem State.showTrain_good {s : State} {n : Nat} {f : TrainFindings} {full : Bool} (h0 : s.Good kl kd) :
    (s.showTrain n f full).Good kl kd := by
  unfold State.showTrain
  repeat' first
    | with_reducible assumption | intro _
    | (extract_lets +onlyGivenNames x; refine (fun (_ : State.Good kl kd x) => ?_) ?_; clear_value x; rotate_left; subst x)
    | extract_lets +onlyGivenNames x | with_reducible apply State.wr_good | with_reducible apply State.ite_good
    | with_reducible apply State.foldl_good

theorem State.showNeighbour_good {s : State} {n : Nat} {f : TrainFindings} (h0 : s.Good kl kd) : (s.showNeighbour n f).Good kl kd :=
    by
  unfold State.showNeighbour
  repeat' first
    | with_reducible assumption
    | (extract_lets +onlyGivenNames x; refine (fun (_ : State.Good kl kd x) => ?_) ?_; clear_value x; rotate_left; subst x)
    | extract_lets +onlyGivenNames x | with_reducible apply State.wr_good | with_reducible apply State.logErr_good
    | with_reducible apply State.ite_good

theorem execTrainDone_good {port : BitVec 5} {found : TrainFindings} {s : State} (h2 : s.Good kl kd) : Out.Good kl kd
    (execTrainDone port found s) := by
  unfold execTrainDone
  repeat' first
    | with_reducible assumption
    | (extract_lets +onlyGivenNames x; refine (fun (_ : State.Good kl kd x) => ?_) ?_; clear_value x; rotate_left; subst x)
    | extract_lets +onlyGivenNames x | with_reducible apply State.showTrain_good | with_reducible apply State.failPort_good
    | with_reducible apply State.wr_good | with_reducible apply State.showNeighbour_good | with_reducible apply State.logErr_good
    | with_reducible apply State.bump_good | with_reducible apply State.updPort_good | with_reducible apply State.flushNotes_good
    | with_reducible apply State.ite_good | with_reducible apply Out.next_good

theorem execTrainFail_good {port : BitVec 5} {code : BitVec 8} {s : State} (h2 : s.Good kl kd) : Out.Good kl kd
    (execTrainFail port code s) := by
  unfold execTrainFail
  repeat' first
    | with_reducible assumption | extract_lets +onlyGivenNames x | with_reducible apply State.failPort_good
    | with_reducible apply State.ite_good | with_reducible apply Out.next_good

theorem execTrainRetry_good {port : BitVec 5} {s : State} (h1 : s.Good kl kd) : Out.Good kl kd (execTrainRetry port s) := by
  unfold execTrainRetry
  repeat' first
    | with_reducible assumption | extract_lets +onlyGivenNames x | with_reducible apply State.startTrain_good
    | with_reducible apply State.ite_good | with_reducible apply Out.next_good

theorem execQuickTrain_good {port : BitVec 5} {cause : BitVec 2} {s : State} (h2 : s.Good kl kd) : Out.Good kl kd
    (execQuickTrain port cause s) := by
  unfold execQuickTrain
  repeat' first
    | with_reducible assumption | extract_lets +onlyGivenNames x | with_reducible apply State.startTrain_good
    | with_reducible apply State.logErr_good | with_reducible apply State.ite_good | with_reducible apply Out.next_good

theorem execTimingExchange_good {port : BitVec 5} {delay : BitVec 20} {s : State} (h2 : s.Good kl kd) : Out.Good kl kd
    (execTimingExchange port delay s) := by
  unfold execTimingExchange
  repeat' first
    | with_reducible assumption
    | (extract_lets +onlyGivenNames x; refine (fun (_ : State.Good kl kd x) => ?_) ?_; clear_value x; rotate_left; subst x)
    | extract_lets +onlyGivenNames x | with_reducible apply State.wr_good | with_reducible apply State.ite_good
    | with_reducible apply Out.next_good

theorem State.beginMsg_good {s : State} {n : Nat} {m : LinkMsg} (h0 : s.Good kl kd) : (s.beginMsg n m).Good kl kd := by
  unfold State.beginMsg
  repeat' first
    | with_reducible assumption | extract_lets +onlyGivenNames x | with_reducible apply State.bump_good
    | with_reducible apply State.updPort_good

theorem State.fillPayload_good {s : State} {n a : Nat} (h0 : s.Good kl kd) : (s.fillPayload n a).Good kl kd := by
  induction a generalizing s with
  | zero => exact h0
  | succ k ih =>
    unfold State.fillPayload
    split
    · exact h0
    · split
      · exact h0
      · exact ih (State.beginMsg_good h0)

theorem State.putWire_good {s : State} {n seq type : Nat} {replay : Bool} {stamp : Nat} {payload : List Byte} (h0 : s.Good kl kd) :
    (s.putWire n seq type replay stamp payload).Good kl kd := by
  unfold State.putWire
  repeat' first
    | with_reducible assumption | extract_lets +onlyGivenNames x | with_reducible apply State.updPort_good

theorem State.sendNew_good {s : State} {n : Nat} (h0 : s.Good kl kd) : (s.sendNew n).Good kl kd := by
  unfold State.sendNew
  repeat' first
    | with_reducible assumption
    | (extract_lets +onlyGivenNames x; refine (fun (_ : State.Good kl kd x) => ?_) ?_; clear_value x; rotate_left; subst x)
    | extract_lets +onlyGivenNames x | with_reducible apply State.putWire_good | with_reducible apply State.updPort_good

theorem State.sendAgain_good {s : State} {n : Nat} {h : Held} (h0 : s.Good kl kd) : (s.sendAgain n h).Good kl kd := by
  unfold State.sendAgain
  repeat' first
    | with_reducible assumption
    | (extract_lets +onlyGivenNames x; refine (fun (_ : State.Good kl kd x) => ?_) ?_; clear_value x; rotate_left; subst x)
    | extract_lets +onlyGivenNames x | with_reducible apply State.bump_good | with_reducible apply State.putWire_good
    | with_reducible apply State.updPort_good

theorem execFlitTx_good {port : BitVec 5} {s : State} (h1 : s.Good kl kd) : Out.Good kl kd (execFlitTx port s) := by
  unfold execFlitTx
  repeat' first
    | with_reducible assumption
    | (extract_lets +onlyGivenNames x; refine (fun (_ : State.Good kl kd x) => ?_) ?_; clear_value x; rotate_left; subst x)
    | extract_lets +onlyGivenNames x | with_reducible apply State.sendNew_good | with_reducible apply State.fillPayload_good
    | with_reducible apply State.sendAgain_good | with_reducible apply State.putWire_good | with_reducible apply State.ite_good
    | with_reducible apply Out.next_good | split

theorem State.countFec_good {s : State} {n : Nat} {f : FecCounts} (h0 : s.Good kl kd) : (s.countFec n f).Good kl kd := by
  unfold State.countFec
  repeat' first
    | with_reducible assumption | intro _
    | (extract_lets +onlyGivenNames x; refine (fun (_ : State.Good kl kd x) => ?_) ?_; clear_value x; rotate_left; subst x)
    | extract_lets +onlyGivenNames x | with_reducible apply State.updPort_good | with_reducible apply State.bump_good
    | with_reducible apply State.foldl_good

theorem State.takeAckNak_good {s : State} {n : Nat} {f : Flit} (h0 : s.Good kl kd) : (s.takeAckNak n f).Good kl kd := by
  unfold State.takeAckNak
  repeat' first
    | with_reducible assumption | with_reducible apply State.updPort_good

theorem State.routeIn_good {s : State} {n : Nat} {m : LinkMsg} (h0 : s.Good kl kd) : (State.routeIn s n m).Good kl kd := by
  unfold State.routeIn
  repeat' first
    | with_reducible assumption | intro _
    | (extract_lets +onlyGivenNames x; refine (fun (_ : State.Good kl kd x) => ?_) ?_; clear_value x; rotate_left; subst x)
    | extract_lets +onlyGivenNames x | with_reducible apply State.bump_good | with_reducible apply State.traverse_good
    | with_reducible apply State.updNet_good | with_reducible apply State.putPort_good | with_reducible apply State.undeliverable_good
    | with_reducible apply State.ite_good | split

theorem State.openMsg_good {s : State} {n : Nat} {bs : List Byte} (h0 : s.Good kl kd) : (State.openMsg s n bs).1.Good kl kd := by
  unfold State.openMsg
  repeat' first
    | with_reducible assumption
    | (extract_lets +onlyGivenNames x; refine (fun (_ : State.Good kl kd x) => ?_) ?_; clear_value x; rotate_left; subst x)
    | extract_lets +onlyGivenNames x | with_reducible apply State.updPort_good | with_reducible apply State.partFatal_good
    | with_reducible apply State.bump_good | split

theorem State.badStream_good {s : State} {n : Nat} (h0 : s.Good kl kd) : (s.badStream n).Good kl kd := by
  unfold State.badStream
  repeat' first
    | with_reducible assumption | extract_lets +onlyGivenNames x | with_reducible apply State.handBack_good
    | with_reducible apply State.failPort_good | with_reducible apply State.bump_good

theorem State.unseal_good {s : State} {n : Nat} {prot : Bool} {b : List Byte} (h0 : s.Good kl kd) :
    (State.unseal s n prot b).1.Good kl kd := by
  unfold State.unseal
  repeat' first
    | with_reducible assumption | with_reducible apply State.openMsg_good | split

theorem State.parseRx_good {s : State} {n a : Nat} (h0 : s.Good kl kd) : (s.parseRx n a).Good kl kd := by
  induction a generalizing s with
  | zero => exact h0
  | succ k ih =>
    unfold State.parseRx
    repeat' first
      | with_reducible assumption
      | with_reducible apply ih
      | with_reducible apply State.badStream_good
      | with_reducible apply State.routeIn_good
      | with_reducible apply State.unseal_good
      | with_reducible apply State.updPort_good
      | with_reducible apply State.ite_good
      | split
      | extract_lets +onlyGivenNames x

theorem State.acceptFlit_good {s : State} {n : Nat} {f : Flit} (h0 : s.Good kl kd) : (s.acceptFlit n f).Good kl kd := by
  unfold State.acceptFlit
  repeat' first
    | with_reducible assumption
    | (extract_lets +onlyGivenNames x; refine (fun (_ : State.Good kl kd x) => ?_) ?_; clear_value x; rotate_left; subst x)
    | extract_lets +onlyGivenNames x | with_reducible apply State.logErr_good | with_reducible apply State.bump_good
    | with_reducible apply State.parseRx_good | with_reducible apply State.updPort_good | with_reducible apply State.ite_good

theorem State.rxFlit_good {s : State} {n : Nat} {f : Flit} {cwGood : Bool} {crcGood : Bool} (h0 : s.Good kl kd) :
    (State.rxFlit s n f cwGood crcGood).Good kl kd := by
  unfold State.rxFlit
  repeat' first
    | with_reducible assumption | intro _
    | (extract_lets +onlyGivenNames x; refine (fun (_ : State.Good kl kd x) => ?_) ?_; clear_value x; rotate_left; subst x)
    | extract_lets +onlyGivenNames x | with_reducible apply State.bump_good | with_reducible apply State.updPort_good
    | with_reducible apply State.takeAckNak_good | with_reducible apply State.acceptFlit_good | with_reducible apply State.ite_good
    | split

theorem State.rxFlits_good {s : State} {n a : Nat} (h0 : s.Good kl kd) : (s.rxFlits n a).Good kl kd := by
  induction a generalizing s with
  | zero => exact h0
  | succ k ih =>
    unfold State.rxFlits
    split
    · split
      · exact ih (State.rxFlit_good (State.updPort_good h0))
      · exact h0
    · exact h0

theorem State.rxWord_good {s : State} {n : Nat} {w : List Nat} (h0 : s.Good kl kd) : (State.rxWord s n w).Good kl kd := by
  unfold State.rxWord
  repeat' first
    | with_reducible assumption | intro _
    | (extract_lets +onlyGivenNames x; refine (fun (_ : State.Good kl kd x) => ?_) ?_; clear_value x; rotate_left; subst x)
    | (extract_lets +onlyGivenNames x; refine (fun (_ : State.Good kl kd x.1) => ?_) ?_; clear_value x; rotate_left; subst x)
    | extract_lets +onlyGivenNames x | with_reducible apply State.updPort_good | with_reducible apply State.countFec_good
    | with_reducible apply State.rxFlits_good | with_reducible apply State.readWord_good | with_reducible apply State.ite_good | split

theorem execFlitRx_good {port : BitVec 5} {u : RxUnit} {cwGood : Bool} {crcGood : Bool} {fec : FecCounts} {s : State} (h0 : s.Good kl kd) :
    Out.Good kl kd (execFlitRx port u cwGood crcGood fec s) := by
  unfold execFlitRx
  repeat' first
    | with_reducible assumption | intro _
    | (extract_lets +onlyGivenNames x; refine (fun (_ : State.Good kl kd x) => ?_) ?_; clear_value x; rotate_left; subst x)
    | extract_lets +onlyGivenNames x | with_reducible apply State.updPort_good | with_reducible apply State.countFec_good
    | with_reducible apply State.rxFlit_good | with_reducible apply State.rxWord_good | with_reducible apply State.ite_good
    | with_reducible apply Out.next_good | split

theorem execReplayTimeout_good {port : BitVec 5} {s : State} (h1 : s.Good kl kd) : Out.Good kl kd (execReplayTimeout port s) := by
  unfold execReplayTimeout
  repeat' first
    | with_reducible assumption | extract_lets +onlyGivenNames x | with_reducible apply State.updPort_good
    | with_reducible apply State.ite_good | with_reducible apply Out.next_good

theorem State.switchWrite_good {s : State} {a b : Nat} {en : Bool} (h0 : s.Good kl kd) : (s.switchWrite a b en).Good kl kd := by
  unfold State.switchWrite
  repeat' first
    | with_reducible assumption
    | (extract_lets +onlyGivenNames x; refine (fun (_ : State.Good kl kd x) => ?_) ?_; clear_value x; rotate_left; subst x)
    | extract_lets +onlyGivenNames x | with_reducible apply State.hae_good | with_reducible apply State.wr_good
    | with_reducible apply State.unUp_good | with_reducible apply State.handBack_good | with_reducible apply State.ite_good

theorem execSwEn_good {port peer : BitVec 5} {en : Bool} {s : State} (h3 : s.Good kl kd) : Out.Good kl kd
    (execSwEn port peer en s) := by
  unfold execSwEn
  repeat' first
    | with_reducible assumption | extract_lets +onlyGivenNames x | with_reducible apply State.switchWrite_good
    | with_reducible apply State.ite_good | with_reducible apply Out.next_good

theorem State.keyLoad_good {s : State} {n : Nat} (h0 : s.Good kl kd) : (s.keyLoad n).Good kl kd := by
  unfold State.keyLoad
  repeat' first
    | with_reducible assumption | extract_lets +onlyGivenNames x | with_reducible apply State.hae_good
    | with_reducible apply State.updPort_good | with_reducible apply State.wr_good | with_reducible apply State.ite_good

theorem execKeyLoad_good {port : BitVec 5} {s : State} (h1 : s.Good kl kd) : Out.Good kl kd (execKeyLoad port s) := by
  unfold execKeyLoad
  repeat' first
    | with_reducible assumption | extract_lets +onlyGivenNames x | with_reducible apply State.keyLoad_good
    | with_reducible apply State.ite_good | with_reducible apply Out.next_good

/-! ### Boot -/

theorem State.wrAll_good {s : State} {f : Fld} {v : Nat} (h0 : s.Good kl kd) : (s.wrAll f v).Good kl kd := by
  unfold State.wrAll
  repeat' first
    | with_reducible assumption | intro _ | extract_lets +onlyGivenNames x | with_reducible apply State.wr_good
    | with_reducible apply State.foldl_good

theorem State.loadTables_good {s : State} {b : List Byte} (h0 : s.Good kl kd) : (s.loadTables b).Good kl kd := by
  unfold State.loadTables
  repeat' first
    | with_reducible assumption | intro _
    | (extract_lets +onlyGivenNames x; refine (fun (_ : State.Good kl kd x) => ?_) ?_; clear_value x; rotate_left; subst x)
    | extract_lets +onlyGivenNames x | with_reducible apply State.wr_good | with_reducible apply State.foldl_good

theorem State.loadLimits_good {s : State} {b : List Byte} (h0 : s.Good kl kd) : (s.loadLimits b).Good kl kd := by
  unfold State.loadLimits
  repeat' first
    | with_reducible assumption
    | (extract_lets +onlyGivenNames x; refine (fun (_ : State.Good kl kd x) => ?_) ?_; clear_value x; rotate_left; subst x)
    | extract_lets +onlyGivenNames x | with_reducible apply State.wr_good

theorem State.loadFields_good {s : State} {b : List Byte} {second : Bool} {floor : Nat} (h0 : s.Good kl kd) :
    (State.loadFields s b second floor).Good kl kd := by
  unfold State.loadFields
  repeat' first
    | with_reducible assumption | intro _
    | (extract_lets +onlyGivenNames x; refine (fun (_ : State.Good kl kd x) => ?_) ?_; clear_value x; rotate_left; subst x)
    | extract_lets +onlyGivenNames x | with_reducible apply State.updMgmt_good | with_reducible apply State.updHost_good
    | with_reducible apply State.wrAll_good | with_reducible apply State.loadTables_good | with_reducible apply State.loadLimits_good
    | with_reducible apply State.wr_good | with_reducible apply State.ite_good | split

theorem State.loadConfig_good {s : State} {b : List Byte} {second : Bool} (h0 : s.Good kl kd) : (s.loadConfig b second).Good kl kd := by
  unfold State.loadConfig State.loadFields
  repeat' first
    | with_reducible assumption
    | (extract_lets +onlyGivenNames x; refine (fun (_ : State.Good kl kd x) => ?_) ?_; clear_value x; rotate_left; subst x)
    | extract_lets +onlyGivenNames x | with_reducible apply State.wr_good | with_reducible apply State.loadLimits_good
    | with_reducible apply State.loadTables_good | with_reducible apply State.wrAll_good | with_reducible apply State.updHost_good
    | with_reducible apply State.updMgmt_good

theorem State.sampleStraps_good {s : State} {v : Nat} (h0 : s.Good kl kd) : (s.sampleStraps v).Good kl kd := by
  unfold State.sampleStraps
  repeat' first
    | with_reducible assumption | extract_lets +onlyGivenNames x | with_reducible apply State.updMgmt_good
    | with_reducible apply State.wr_good

theorem State.checkStraps_good {s : State} {b : List Byte} (h0 : s.Good kl kd) : (s.checkStraps b).Good kl kd := by
  unfold State.checkStraps
  repeat' first
    | with_reducible assumption
    | (extract_lets +onlyGivenNames x; refine (fun (_ : State.Good kl kd x) => ?_) ?_; clear_value x; rotate_left; subst x)
    | extract_lets +onlyGivenNames x | with_reducible apply State.logErr_good | with_reducible apply State.wr_good
    | with_reducible apply State.ite_good

theorem State.convFail_good {s : State} {g : Nat} (h0 : s.Good kl kd) : (s.convFail g).Good kl kd := by
  unfold State.convFail
  repeat' first
    | with_reducible assumption
    | (extract_lets +onlyGivenNames x; refine (fun (_ : State.Good kl kd x) => ?_) ?_; clear_value x; rotate_left; subst x)
    | extract_lets +onlyGivenNames x | with_reducible apply State.logErr_good | with_reducible apply State.wr_good
    | with_reducible apply State.devFatal_good | with_reducible apply State.ite_good

theorem State.startGauge_good {s : State} {trims : List (BitVec 2 × BitVec 16 × BitVec 8 × BitVec 8)} (h0 : s.Good kl kd) :
    (s.startGauge trims).Good kl kd := by
  unfold State.startGauge
  repeat' first
    | with_reducible assumption | intro _
    | (extract_lets +onlyGivenNames x; refine (fun (_ : State.Good kl kd x) => ?_) ?_; clear_value x; rotate_left; subst x)
    | extract_lets +onlyGivenNames x | with_reducible apply State.wr_good | with_reducible apply State.convFail_good
    | with_reducible apply State.ite_good | with_reducible apply State.foldl_good

theorem State.bootFail_good {s : State} {code : Nat} (h0 : s.Good kl kd) : (s.bootFail code).Good kl kd := by
  unfold State.bootFail
  repeat' first
    | with_reducible assumption | extract_lets +onlyGivenNames x | with_reducible apply State.wr_good

theorem State.bootConfig_good {s : State} {f : BootFindings} (h0 : s.Good kl kd) : (State.bootConfig s f).1.Good kl kd := by
  unfold State.bootConfig
  repeat' first
    | with_reducible assumption
    | (extract_lets +onlyGivenNames x; refine (fun (_ : State.Good kl kd x) => ?_) ?_; clear_value x; rotate_left; subst x)
    | extract_lets +onlyGivenNames x | with_reducible apply State.wr_good | with_reducible apply State.logErr_good
    | with_reducible apply State.bootFail_good | with_reducible apply State.checkStraps_good
    | with_reducible apply State.loadConfig_good | with_reducible apply State.ite_good | split

theorem State.bootClock_good {s : State} {f : BootFindings} (h0 : s.Good kl kd) : (State.bootClock s f).1.Good kl kd := by
  unfold State.bootClock
  repeat' first
    | with_reducible assumption | intro _
    | (extract_lets +onlyGivenNames x; refine (fun (_ : State.Good kl kd x) => ?_) ?_; clear_value x; rotate_left; subst x)
    | extract_lets +onlyGivenNames x | with_reducible apply State.startGauge_good | with_reducible apply State.wr_good
    | with_reducible apply State.syncTmax_good | with_reducible apply State.startTrain_good | with_reducible apply State.bootFail_good
    | with_reducible apply State.ite_good | with_reducible apply State.foldl_good | split

theorem State.bootHbm_good {s : State} {f : BootFindings} (h0 : s.Good kl kd) : (State.bootHbm s f).1.Good kl kd := by
  unfold State.bootHbm
  repeat' first
    | with_reducible assumption | intro _
    | (extract_lets +onlyGivenNames x; refine (fun (_ : State.Good kl kd x) => ?_) ?_; clear_value x; rotate_left; subst x)
    | extract_lets +onlyGivenNames x | with_reducible apply State.wr_good | with_reducible apply State.logErr_good
    | with_reducible apply State.devFatal_good | with_reducible apply State.bootFail_good | with_reducible apply State.ite_good
    | with_reducible apply State.foldl_good | split

theorem State.bootImage_good {s : State} (h0 : s.Good kl kd) : (s.bootImage).Good kl kd := by
  unfold State.bootImage
  refine State.msix_good (State.wr_good (State.updMem_good h0 fun hm => ?_))
  have hf : ∀ (xs : Mem) (g : Mem), g.wf → (xs.foldl (fun g c => g.wr (imageAddr c.1) c.2) g).wf := by
    intro xs
    induction xs with
    | nil => intro g h; exact h
    | cons x r ih => intro g h; exact ih _ (Mem.wf_wr h _ _)
  exact ⟨hm.loft, hf _ _ hm.granary, hm.host, hm.flash, hm.loadWin, hm.cfgStage, hm.loftPoison, hm.loftClamp, hm.granPoison, hm.loftErr, hm.granErr⟩

theorem execResetRelease_good {straps : BitVec 14} {made : List (BitVec 26 × List Byte)} {found : BootFindings} {s : State} (h3
    : s.Good kl kd) : Out.Good kl kd (execResetRelease straps made found s) := by
  unfold execResetRelease
  refine Out.next_good ?_
  split
  · dsimp only
    have hf : ∀ (xs : List (BitVec 26 × List Byte)) (f : Mem), f.wf → (xs.foldl (fun f x => f.write x.1.toNat x.2) f).wf := by
      intro xs
      induction xs with
      | nil => intro f h; exact h
      | cons x r ih => intro f h; exact ih _ (Mem.wf_write h _ _)
    have h1 : (if s.mem.flash = [] then s.updMem (fun m => { m with flash := made.foldl (fun f x => f.write x.1.toNat x.2) m.flash }) else s).Good kl kd := by
      refine State.ite_good (State.updMem_good h3 fun hm => ?_) h3
      exact ⟨hm.loft, hm.granary, hm.host, hf _ _ hm.flash, hm.loadWin, hm.cfgStage, hm.loftPoison, hm.loftClamp, hm.granPoison, hm.loftErr, hm.granErr⟩
    generalize (if s.mem.flash = [] then s.updMem (fun m => { m with flash := made.foldl (fun f x => f.write x.1.toNat x.2) m.flash }) else s) = a at h1 ⊢
    have h2 : (((a.updMgmt (fun m => { m with released := true })).wr R.mgmt_STAGE 0).sampleStraps straps.toNat).Good kl kd :=
      State.sampleStraps_good (State.wr_good (State.updMgmt_good h1))
    generalize ((a.updMgmt (fun m => { m with released := true })).wr R.mgmt_STAGE 0).sampleStraps straps.toNat = b at h2 ⊢
    split
    · exact State.wr_good h2
    · have hc := State.bootConfig_good (f := found) h2
      generalize b.bootConfig found = c at hc ⊢
      split
      · exact hc
      · split
        · exact State.wr_good hc
        · have hk := State.bootClock_good (f := found) hc
          generalize c.1.bootClock found = k at hk ⊢
          split
          · exact hk
          · split
            · exact State.wr_good hk
            · have hh := State.bootHbm_good (f := found) hk
              generalize k.1.bootHbm found = h at hh ⊢
              split
              · exact hh
              · split
                · exact State.wr_good hh
                · exact State.bootImage_good hh
  · exact h3

theorem execBootStepTimeout_good {s : State} (h0 : s.Good kl kd) : Out.Good kl kd (execBootStepTimeout s) := by
  unfold execBootStepTimeout
  repeat' first
    | with_reducible assumption
    | (extract_lets +onlyGivenNames x; refine (fun (_ : State.Good kl kd x) => ?_) ?_; clear_value x; rotate_left; subst x)
    | extract_lets +onlyGivenNames x | with_reducible apply State.bootFail_good | with_reducible apply State.devFatal_good
    | with_reducible apply State.ite_good | with_reducible apply Out.next_good

theorem State.deviceReset_good {s : State} (h0 : s.Good false false) : s.deviceReset.Good false false := by
  have h := State.flashCut_good h0
  unfold State.deviceReset
  exact ⟨⟨Tbl.wf_nil _, Tbl.wf_nil _, h.mem.host, h.mem.flash, Tbl.wf_nil _, Tbl.wf_nil _, Tbl.wf_nil _, Tbl.wf_nil _, Tbl.wf_nil _,
    Tbl.wf_nil _, Tbl.wf_nil _⟩, Bank.wf_nil, ⟨nofun, nofun⟩⟩

theorem execModRstN_good {s : State} (h0 : s.Good false false) : Out.Good false false (execModRstN s) := by
  unfold execModRstN
  exact Out.next_good (State.ite_good (State.deviceReset_good h0) h0)

theorem execPerstN_good {s : State} (h0 : s.Good kl kd) : Out.Good kl kd (execPerstN s) := by
  unfold execPerstN
  repeat' first
    | with_reducible assumption | extract_lets +onlyGivenNames x | with_reducible apply State.linkDown_good
    | with_reducible apply State.ite_good | with_reducible apply Out.next_good

theorem State.checkImage_good {s : State} {sec lo n : Nat} (h0 : s.Good kl kd) : (s.checkImage sec lo n).Good kl kd := by
  unfold State.checkImage
  repeat' first
    | with_reducible assumption | intro _ | extract_lets +onlyGivenNames x | with_reducible apply State.logErr_good
    | with_reducible apply State.updMem_good | with_reducible apply State.ite_good | with_reducible apply MemSt.mk_wf
    | exact MemSt.wf.loft ‹_› | exact MemSt.wf.granary ‹_› | exact MemSt.wf.host ‹_› | exact MemSt.wf.flash ‹_›
    | exact MemSt.wf.loadWin ‹_› | exact MemSt.wf.cfgStage ‹_› | exact MemSt.wf.loftPoison ‹_› | exact MemSt.wf.loftClamp ‹_› | exact MemSt.wf.granPoison ‹_›
    | exact MemSt.wf.loftErr ‹_› | exact MemSt.wf.granErr ‹_›

theorem State.writeBack_good {s : State} (h0 : s.Good kl kd) : (s.writeBack).Good kl kd := by
  unfold State.writeBack
  repeat' first
    | with_reducible assumption
    | (extract_lets +onlyGivenNames x; refine (fun (_ : State.Good kl kd x) => ?_) ?_; clear_value x; rotate_left; subst x)
    | extract_lets +onlyGivenNames x | with_reducible apply State.checkImage_good | with_reducible apply State.updMgmt_good
    | with_reducible apply State.flashStart_good | with_reducible apply State.ite_good

theorem State.writeSummary_good {s : State} (h0 : s.Good kl kd) : (s.writeSummary).Good kl kd := by
  unfold State.writeSummary
  repeat' first
    | with_reducible assumption
    | (extract_lets +onlyGivenNames x; refine (fun (_ : State.Good kl kd x) => ?_) ?_; clear_value x; rotate_left; subst x)
    | extract_lets +onlyGivenNames x | with_reducible apply State.checkImage_good | with_reducible apply State.updMgmt_good
    | with_reducible apply State.flashStart_good | with_reducible apply State.ite_good

theorem State.repairEdge_good {s : State} (h0 : s.Good kl kd) : (State.repairEdge s).Good kl kd := by
  unfold State.repairEdge
  repeat' first
    | with_reducible assumption | intro _
    | (extract_lets +onlyGivenNames x; refine (fun (_ : State.Good kl kd x) => ?_) ?_; clear_value x; rotate_left; subst x)
    | extract_lets +onlyGivenNames x | with_reducible apply State.updMgmt_good | with_reducible apply State.flashStart_good
    | with_reducible apply State.ite_good | split

theorem execCalWriteback_good {s : State} (h0 : s.Good kl kd) : Out.Good kl kd (execCalWriteback s) := by
  unfold execCalWriteback
  repeat' first
    | with_reducible assumption | extract_lets +onlyGivenNames x | with_reducible apply State.writeBack_good
    | with_reducible apply State.ite_good | with_reducible apply Out.next_good

theorem State.writeConfig_good {s : State} (h0 : s.Good kl kd) : (s.writeConfig).Good kl kd := by
  unfold State.writeConfig
  repeat' first
    | with_reducible assumption | extract_lets +onlyGivenNames x | with_reducible apply State.updMgmt_good
    | with_reducible apply State.flashStart_good | with_reducible apply State.ite_good

theorem State.flashGoOn_good {s : State} (h0 : s.Good kl kd) : (State.flashGoOn s).Good kl kd := by
  unfold State.flashGoOn
  repeat' first
    | with_reducible assumption | intro _
    | (extract_lets +onlyGivenNames x; refine (fun (_ : State.Good kl kd x) => ?_) ?_; clear_value x; rotate_left; subst x)
    | extract_lets +onlyGivenNames x | with_reducible apply State.writeConfig_good | with_reducible apply State.ite_good | split

theorem execFlashWriteDone_good {s : State} (h0 : s.Good kl kd) : Out.Good kl kd (execFlashWriteDone s) := by
  unfold execFlashWriteDone
  repeat' first
    | with_reducible assumption | intro _
    | (extract_lets +onlyGivenNames x; refine (fun (_ : State.Good kl kd x) => ?_) ?_; clear_value x; rotate_left; subst x)
    | extract_lets +onlyGivenNames x | with_reducible apply State.flashEnd_good | with_reducible apply State.updCal_good
    | with_reducible apply State.writeConfig_good | with_reducible apply State.writeSummary_good | with_reducible apply State.ite_good
    | with_reducible apply State.foldl_good | with_reducible apply Out.next_good | split

theorem State.cfgGo_good {s : State} {key : Bool} (h0 : s.Good kl kd) : (s.cfgGo key).Good kl kd := by
  unfold State.cfgGo
  repeat' first
    | with_reducible assumption | extract_lets +onlyGivenNames x | with_reducible apply State.writeConfig_good
    | with_reducible apply State.wr_good | with_reducible apply State.ite_good

theorem execCfgGo_good {key : Bool} {s : State} (h1 : s.Good kl kd) : Out.Good kl kd (execCfgGo key s) := by
  unfold execCfgGo
  repeat' first
    | with_reducible assumption | extract_lets +onlyGivenNames x | with_reducible apply State.cfgGo_good
    | with_reducible apply State.ite_good | with_reducible apply Out.next_good

theorem execSpdmRequest_good {req : List Byte} {secured : List (Option (BitVec 7))} {s : State} (h2 : s.Good kl kd) : Out.Good kl kd
    (execSpdmRequest req secured s) := by
  unfold execSpdmRequest
  repeat' first
    | with_reducible assumption | intro _
    | (extract_lets +onlyGivenNames x; refine (fun (_ : State.Good kl kd x) => ?_) ?_; clear_value x; rotate_left; subst x)
    | extract_lets +onlyGivenNames x | with_reducible apply State.updHost_good | with_reducible apply State.drainHeld_good
    | with_reducible apply State.wr_good | with_reducible apply State.ite_good | with_reducible apply State.foldl_good
    | with_reducible apply Out.next_good | split

/-! ### Control -/

theorem execNop_good {core : BitVec 9} {e : Engine} {cmd : Cmd} {s : State} (h3 : s.Good kl kd) : Out.Good kl kd
    (execNop core e cmd s) :=
    by
  unfold execNop
  repeat' first
    | with_reducible assumption | intro _ | extract_lets +onlyGivenNames x | with_reducible apply State.engRun_good
    | with_reducible apply State.retire_good | with_reducible apply State.ite_good | with_reducible apply Out.next_good

theorem execEofr_good {core : BitVec 9} {e : Engine} {cmd : Cmd} {s : State} (h0 : s.Good kl kd) :
    Out.Good kl kd (execEofr core e cmd s) := by
  unfold execEofr
  repeat' first
    | with_reducible assumption | intro _
    | (extract_lets +onlyGivenNames x; refine (fun (_ : State.Good kl kd x) => ?_) ?_; clear_value x; rotate_left; subst x)
    | extract_lets +onlyGivenNames x | with_reducible apply State.updCore_good | with_reducible apply State.setEng_good
    | with_reducible apply State.countRetired_good | with_reducible apply State.signal_good | with_reducible apply State.engRun_good
    | with_reducible apply State.ite_good | with_reducible apply Out.next_good | split

theorem execJump_good {core : BitVec 9} {e : Engine} {cmd : Cmd} {s : State} (h3 : s.Good kl kd) : Out.Good kl kd
    (execJump core e cmd s) := by
  unfold execJump
  repeat' first
    | with_reducible assumption | intro _ | extract_lets +onlyGivenNames x | with_reducible apply State.engRun_good
    | with_reducible apply State.goTo_good | with_reducible apply State.signal_good | with_reducible apply State.countRetired_good
    | with_reducible apply State.ite_good | with_reducible apply Out.next_good

theorem execQwait_good {core : BitVec 9} {e : Engine} {cmd : Cmd} {s : State} (h0 : s.Good kl kd) :
    Out.Good kl kd (execQwait core e cmd s) := by
  unfold execQwait
  repeat' first
    | with_reducible assumption | intro _
    | (extract_lets +onlyGivenNames x; refine (fun (_ : State.Good kl kd x) => ?_) ?_; clear_value x; rotate_left; subst x)
    | extract_lets +onlyGivenNames x | with_reducible apply State.setEng_good | with_reducible apply State.readHead_good
    | with_reducible apply State.headWait_good | with_reducible apply State.retire_good | with_reducible apply State.unknown_good
    | with_reducible apply State.engRun_good | with_reducible apply State.ite_good | with_reducible apply Out.next_good | split

theorem execUnknownOpcode_good {core : BitVec 9} {e : Engine} {cmd : Cmd} {s : State} (h0 : s.Good kl kd) :
    Out.Good kl kd (execUnknownOpcode core e cmd s) := by
  unfold execUnknownOpcode
  repeat' first
    | with_reducible assumption | intro _
    | (extract_lets +onlyGivenNames x; refine (fun (_ : State.Good kl kd x) => ?_) ?_; clear_value x; rotate_left; subst x)
    | extract_lets +onlyGivenNames x | with_reducible apply State.readHead_good | with_reducible apply State.unknown_good
    | with_reducible apply State.ite_good | with_reducible apply Out.next_good | split

theorem State.tallyPut_good {s : State} {fn c t v : Nat} (h0 : s.Good kl kd) : (s.tallyPut fn c t v).Good kl kd := by
  unfold State.tallyPut
  repeat' first
    | with_reducible assumption | with_reducible apply State.hae_good | with_reducible apply State.wr_good | split

theorem execTallyWrite_good {fn : BitVec 7} {core : BitVec 9} {t : BitVec 6} {value : BitVec 16} {s : State} (h4 : s.Good kl kd)
    : Out.Good kl kd (execTallyWrite fn core t value s) := by
  unfold execTallyWrite
  repeat' first
    | with_reducible assumption | extract_lets +onlyGivenNames x | with_reducible apply State.tallyPut_good
    | with_reducible apply State.ite_good | with_reducible apply Out.next_good

theorem execPatrolScrub_good {core : BitVec 9} {found : List (BitVec 7 × Bool)} {s : State} (h2 : s.Good kl kd) : Out.Good kl kd
    (execPatrolScrub core found s) := by
  unfold execPatrolScrub
  repeat' first
    | with_reducible assumption | intro _
    | (extract_lets +onlyGivenNames x; refine (fun (_ : State.Good kl kd x) => ?_) ?_; clear_value x; rotate_left; subst x)
    | extract_lets +onlyGivenNames x | with_reducible apply State.eccLoft_good | with_reducible apply State.updCore_good
    | with_reducible apply State.updMem_good | with_reducible apply State.ite_good | with_reducible apply State.foldl_good
    | with_reducible apply Out.next_good | with_reducible apply MemSt.mk_wf | with_reducible apply Tbl.wf_set | exact MemSt.wf.loft ‹_›
    | exact MemSt.wf.granary ‹_› | exact MemSt.wf.host ‹_› | exact MemSt.wf.flash ‹_› | exact MemSt.wf.loadWin ‹_›
    | exact MemSt.wf.cfgStage ‹_› | exact MemSt.wf.loftPoison ‹_› | exact MemSt.wf.loftClamp ‹_› | exact MemSt.wf.granPoison ‹_› | exact MemSt.wf.loftErr ‹_›
    | exact MemSt.wf.granErr ‹_›

/-! ### Replay -/

theorem State.endTrail_good {s : State} {p cause : Nat} (h0 : s.Good kl kd) : (s.endTrail p cause).Good kl kd := by
  unfold State.endTrail
  repeat' first
    | with_reducible assumption | intro _
    | (extract_lets +onlyGivenNames x; refine (fun (_ : State.Good kl kd x) => ?_) ?_; clear_value x; rotate_left; subst x)
    | extract_lets +onlyGivenNames x | with_reducible apply State.writeRec_good | with_reducible apply State.updPart_good
    | with_reducible apply State.foldl_good

theorem State.rpAbort_good {s : State} {p code : Nat} (h0 : s.Good kl kd) : (s.rpAbort p code).Good kl kd := by
  unfold State.rpAbort
  repeat' first
    | with_reducible assumption
    | (extract_lets +onlyGivenNames x; refine (fun (_ : State.Good kl kd x) => ?_) ?_; clear_value x; rotate_left; subst x)
    | extract_lets +onlyGivenNames x | with_reducible apply State.wr_good | with_reducible apply State.logErr_good
    | with_reducible apply State.ite_good

theorem State.rpPass_good {s : State} {p : Nat} {b : List Byte} (h0 : s.Good kl kd) : (s.rpPass p b).Good kl kd := by
  unfold State.rpPass
  repeat' first
    | with_reducible assumption | with_reducible apply State.updPart_good

theorem State.rpSkip_good {s : State} {p a : Nat} (h0 : s.Good kl kd) : (s.rpSkip p a).Good kl kd := by
  induction a generalizing s with
  | zero => exact h0
  | succ n ih =>
    unfold State.rpSkip
    split
    · exact State.ite_good (ih (State.rpPass_good h0)) h0
    · exact h0

theorem State.loadSet_good {s : State} {c run : Nat} {b : List Byte} (h0 : s.Good kl kd) : (s.loadSet c run b).Good kl kd := by
  unfold State.loadSet
  repeat' first
    | with_reducible assumption | extract_lets +onlyGivenNames x | with_reducible apply State.syncCal_good
    | with_reducible apply State.updCal_good

theorem State.adoptSet_good {s : State} {c run : Nat} {b : List Byte} (h0 : s.Good kl kd) : (s.adoptSet c run b).Good kl kd := by
  unfold State.adoptSet
  repeat' first
    | with_reducible assumption
    | (extract_lets +onlyGivenNames x; refine (fun (_ : State.Good kl kd x) => ?_) ?_; clear_value x; rotate_left; subst x)
    | extract_lets +onlyGivenNames x | with_reducible apply State.wr_good | with_reducible apply State.updCal_good
    | with_reducible apply State.rampStep_good | with_reducible apply State.trailCal_good | with_reducible apply State.syncCal_good

theorem State.withSet_good {s : State} {p c run : Nat} {go : State → List Byte → State} (h0 : s.Good kl kd) (h4
    : ∀ x4_0 x4_1, x4_0.Good kl kd → (go x4_0 x4_1).Good kl kd) : (s.withSet p c run go).Good kl kd := by
  unfold State.withSet
  repeat' first
    | with_reducible assumption | extract_lets +onlyGivenNames x | with_reducible apply State.rpAbort_good | with_reducible apply h4
    | with_reducible apply State.ite_good | split

theorem State.rpWset_good {s : State} {p : Nat} {b : List Byte} (h0 : s.Good kl kd) : (s.rpWset p b).Good kl kd := by
  unfold State.rpWset
  repeat' first
    | with_reducible assumption | extract_lets +onlyGivenNames x | with_reducible apply State.rpAbort_good
    | with_reducible apply State.wr_good | with_reducible apply State.ite_good

theorem State.rpOpen_good {s : State} {p : Nat} {b : List Byte} (h0 : s.Good kl kd) : (s.rpOpen p b).Good kl kd := by
  unfold State.rpOpen
  repeat' first
    | with_reducible assumption
    | (extract_lets +onlyGivenNames x; refine (fun (_ : State.Good kl kd x) => ?_) ?_; clear_value x; rotate_left; subst x)
    | extract_lets +onlyGivenNames x | with_reducible apply State.updReq_good | with_reducible apply State.trailEv_good
    | with_reducible apply State.openDone_good

theorem State.rpRecord_good {s : State} {p : Nat} {b : List Byte} (h0 : s.Good kl kd) : (s.rpRecord p b).Good kl kd := by
  unfold State.rpRecord
  repeat' first
    | with_reducible assumption | intro _ | extract_lets +onlyGivenNames x | with_reducible apply State.rpOpen_good
    | with_reducible apply State.withSet_good | with_reducible apply State.adoptSet_good | with_reducible apply State.loadSet_good
    | with_reducible apply State.rpWset_good | with_reducible apply State.ite_good | split

theorem State.rpCompare_good {s : State} {p : Nat} {f : FrameSt} {b : List Byte} (h0 : s.Good kl kd) :
    (s.rpCompare p f b).Good kl kd := by
  unfold State.rpCompare
  repeat' first
    | with_reducible assumption | extract_lets +onlyGivenNames x | with_reducible apply State.rpAbort_good
    | with_reducible apply State.ite_good

theorem State.rpPublish_good {s : State} {p : Nat} {f : FrameSt} {a : Nat} (h0 : s.Good kl kd) : (s.rpPublish p f a).Good kl kd :=
    by
  induction a generalizing s with
  | zero => exact h0
  | succ n ih =>
    unfold State.rpPublish
    have h1 := State.rpSkip_good (p := p) (a := 4096) h0
    generalize s.rpSkip p 4096 = t at h1
    dsimp only
    refine State.ite_good h1 ?_
    split
    · refine State.ite_good (State.rpCompare_good (State.bump_good (State.rpPass_good h1))) (ih (State.rpRecord_good (State.rpPass_good h1)))
    · exact State.rpAbort_good h1
    · exact h1

theorem State.rpEnd_good {s : State} {p : Nat} (h0 : s.Good kl kd) : (s.rpEnd p).Good kl kd := by
  unfold State.rpEnd
  repeat' first
    | with_reducible assumption
    | (extract_lets +onlyGivenNames x; refine (fun (_ : State.Good kl kd x) => ?_) ?_; clear_value x; rotate_left; subst x)
    | extract_lets +onlyGivenNames x | with_reducible apply State.wr_good | with_reducible apply State.endTrail_good
    | with_reducible apply State.ite_good

theorem State.rpEntries_good {s : State} {p seq a : Nat} (h0 : s.Good kl kd) : (State.rpEntries s p seq a).1.Good kl kd := by
  induction a generalizing s with
  | zero => exact h0
  | succ n ih =>
    unfold State.rpEntries
    have h1 := State.rpSkip_good (p := p) (a := 4096) h0
    generalize s.rpSkip p 4096 = t at h1
    dsimp only
    split
    · exact h1
    · split
      · exact h1
      · split
        · exact State.rpAbort_good h1
        · exact ih (State.rpPass_good h1)

theorem State.rpLoad_good {s : State} {p : Nat} {b : List Byte} (h0 : s.Good kl kd) : (s.rpLoad p b).Good kl kd := by
  unfold State.rpLoad
  repeat' first
    | with_reducible assumption | intro _ | extract_lets +onlyGivenNames x | with_reducible apply State.withSet_good
    | with_reducible apply State.wr_good | with_reducible apply State.loadSet_good | with_reducible apply State.ite_good
    | with_reducible apply State.foldl_good

theorem State.rpWsets_good {s : State} {p a : Nat} (h0 : s.Good kl kd) : (s.rpWsets p a).Good kl kd := by
  induction a generalizing s with
  | zero => exact h0
  | succ n ih =>
    unfold State.rpWsets
    have h1 := State.rpSkip_good (p := p) (a := 4096) h0
    generalize s.rpSkip p 4096 = t at h1
    dsimp only
    split
    · exact h1
    · refine State.ite_good h1 ?_
      split
      · exact State.rpAbort_good h1
      · exact ih (State.rpWset_good (State.rpPass_good h1))

theorem State.rpBegin_good {s : State} {p : Nat} (h0 : s.Good kl kd) : (s.rpBegin p).Good kl kd := by
  unfold State.rpBegin
  repeat' first
    | with_reducible assumption
    | (extract_lets +onlyGivenNames x; refine (fun (_ : State.Good kl kd x) => ?_) ?_; clear_value x; rotate_left; subst x)
    | extract_lets +onlyGivenNames x | with_reducible apply State.updPart_good | with_reducible apply State.wr_good
    | with_reducible apply State.rpSkip_good | with_reducible apply State.rpAbort_good | with_reducible apply State.rpLoad_good
    | with_reducible apply State.rpPass_good | with_reducible apply State.rpWsets_good | with_reducible apply State.ite_good | split

theorem State.rpStart_good {s : State} {p : Nat} (h0 : s.Good kl kd) : (s.rpStart p).Good kl kd := by
  unfold State.rpStart
  repeat' first
    | with_reducible assumption | extract_lets +onlyGivenNames x | with_reducible apply State.rpEnd_good
    | with_reducible apply State.rpBegin_good

/-! ### Winnow -/

theorem execWdraw_good {core : BitVec 9} {cmd : Cmd} {s : State} (h2 : s.Good kl kd) : Out.Good kl kd (execWdraw core cmd s) := by
  unfold execWdraw
  repeat' first
    | with_reducible assumption | intro _ | extract_lets +onlyGivenNames x | with_reducible apply State.engRun_good
    | with_reducible apply State.guarded_good | with_reducible apply State.placeSq_good | with_reducible apply State.serve_good
    | with_reducible apply Out.next_good

theorem State.readDraw_good {s : State} {c : Nat} {cmd : Cmd} (h0 : s.Good kl kd) : (State.readDraw s c cmd).1.Good kl kd := by
  unfold State.readDraw
  repeat' first
    | with_reducible assumption
    | (extract_lets +onlyGivenNames x; refine (fun (_ : State.Good kl kd x) => ?_) ?_; clear_value x; rotate_left; subst x)
    | extract_lets +onlyGivenNames x | with_reducible apply State.eccLoftN_good | split

theorem State.updWin_good {s : State} {f : WinSt → WinSt} (h0 : s.Good kl kd) : (s.updWin f).Good kl kd := by
  unfold State.updWin
  repeat' first
    | extract_lets +onlyGivenNames x | with_reducible apply State.mk_good | exact State.Good.mem ‹_› | exact State.Good.regs ‹_›
    | exact State.Good.power ‹_›

theorem State.updDraw_good {s : State} {slot : Nat} {f : Draw → Draw} (h0 : s.Good kl kd) : (s.updDraw slot f).Good kl kd := by
  unfold State.updDraw
  repeat' first
    | with_reducible assumption | with_reducible apply State.updWin_good

theorem State.winErr_good {s : State} {p req code : Nat} (h0 : s.Good kl kd) : (s.winErr p req code).Good kl kd := by
  unfold State.winErr
  repeat' first
    | with_reducible assumption
    | (extract_lets +onlyGivenNames x; refine (fun (_ : State.Good kl kd x) => ?_) ?_; clear_value x; rotate_left; subst x)
    | extract_lets +onlyGivenNames x | with_reducible apply State.wr_good | with_reducible apply State.logErr_good
    | with_reducible apply State.bump_good

theorem State.winFail_good {s : State} {p req code : Nat} (h0 : s.Good kl kd) : (s.winFail p req code).Good kl kd := by
  unfold State.winFail
  repeat' first
    | with_reducible assumption | with_reducible apply State.updPart_good

theorem State.writeRes_good {s : State} {slot : Nat} {bs : List Byte} (h0 : s.Good kl kd) : (s.writeRes slot bs).Good kl kd := by
  unfold State.writeRes
  repeat' first
    | with_reducible assumption | intro _
    | (extract_lets +onlyGivenNames x; refine (fun (_ : State.Good kl kd x) => ?_) ?_; clear_value x; rotate_left; subst x)
    | extract_lets +onlyGivenNames x | with_reducible apply State.putGran_good | with_reducible apply State.traverse_good
    | with_reducible apply State.updCore_good | with_reducible apply State.drainSq_good | with_reducible apply State.ite_good
    | with_reducible apply State.foldl_good

theorem State.readCounts_good {s : State} {p req : Nat} {toks : List Nat} (h0 : s.Good kl kd) :
    (State.readCounts s p req toks).1.Good kl kd := by
  unfold State.readCounts
  repeat' first
    | with_reducible assumption | extract_lets +onlyGivenNames x | with_reducible apply State.readAll_good

theorem State.countRead_good {s : State} {p req t : Nat} (h0 : s.Good kl kd) : (State.countRead s p req t).1.Good kl kd := by
  have h := State.readCounts_good (p := p) (req := req) (toks := [t]) h0
  unfold State.countRead
  generalize s.readCounts p req [t] = rd at h
  exact State.ite_good h (State.winFail_good h)

theorem State.countAt_good {s : State} {p req t : Nat} {at_ : Option Nat} (h0 : s.Good kl kd) : (s.countAt p req t at_).Good kl kd := by
  cases at_ with
  | none => exact State.bump_good h0
  | some i => exact State.putLinLe_good (State.updPart_good h0)

theorem State.countToken_good {s : State} {p req : Nat} {acc : Bool} {t : Nat} (h0 : s.Good kl kd) :
    (State.countToken s p req acc t).1.Good kl kd := by
  have h := State.countRead_good (p := p) (req := req) (t := t) h0
  unfold State.countToken
  generalize s.countRead p req t = rd at h
  exact State.ite_good (State.countAt_good h) h

theorem State.undoCounts_good {s : State} {p : Nat} {which : Nat → Bool} (h0 : s.Good kl kd) : (s.undoCounts p which).Good kl kd :=
    by
  unfold State.undoCounts
  repeat' first
    | with_reducible assumption | intro _
    | (extract_lets +onlyGivenNames x; refine (fun (_ : State.Good kl kd x) => ?_) ?_; clear_value x; rotate_left; subst x)
    | extract_lets +onlyGivenNames x | with_reducible apply State.putLinLe_good | with_reducible apply State.updPart_good
    | with_reducible apply State.foldl_good | split

theorem State.trailDraw_good {s : State} {d : Draw} (h0 : s.Good kl kd) : (s.trailDraw d).Good kl kd := by
  unfold State.trailDraw
  repeat' first
    | with_reducible assumption | extract_lets +onlyGivenNames x | with_reducible apply State.updPart_good
    | with_reducible apply State.ite_good

theorem State.decidePass_good {s : State} {p : Nat} {req : Nat} {mode : Nat} (h0 : s.Good kl kd) :
    (State.decidePass s p req mode).Good kl kd := by
  unfold State.decidePass
  repeat' first
    | with_reducible assumption | intro _
    | (extract_lets +onlyGivenNames x; refine (fun (_ : State.Good kl kd x) => ?_) ?_; clear_value x; rotate_left; subst x)
    | (extract_lets +onlyGivenNames x; refine (fun (_ : State.Good kl kd x.1) => ?_) ?_; clear_value x; rotate_left; subst x)
    | extract_lets +onlyGivenNames x | with_reducible apply State.updPart_good | with_reducible apply State.sendMsg_good
    | with_reducible apply State.winFail_good | with_reducible apply State.writeRes_good | with_reducible apply State.countToken_good
    | with_reducible apply State.ite_good | with_reducible apply State.foldl_good | with_reducible apply State.foldl_fst_good | split

theorem State.finishDraw_good {s : State} {slot : Nat} (h0 : s.Good kl kd) : (s.finishDraw slot).Good kl kd := by
  unfold State.finishDraw
  repeat' first
    | with_reducible assumption
    | (extract_lets +onlyGivenNames x; refine (fun (_ : State.Good kl kd x) => ?_) ?_; clear_value x; rotate_left; subst x)
    | extract_lets +onlyGivenNames x | with_reducible apply State.updDraw_good | with_reducible apply State.winErr_good
    | with_reducible apply State.writeRes_good | with_reducible apply State.decidePass_good | with_reducible apply State.ite_good
    | split

theorem State.readyDraw_good {s : State} {d : Draw} (h0 : s.Good kl kd) : (s.readyDraw d).Good kl kd := by
  unfold State.readyDraw
  repeat' first
    | with_reducible assumption | intro _
    | (extract_lets +onlyGivenNames x; refine (fun (_ : State.Good kl kd x) => ?_) ?_; clear_value x; rotate_left; subst x)
    | extract_lets +onlyGivenNames x | with_reducible apply State.bump_good | with_reducible apply State.winFail_good
    | with_reducible apply State.updDraw_good | with_reducible apply State.updWin_good | with_reducible apply State.finishDraw_good
    | with_reducible apply State.ite_good | with_reducible apply State.foldl_good

theorem State.takeSlice_good {s : State} {c q p : Nat} {x : SqEnt} (h0 : s.Good kl kd) : (s.takeSlice c q p x).Good kl kd := by
  unfold State.takeSlice
  repeat' first
    | with_reducible assumption
    | (extract_lets +onlyGivenNames x; refine (fun (_ : State.Good kl kd x) => ?_) ?_; clear_value x; rotate_left; subst x)
    | extract_lets +onlyGivenNames x | with_reducible apply State.drainSq_good | with_reducible apply State.updCore_good
    | with_reducible apply State.winErr_good | with_reducible apply State.updReq_good | with_reducible apply State.traverse_good
    | with_reducible apply State.updDraw_good | with_reducible apply State.putGran_good | with_reducible apply State.winFail_good
    | with_reducible apply State.readyDraw_good | with_reducible apply State.updWin_good | with_reducible apply State.ite_good | split

theorem execWdrawSlice_good {core : BitVec 9} {q : BitVec 3} {s : State} (h2 : s.Good kl kd) : Out.Good kl kd
    (execWdrawSlice core q s) :=
    by
  unfold execWdrawSlice
  repeat' first
    | with_reducible assumption | extract_lets +onlyGivenNames x | with_reducible apply State.takeSlice_good
    | with_reducible apply State.ite_good | with_reducible apply Out.next_good | split

theorem execDrawStart_good {s : State} (h0 : s.Good kl kd) : Out.Good kl kd (execDrawStart s) := by
  unfold execDrawStart
  repeat' first
    | with_reducible assumption | extract_lets +onlyGivenNames x | with_reducible apply State.updDraw_good
    | with_reducible apply State.ite_good | with_reducible apply Out.next_good | split

theorem execDrawDone_good {slot : BitVec 10} {s : State} (h1 : s.Good kl kd) : Out.Good kl kd (execDrawDone slot s) := by
  unfold execDrawDone
  repeat' first
    | with_reducible assumption
    | (extract_lets +onlyGivenNames x; refine (fun (_ : State.Good kl kd x) => ?_) ?_; clear_value x; rotate_left; subst x)
    | (extract_lets +onlyGivenNames x; refine (fun (_ : State.Good kl kd x.1) => ?_) ?_; clear_value x; rotate_left; subst x)
    | extract_lets +onlyGivenNames x | with_reducible apply State.readCounts_good | with_reducible apply State.bump_good
    | with_reducible apply State.winFail_good | with_reducible apply State.updDraw_good | with_reducible apply State.trailDraw_good
    | with_reducible apply State.finishDraw_good | with_reducible apply State.ite_good | with_reducible apply Out.next_good | split

theorem execVerifyDecide_good {p : BitVec 6} {req : BitVec 16} {s : State} (h2 : s.Good kl kd) : Out.Good kl kd
    (execVerifyDecide p req s) := by
  unfold execVerifyDecide
  repeat' first
    | with_reducible assumption | extract_lets +onlyGivenNames x | with_reducible apply State.decidePass_good
    | with_reducible apply State.ite_good | with_reducible apply Out.next_good

theorem State.missingDraws_good {s : State} {p : Nat} (h0 : s.Good kl kd) : (s.missingDraws p).Good kl kd := by
  unfold State.missingDraws
  repeat' first
    | with_reducible assumption | intro _ | extract_lets +onlyGivenNames x | with_reducible apply State.winFail_good
    | with_reducible apply State.winErr_good | with_reducible apply State.ite_good | with_reducible apply State.foldl_good

theorem State.applyCommit_good {s : State} {p : Nat} {k : Commit} (h0 : s.Good kl kd) : (s.applyCommit p k).Good kl kd := by
  unfold State.applyCommit
  repeat' first
    | with_reducible assumption
    | (extract_lets +onlyGivenNames x; refine (fun (_ : State.Good kl kd x) => ?_) ?_; clear_value x; rotate_left; subst x)
    | extract_lets +onlyGivenNames x | with_reducible apply State.updReq_good | with_reducible apply State.bump_good
    | with_reducible apply State.ite_good

theorem State.applyDraft_good {s : State} {p : Nat} {d : Draw} (h0 : s.Good kl kd) : (s.applyDraft p d).Good kl kd := by
  unfold State.applyDraft
  repeat' first
    | with_reducible assumption
    | (extract_lets +onlyGivenNames x; refine (fun (_ : State.Good kl kd x) => ?_) ?_; clear_value x; rotate_left; subst x)
    | extract_lets +onlyGivenNames x | with_reducible apply State.updReq_good | with_reducible apply State.updPart_good

theorem State.publishDraws_good {s : State} {p : Nat} {failed : List Nat} (h0 : s.Good kl kd) :
    (s.publishDraws p failed).Good kl kd := by
  unfold State.publishDraws
  repeat' first
    | with_reducible assumption | intro _
    | (extract_lets +onlyGivenNames x; refine (fun (_ : State.Good kl kd x) => ?_) ?_; clear_value x; rotate_left; subst x)
    | extract_lets +onlyGivenNames x | with_reducible apply State.applyDraft_good | with_reducible apply State.updWin_good
    | with_reducible apply State.foldl_good

end

end Sys2Proof.Machine
end

