-- ==== Sys2Proof/Laws/SoundFrame.lean ====
section
/-! SUPPORT. Soundness, and the stops that hold, are kept by the definitions of Publication, TickUnit, Frames, Partition, StoreQueues,
Rebind, Firmware. -/

set_option linter.tactic.unusedName false

namespace Sys2Proof.Machine

section
variable {kl kd : Bool}

/-! ### Publication -/

theorem State.updFrame_good {s : State} {p : Nat} {g : FrameSt → FrameSt} (h0 : s.Good kl kd) : (s.updFrame p g).Good kl kd := by
  unfold State.updFrame
  repeat' first
    | with_reducible assumption | with_reducible apply State.updPart_good

theorem State.promoUpdate_good {s : State} {p req cls f : Nat} (h0 : s.Good kl kd) : (s.promoUpdate p req cls f).Good kl kd := by
  unfold State.promoUpdate
  repeat' first
    | with_reducible assumption | extract_lets +onlyGivenNames x | with_reducible apply State.bump_good
    | with_reducible apply State.putGranBytes_good

theorem State.promote_good {s : State} {p : Nat} {f : FrameSt} (h0 : s.Good kl kd) : (s.promote p f).Good kl kd := by
  unfold State.promote
  repeat' first
    | with_reducible assumption | intro _ | extract_lets +onlyGivenNames x | with_reducible apply State.promoUpdate_good
    | with_reducible apply State.foldl_good

theorem State.serveReq_good {s : State} {p : Nat} {f : FrameSt} {n : Nat} (h0 : s.Good kl kd) : (State.serveReq s p f n).Good kl kd := by
  unfold State.serveReq
  repeat' first
    | with_reducible assumption | intro _
    | (extract_lets +onlyGivenNames x; refine (fun (_ : State.Good kl kd x) => ?_) ?_; clear_value x; rotate_left; subst x)
    | (extract_lets +onlyGivenNames x; refine (fun (_ : State.Good kl kd x.1) => ?_) ?_; clear_value x; rotate_left; subst x)
    | extract_lets +onlyGivenNames x | with_reducible apply State.updReq_good | with_reducible apply State.updTier_good
    | with_reducible apply State.setIdle_good | with_reducible apply State.ite_good | split

theorem State.failServed_good {s : State} {p : Nat} {x : FailInfo} (h0 : s.Good kl kd) : (s.failServed p x).Good kl kd := by
  unfold State.failServed
  repeat' first
    | with_reducible assumption
    | (extract_lets +onlyGivenNames x; refine (fun (_ : State.Good kl kd x) => ?_) ?_; clear_value x; rotate_left; subst x)
    | extract_lets +onlyGivenNames x | with_reducible apply State.undoCounts_good | with_reducible apply State.failReq_good
    | with_reducible apply State.trailEv_good | with_reducible apply State.logErr_good | with_reducible apply State.ite_good

theorem State.publishCommit_good {s : State} {p : Nat} {f : FrameSt} {k : Commit} (h0 : s.Good kl kd) :
    (s.publishCommit p f k).Good kl kd := by
  unfold State.publishCommit
  repeat' first
    | with_reducible assumption
    | (extract_lets +onlyGivenNames x; refine (fun (_ : State.Good kl kd x) => ?_) ?_; clear_value x; rotate_left; subst x)
    | extract_lets +onlyGivenNames x | with_reducible apply State.applyCommit_good | with_reducible apply State.updPart_good
    | with_reducible apply State.ite_good

theorem State.applyNote_good {s : State} {f : FrameSt} {x : Nat × Nat × Nat × Nat} (h0 : s.Good kl kd) :
    (s.applyNote f x).Good kl kd := by
  unfold State.applyNote
  repeat' first
    | with_reducible assumption | extract_lets +onlyGivenNames x | with_reducible apply State.updReq_good
    | with_reducible apply State.ite_good

theorem State.publishPasses_good {s : State} {p : Nat} {f : FrameSt} (h0 : s.Good kl kd) : (s.publishPasses p f).Good kl kd := by
  unfold State.publishPasses
  repeat' first
    | with_reducible assumption | intro _
    | (extract_lets +onlyGivenNames x; refine (fun (_ : State.Good kl kd x) => ?_) ?_; clear_value x; rotate_left; subst x)
    | extract_lets +onlyGivenNames x | with_reducible apply State.serveReq_good | with_reducible apply State.failServed_good
    | with_reducible apply State.publishCommit_good | with_reducible apply State.applyNote_good
    | with_reducible apply State.updPart_good | with_reducible apply State.tierPublish_good
    | with_reducible apply State.publishDraws_good | with_reducible apply State.promote_good | with_reducible apply State.foldl_good

theorem State.writeCompletions_good {s : State} {p : Nat} {f : FrameSt} (h0 : s.Good kl kd) : (s.writeCompletions p f).Good kl kd :=
    by
  unfold State.writeCompletions
  repeat' first
    | with_reducible assumption | extract_lets +onlyGivenNames x | with_reducible apply State.writeOut_good
    | with_reducible apply State.updPart_good | with_reducible apply State.ite_good

theorem State.flushTrail_good {s : State} {p : Nat} {f : FrameSt} (h0 : s.Good kl kd) : (s.flushTrail p f).Good kl kd := by
  unfold State.flushTrail
  repeat' first
    | with_reducible assumption | intro _ | extract_lets +onlyGivenNames x | with_reducible apply State.updPart_good
    | with_reducible apply State.writeRec_good | with_reducible apply State.foldl_good

theorem State.endMaint_good {s : State} {p : Nat} {cal : List Nat} {c : Nat} (h0 : s.Good kl kd) : (s.endMaint p cal c).Good kl kd := by
  unfold State.endMaint
  repeat' first
    | with_reducible assumption
    | (extract_lets +onlyGivenNames x; refine (fun (_ : State.Good kl kd x) => ?_) ?_; clear_value x; rotate_left; subst x)
    | extract_lets +onlyGivenNames x | with_reducible apply State.trailEv_good | with_reducible apply State.gleanDone_good
    | with_reducible apply State.ite_good

theorem State.publishMaint_good {s : State} {p : Nat} {cal : List Nat} (h0 : s.Good kl kd) : (s.publishMaint p cal).Good kl kd := by
  unfold State.publishMaint
  repeat' first
    | with_reducible assumption | intro _ | extract_lets +onlyGivenNames x | with_reducible apply State.endMaint_good
    | with_reducible apply State.bump_good | with_reducible apply State.foldl_good

theorem State.countFrame_good {s : State} {p : Nat} (h0 : s.Good kl kd) : (s.countFrame p).Good kl kd := by
  unfold State.countFrame
  repeat' first
    | with_reducible assumption | extract_lets +onlyGivenNames x | with_reducible apply State.wr_good
    | with_reducible apply State.setWide_good

theorem State.takePolicy_good {s : State} {p : Nat} (h0 : s.Good kl kd) : (s.takePolicy p).Good kl kd := by
  unfold State.takePolicy
  repeat' first
    | with_reducible assumption | extract_lets +onlyGivenNames x | with_reducible apply State.updPart_good
    | with_reducible apply State.wr_good | split

theorem State.returnWindows_good {s : State} {p : Nat} (h0 : s.Good kl kd) : (s.returnWindows p).Good kl kd := by
  unfold State.returnWindows
  repeat' first
    | with_reducible assumption | intro _ | extract_lets +onlyGivenNames x | with_reducible apply State.windowReturn_good
    | with_reducible apply State.foldl_good

theorem State.publishFrame_good {s : State} {p : Nat} {f : FrameSt} {cal : List Nat} (h0 : s.Good kl kd) :
    (s.publishFrame p f cal).Good kl kd := by
  unfold State.publishFrame
  repeat' first
    | with_reducible assumption | intro _
    | (extract_lets +onlyGivenNames x; refine (fun (_ : State.Good kl kd x) => ?_) ?_; clear_value x; rotate_left; subst x)
    | extract_lets +onlyGivenNames x | with_reducible apply State.returnWindows_good | with_reducible apply State.publishMaint_good
    | with_reducible apply State.publishPasses_good | with_reducible apply State.closeAudit_good
    | with_reducible apply State.rpPublish_good | with_reducible apply State.rpEnd_good | with_reducible apply State.flushTrail_good
    | with_reducible apply State.writeCompletions_good | with_reducible apply State.updPart_good
    | with_reducible apply State.takePolicy_good | with_reducible apply State.countFrame_good | with_reducible apply State.ite_good
    | with_reducible apply State.foldl_good

theorem State.publish_good {s : State} {p : Nat} {cal : List Nat} (h0 : s.Good kl kd) : (s.publish p cal).Good kl kd := by
  unfold State.publish
  repeat' first
    | with_reducible assumption | with_reducible apply State.publishFrame_good | split

/-! ### TickUnit -/

theorem State.updTick_good {s : State} {f : TickSt → TickSt} (h0 : s.Good kl kd) : (s.updTick f).Good kl kd := by
  unfold State.updTick
  repeat' first
    | extract_lets +onlyGivenNames x | with_reducible apply State.mk_good | exact State.Good.mem ‹_› | exact State.Good.regs ‹_›
    | exact State.Good.power ‹_›

theorem State.tickErr_good {s : State} {item : Nat} (h0 : s.Good kl kd) : (s.tickErr item).Good kl kd := by
  unfold State.tickErr
  repeat' first
    | with_reducible assumption | with_reducible apply State.logErr_good

theorem State.tickFatal_good {s : State} {p item : Nat} (h0 : s.Good kl kd) : (s.tickFatal p item).Good kl kd := by
  unfold State.tickFatal
  repeat' first
    | with_reducible assumption | with_reducible apply State.partFatal_good

theorem State.forwardMark_good {s : State} {m : Mark} (h0 : s.Good kl kd) : (s.forwardMark m).Good kl kd := by
  unfold State.forwardMark
  repeat' first
    | with_reducible assumption | intro _ | extract_lets +onlyGivenNames x | with_reducible apply State.queueMsg_good
    | with_reducible apply State.drawn_good | with_reducible apply State.ite_good | with_reducible apply State.foldl_good

theorem State.showPhase_good {s : State} {m : Mark} (h0 : s.Good kl kd) : (State.showPhase s m).Good kl kd := by
  unfold State.showPhase
  repeat' first
    | with_reducible assumption | intro _
    | (extract_lets +onlyGivenNames x; refine (fun (_ : State.Good kl kd x) => ?_) ?_; clear_value x; rotate_left; subst x)
    | extract_lets +onlyGivenNames x | with_reducible apply State.wr_good | with_reducible apply State.ite_good | split

theorem State.learnPeriod_good {s : State} {m : Mark} (h0 : s.Good kl kd) : (s.learnPeriod m).Good kl kd := by
  unfold State.learnPeriod
  repeat' first
    | with_reducible assumption | extract_lets +onlyGivenNames x | with_reducible apply State.updTick_good
    | with_reducible apply State.wr_good | with_reducible apply State.ite_good | split

theorem State.realign_good {s : State} {port : Nat} (h0 : s.Good kl kd) : (s.realign port).Good kl kd := by
  unfold State.realign
  repeat' first
    | with_reducible assumption | extract_lets +onlyGivenNames x | with_reducible apply State.updTick_good
    | with_reducible apply State.wr_good

theorem State.oddMark_good {s : State} {m : Mark} (h0 : s.Good kl kd) : (s.oddMark m).Good kl kd := by
  unfold State.oddMark
  repeat' first
    | with_reducible assumption | intro _
    | (extract_lets +onlyGivenNames x; refine (fun (_ : State.Good kl kd x) => ?_) ?_; clear_value x; rotate_left; subst x)
    | extract_lets +onlyGivenNames x | with_reducible apply State.updTick_good | with_reducible apply State.wr_good
    | with_reducible apply State.tickFatal_good | with_reducible apply State.realign_good | with_reducible apply State.setWide_good
    | with_reducible apply State.ite_good | with_reducible apply State.foldl_good

theorem State.goodMark_good {s : State} {m : Mark} (h0 : s.Good kl kd) : (s.goodMark m).Good kl kd := by
  unfold State.goodMark
  repeat' first
    | with_reducible assumption
    | (extract_lets +onlyGivenNames x; refine (fun (_ : State.Good kl kd x) => ?_) ?_; clear_value x; rotate_left; subst x)
    | extract_lets +onlyGivenNames x | with_reducible apply State.updTick_good | with_reducible apply State.realign_good
    | with_reducible apply State.wr_good | with_reducible apply State.forwardMark_good | with_reducible apply State.learnPeriod_good
    | with_reducible apply State.showPhase_good | with_reducible apply State.ite_good

theorem State.takeMark_good {s : State} {m : Mark} (h0 : s.Good kl kd) : (s.takeMark m).Good kl kd := by
  unfold State.takeMark
  repeat' first
    | with_reducible assumption
    | (extract_lets +onlyGivenNames x; refine (fun (_ : State.Good kl kd x) => ?_) ?_; clear_value x; rotate_left; subst x)
    | extract_lets +onlyGivenNames x | with_reducible apply State.updNet_good | with_reducible apply State.updTick_good
    | with_reducible apply State.goodMark_good | with_reducible apply State.oddMark_good | with_reducible apply State.wr_good
    | with_reducible apply State.ite_good

theorem execTick_good {port : BitVec 5} {num : BitVec 48} {period : BitVec 5} {elapsed : BitVec 20} {phase : BitVec 16} {s : State} (h5
    : s.Good kl kd) : Out.Good kl kd (execTick port num period elapsed phase s) := by
  unfold execTick
  repeat' first
    | with_reducible assumption | extract_lets +onlyGivenNames x | with_reducible apply State.takeMark_good
    | with_reducible apply Out.next_good

theorem execFieldTick_good {port : BitVec 5} {num : BitVec 48} {period : BitVec 5} {elapsed : BitVec 20} {phase : BitVec 16} {s : State}
    (h5 : s.Good kl kd) : Out.Good kl kd (execFieldTick port num period elapsed phase s) := by
  unfold execFieldTick
  repeat' first
    | with_reducible assumption | extract_lets +onlyGivenNames x | with_reducible apply State.takeMark_good
    | with_reducible apply Out.next_good

theorem State.marksEdge_good {s : State} (h0 : s.Good kl kd) : (s.marksEdge).Good kl kd := by
  unfold State.marksEdge
  repeat' first
    | with_reducible assumption
    | (extract_lets +onlyGivenNames x; refine (fun (_ : State.Good kl kd x) => ?_) ?_; clear_value x; rotate_left; subst x)
    | extract_lets +onlyGivenNames x | with_reducible apply State.wr_good | with_reducible apply State.updTick_good
    | with_reducible apply State.ite_good

theorem execUpstreamSwitch_good {s : State} (h0 : s.Good kl kd) : Out.Good kl kd (execUpstreamSwitch s) := by
  unfold execUpstreamSwitch
  repeat' first
    | with_reducible assumption | extract_lets +onlyGivenNames x | with_reducible apply State.tickErr_good
    | with_reducible apply State.updTick_good | with_reducible apply State.wr_good | with_reducible apply State.ite_good
    | with_reducible apply Out.next_good | split

theorem execHoldoverEntry_good {s : State} (h0 : s.Good kl kd) : Out.Good kl kd (execHoldoverEntry s) := by
  unfold execHoldoverEntry
  repeat' first
    | with_reducible assumption | extract_lets +onlyGivenNames x | with_reducible apply State.tickErr_good
    | with_reducible apply State.updTick_good | with_reducible apply State.wr_good | with_reducible apply State.ite_good
    | with_reducible apply Out.next_good

theorem execHoldoverTimeout_good {s : State} (h0 : s.Good kl kd) : Out.Good kl kd (execHoldoverTimeout s) := by
  unfold execHoldoverTimeout
  repeat' first
    | with_reducible assumption | intro _ | extract_lets +onlyGivenNames x | with_reducible apply State.tickFatal_good
    | with_reducible apply State.ite_good | with_reducible apply State.foldl_good | with_reducible apply Out.next_good

theorem execHoldoverRealign_good {port : BitVec 5} {num : BitVec 48} {s : State} (h2 : s.Good kl kd) : Out.Good kl kd
    (execHoldoverRealign port num s) := by
  unfold execHoldoverRealign
  repeat' first
    | with_reducible assumption | extract_lets +onlyGivenNames x | with_reducible apply State.realign_good
    | with_reducible apply State.ite_good | with_reducible apply Out.next_good

theorem State.periodArm_good {s : State} (h0 : s.Good kl kd) : (s.periodArm).Good kl kd := by
  unfold State.periodArm
  repeat' first
    | with_reducible assumption
    | (extract_lets +onlyGivenNames x; refine (fun (_ : State.Good kl kd x) => ?_) ?_; clear_value x; rotate_left; subst x)
    | extract_lets +onlyGivenNames x | with_reducible apply State.wr_good | with_reducible apply State.updTick_good
    | with_reducible apply State.ite_good

theorem execPeriodArm_good {s : State} (h0 : s.Good kl kd) : Out.Good kl kd (execPeriodArm s) := by
  unfold execPeriodArm
  repeat' first
    | with_reducible assumption | extract_lets +onlyGivenNames x | with_reducible apply State.periodArm_good
    | with_reducible apply State.ite_good | with_reducible apply Out.next_good

theorem State.applyPeriod_good {s : State} {n : Nat} (h0 : s.Good kl kd) : (State.applyPeriod s n).Good kl kd := by
  unfold State.applyPeriod
  repeat' first
    | with_reducible assumption | intro _
    | (extract_lets +onlyGivenNames x; refine (fun (_ : State.Good kl kd x) => ?_) ?_; clear_value x; rotate_left; subst x)
    | extract_lets +onlyGivenNames x | with_reducible apply State.periodVisit_good | with_reducible apply State.resetIdle_good
    | with_reducible apply State.updTick_good | with_reducible apply State.wr_good | with_reducible apply State.ite_good | split

theorem execPeriodChangeApply_good {s : State} (h0 : s.Good kl kd) : Out.Good kl kd (execPeriodChangeApply s) := by
  unfold execPeriodChangeApply
  repeat' first
    | with_reducible assumption | extract_lets +onlyGivenNames x | with_reducible apply State.applyPeriod_good
    | with_reducible apply State.ite_good | with_reducible apply Out.next_good

theorem State.markPorts_good {s : State} {m : LinkMsg} {outer : Bool} (h0 : s.Good kl kd) : (State.markPorts s m outer).Good kl kd := by
  unfold State.markPorts
  repeat' first
    | with_reducible assumption | intro _
    | (extract_lets +onlyGivenNames x; refine (fun (_ : State.Good kl kd x) => ?_) ?_; clear_value x; rotate_left; subst x)
    | extract_lets +onlyGivenNames x | with_reducible apply State.queueMsg_good | with_reducible apply State.ite_good
    | with_reducible apply State.foldl_good | with_reducible apply State.foldl_fst_good | split

theorem State.sendMarks_good {s : State} (h0 : s.Good kl kd) : (State.sendMarks s).Good kl kd := by
  unfold State.sendMarks
  repeat' first
    | with_reducible assumption | intro _
    | (extract_lets +onlyGivenNames x; refine (fun (_ : State.Good kl kd x) => ?_) ?_; clear_value x; rotate_left; subst x)
    | extract_lets +onlyGivenNames x | with_reducible apply State.updTick_good | with_reducible apply State.markPorts_good
    | with_reducible apply State.ite_good | split

theorem State.toCycle_good {s : State} {n : Nat} (h0 : s.Good kl kd) : (State.toCycle s n).Good kl kd := by
  unfold State.toCycle
  repeat' first
    | with_reducible assumption | intro _
    | (extract_lets +onlyGivenNames x; refine (fun (_ : State.Good kl kd x) => ?_) ?_; clear_value x; rotate_left; subst x)
    | extract_lets +onlyGivenNames x | with_reducible apply State.sendMarks_good | with_reducible apply State.wr_good
    | with_reducible apply State.ite_good | split

theorem execFirstTick_good {mark : Option (BitVec 5 × BitVec 48)} {s : State} (h1 : s.Good kl kd) : Out.Good kl kd
    (execFirstTick mark s) := by
  unfold execFirstTick
  repeat' first
    | with_reducible assumption
    | (extract_lets +onlyGivenNames x; refine (fun (_ : State.Good kl kd x) => ?_) ?_; clear_value x; rotate_left; subst x)
    | extract_lets +onlyGivenNames x | with_reducible apply State.wr_good | with_reducible apply State.setWide_good
    | with_reducible apply State.sendMarks_good | with_reducible apply State.governorLevels_good | with_reducible apply State.ite_good
    | with_reducible apply Out.next_good | split

/-! ### Frames -/

theorem State.sendDone_good {s : State} {p seq : Nat} (h0 : s.Good kl kd) : (s.sendDone p seq).Good kl kd := by
  unfold State.sendDone
  repeat' first
    | with_reducible assumption | extract_lets +onlyGivenNames x | with_reducible apply State.updFrame_good
    | with_reducible apply State.sendMsg_good | with_reducible apply State.ite_good

theorem State.completeFrame_good {s : State} {p : Nat} (h0 : s.Good kl kd) : (s.completeFrame p).Good kl kd := by
  unfold State.completeFrame
  repeat' first
    | with_reducible assumption
    | (extract_lets +onlyGivenNames x; refine (fun (_ : State.Good kl kd x) => ?_) ?_; clear_value x; rotate_left; subst x)
    | extract_lets +onlyGivenNames x | with_reducible apply State.missingDraws_good | with_reducible apply State.updFrame_good
    | with_reducible apply State.sendDone_good | with_reducible apply State.wr_good | with_reducible apply State.ite_good | split

theorem execFrameComplete_good {p : BitVec 6} {s : State} (h1 : s.Good kl kd) : Out.Good kl kd (execFrameComplete p s) := by
  unfold execFrameComplete
  repeat' first
    | with_reducible assumption | extract_lets +onlyGivenNames x | with_reducible apply State.completeFrame_good
    | with_reducible apply State.ite_good | with_reducible apply Out.next_good

theorem State.slip_good {s : State} {p : Nat} {f : FrameSt} (h0 : s.Good kl kd) : (s.slip p f).Good kl kd := by
  unfold State.slip
  repeat' first
    | with_reducible assumption
    | (extract_lets +onlyGivenNames x; refine (fun (_ : State.Good kl kd x) => ?_) ?_; clear_value x; rotate_left; subst x)
    | extract_lets +onlyGivenNames x | with_reducible apply State.bump_good | with_reducible apply State.wr_good
    | with_reducible apply State.updFrame_good | with_reducible apply State.ite_good

theorem State.cutFrame_good {s : State} {p : Nat} (h0 : s.Good kl kd) : (s.cutFrame p).Good kl kd := by
  unfold State.cutFrame
  repeat' first
    | with_reducible assumption | extract_lets +onlyGivenNames x | with_reducible apply State.updFrame_good
    | with_reducible apply State.slip_good | with_reducible apply State.ite_good | split

theorem execFrameCut_good {s : State} (h0 : s.Good kl kd) : Out.Good kl kd (execFrameCut s) := by
  unfold execFrameCut
  repeat' first
    | with_reducible assumption | intro _ | extract_lets +onlyGivenNames x | with_reducible apply State.cutFrame_good
    | with_reducible apply State.toCycle_good | with_reducible apply State.ite_good | with_reducible apply State.foldl_good
    | with_reducible apply Out.next_good

theorem execFrameWatchdog_good {p : BitVec 6} {s : State} (h1 : s.Good kl kd) : Out.Good kl kd (execFrameWatchdog p s) := by
  unfold execFrameWatchdog
  repeat' first
    | with_reducible assumption | intro _ | extract_lets +onlyGivenNames x | with_reducible apply State.tickFatal_good
    | with_reducible apply State.stopCore_good | with_reducible apply State.wr_good | with_reducible apply State.ite_good
    | with_reducible apply State.foldl_good | with_reducible apply Out.next_good | split

theorem State.dropNotes_good {s : State} {type p : Nat} {which : LinkMsg → Bool} (h0 : s.Good kl kd) :
    (s.dropNotes type p which).Good kl kd := by
  unfold State.dropNotes
  repeat' first
    | with_reducible assumption | with_reducible apply State.updNet_good

theorem execFdone_good {p : BitVec 6} {member : BitVec 12} {seq : Word} {s : State} (h3 : s.Good kl kd) : Out.Good kl kd
    (execFdone p member seq s) := by
  unfold execFdone
  repeat' first
    | with_reducible assumption | extract_lets +onlyGivenNames x | with_reducible apply State.updFrame_good
    | with_reducible apply State.dropNotes_good | with_reducible apply State.ite_good | with_reducible apply Out.next_good

theorem State.spanTake_good {s : State} {p seq : Nat} (h0 : s.Good kl kd) : (s.spanTake p seq).Good kl kd := by
  unfold State.spanTake
  repeat' first
    | with_reducible assumption | intro _
    | (extract_lets +onlyGivenNames x; refine (fun (_ : State.Good kl kd x) => ?_) ?_; clear_value x; rotate_left; subst x)
    | (extract_lets +onlyGivenNames x; refine (fun (_ : State.Good kl kd x.1) => ?_) ?_; clear_value x; rotate_left; subst x)
    | extract_lets +onlyGivenNames x | with_reducible apply State.updPart_good | with_reducible apply State.takeEntries_good
    | with_reducible apply State.sendMsg_good | with_reducible apply State.ite_good | with_reducible apply State.foldl_good

theorem State.leadCheck_good {s : State} {p : Nat} (h0 : s.Good kl kd) : (s.leadCheck p).Good kl kd := by
  unfold State.leadCheck
  repeat' first
    | with_reducible assumption | intro _
    | (extract_lets +onlyGivenNames x; refine (fun (_ : State.Good kl kd x) => ?_) ?_; clear_value x; rotate_left; subst x)
    | extract_lets +onlyGivenNames x | with_reducible apply State.sendMsg_good | with_reducible apply State.updFrame_good
    | with_reducible apply State.spanTake_good | with_reducible apply State.ite_good | with_reducible apply State.foldl_good | split

theorem execPublishCheck_good {s : State} (h0 : s.Good kl kd) : Out.Good kl kd (execPublishCheck s) := by
  unfold execPublishCheck
  repeat' first
    | with_reducible assumption | intro _ | extract_lets +onlyGivenNames x | with_reducible apply State.leadCheck_good
    | with_reducible apply State.toCycle_good | with_reducible apply State.ite_good | with_reducible apply State.foldl_good
    | with_reducible apply Out.next_good

theorem execPublish_good {p : BitVec 6} {edge : BitVec 48} {s : State} (h2 : s.Good kl kd) : Out.Good kl kd (execPublish p edge s) := by
  unfold execPublish
  repeat' first
    | with_reducible assumption
    | (extract_lets +onlyGivenNames x; refine (fun (_ : State.Good kl kd x) => ?_) ?_; clear_value x; rotate_left; subst x)
    | extract_lets +onlyGivenNames x | with_reducible apply State.dropNotes_good | with_reducible apply State.tickFatal_good
    | with_reducible apply State.updFrame_good | with_reducible apply State.ite_good | with_reducible apply Out.next_good

/-! ### Partition -/

theorem State.enableReq_good {s : State} {p : Nat} (h0 : s.Good kl kd) : (s.enableReq p).Good kl kd := by
  unfold State.enableReq
  repeat' first
    | with_reducible assumption
    | (extract_lets +onlyGivenNames x; refine (fun (_ : State.Good kl kd x) => ?_) ?_; clear_value x; rotate_left; subst x)
    | extract_lets +onlyGivenNames x | with_reducible apply State.hae_good | with_reducible apply State.updPart_good
    | with_reducible apply State.wr_good | with_reducible apply State.syncChecks_good | with_reducible apply State.ite_good
    | with_reducible apply State.mk_good | exact State.Good.mem ‹_› | exact State.Good.regs ‹_› | exact State.Good.power ‹_›

theorem execEnable_good {p : BitVec 6} {s : State} (h1 : s.Good kl kd) : Out.Good kl kd (execEnable p s) := by
  unfold execEnable
  repeat' first
    | with_reducible assumption | extract_lets +onlyGivenNames x | with_reducible apply State.enableReq_good
    | with_reducible apply State.ite_good | with_reducible apply Out.next_good

theorem State.disableReq_good {s : State} {p : Nat} (h0 : s.Good kl kd) : (s.disableReq p).Good kl kd := by
  unfold State.disableReq
  repeat' first
    | with_reducible assumption | with_reducible apply State.endCheck_good | with_reducible apply State.updPart_good
    | with_reducible apply State.requestReset_good | split

theorem execDisable_good {p : BitVec 6} {s : State} (h1 : s.Good kl kd) : Out.Good kl kd (execDisable p s) := by
  unfold execDisable
  repeat' first
    | with_reducible assumption | extract_lets +onlyGivenNames x | with_reducible apply State.disableReq_good
    | with_reducible apply State.ite_good | with_reducible apply Out.next_good

theorem State.zeroExtents_good {s : State} {p : Nat} (h0 : s.Good kl kd) : (s.zeroExtents p).Good kl kd := by
  unfold State.zeroExtents
  repeat' first
    | with_reducible assumption | intro _ | extract_lets +onlyGivenNames x | with_reducible apply State.wr_good
    | with_reducible apply State.zeroGrans_good | with_reducible apply State.ite_good | with_reducible apply State.foldl_good

theorem State.queueFlips_good {s : State} {p : Nat} (h0 : s.Good kl kd) : (s.queueFlips p).Good kl kd := by
  unfold State.queueFlips
  repeat' first
    | with_reducible assumption | intro _ | extract_lets +onlyGivenNames x | with_reducible apply State.updCore_good
    | with_reducible apply State.foldl_good

theorem execEnablingDone_good {p : BitVec 6} {s : State} (h1 : s.Good kl kd) : Out.Good kl kd (execEnablingDone p s) := by
  unfold execEnablingDone
  repeat' first
    | with_reducible assumption | extract_lets +onlyGivenNames x | with_reducible apply State.updPart_good
    | with_reducible apply State.queueFlips_good | with_reducible apply State.zeroExtents_good | with_reducible apply State.ite_good
    | with_reducible apply Out.next_good

theorem execGoTimeout_good {p : BitVec 6} {s : State} (h1 : s.Good kl kd) : Out.Good kl kd (execGoTimeout p s) := by
  unfold execGoTimeout
  repeat' first
    | with_reducible assumption | extract_lets +onlyGivenNames x | with_reducible apply State.refuse_good
    | with_reducible apply State.ite_good | with_reducible apply Out.next_good

theorem execPartitionReset_good {p : BitVec 6} {src code : Byte} {station : BitVec 10} {entry : Option (BitVec 9 × BitVec 12)} {s
    : State} (h5 : s.Good kl kd) : Out.Good kl kd (execPartitionReset p src code station entry s) := by
  unfold execPartitionReset
  repeat' first
    | with_reducible assumption
    | (extract_lets +onlyGivenNames x; refine (fun (_ : State.Good kl kd x) => ?_) ?_; clear_value x; rotate_left; subst x)
    | extract_lets +onlyGivenNames x | with_reducible apply State.partFatal_good | with_reducible apply State.updSet_good
    | with_reducible apply State.ite_good | with_reducible apply Out.next_good | split

theorem State.landStores_good {s : State} {p : Nat} {c : Nat} (h0 : s.Good kl kd) : (State.landStores s p c).Good kl kd := by
  unfold State.landStores
  repeat' first
    | with_reducible assumption | intro _
    | (extract_lets +onlyGivenNames x; refine (fun (_ : State.Good kl kd x) => ?_) ?_; clear_value x; rotate_left; subst x)
    | extract_lets +onlyGivenNames x | with_reducible apply State.updCore_good | with_reducible apply State.landStore_good
    | with_reducible apply State.ite_good | with_reducible apply State.foldl_good | with_reducible apply State.foldl_fst_good | split

theorem execDisableScrubDone_good {p : BitVec 6} {s : State} (h0 : s.Good kl kd) : Out.Good kl kd (execDisableScrubDone p s) := by
  unfold execDisableScrubDone
  repeat' first
    | with_reducible assumption | intro _
    | (extract_lets +onlyGivenNames x; refine (fun (_ : State.Good kl kd x) => ?_) ?_; clear_value x; rotate_left; subst x)
    | extract_lets +onlyGivenNames x | with_reducible apply State.updPart_good | with_reducible apply State.landStores_good
    | with_reducible apply State.wr_good | with_reducible apply State.ite_good | with_reducible apply State.foldl_good
    | with_reducible apply State.foldl_fst_good | with_reducible apply Out.next_good | split

theorem State.coreTable_good {s : State} {c v : Nat} (h0 : s.Good kl kd) : (s.coreTable c v).Good kl kd := by
  unfold State.coreTable
  repeat' first
    | with_reducible assumption
    | (extract_lets +onlyGivenNames x; refine (fun (_ : State.Good kl kd x) => ?_) ?_; clear_value x; rotate_left; subst x)
    | extract_lets +onlyGivenNames x | with_reducible apply State.dropGleans_good | with_reducible apply State.wr_good
    | with_reducible apply State.hae_good | with_reducible apply State.ite_good

theorem execCoreTableWrite_good {core : BitVec 9} {value : Word} {s : State} (h2 : s.Good kl kd) : Out.Good kl kd
    (execCoreTableWrite core value s) := by
  unfold execCoreTableWrite
  repeat' first
    | with_reducible assumption | extract_lets +onlyGivenNames x | with_reducible apply State.coreTable_good
    | with_reducible apply State.ite_good | with_reducible apply Out.next_good

/-! ### StoreQueues -/

theorem State.readSource_good {s : State} {c : Nat} {x : SqEnt} (h0 : s.Good kl kd) : (State.readSource s c x).1.Good kl kd := by
  unfold State.readSource
  repeat' first
    | with_reducible assumption | intro _
    | (extract_lets +onlyGivenNames x; refine (fun (_ : State.Good kl kd x) => ?_) ?_; clear_value x; rotate_left; subst x)
    | (extract_lets +onlyGivenNames x; refine (fun (_ : State.Good kl kd x.1) => ?_) ?_; clear_value x; rotate_left; subst x)
    | extract_lets +onlyGivenNames x | with_reducible apply State.eccLoftN_good | with_reducible apply State.readStore_good
    | with_reducible apply State.wwrites_good | with_reducible apply State.sendCopies_good | with_reducible apply State.readRsend_good
    | with_reducible apply State.readDraw_good | with_reducible apply State.foldl_fst_good | split

theorem execStoreRead_good {core : BitVec 9} {q : BitVec 3} {s : State} (h0 : s.Good kl kd) :
    Out.Good kl kd (execStoreRead core q s) := by
  unfold execStoreRead
  repeat' first
    | with_reducible assumption | intro _
    | (extract_lets +onlyGivenNames x; refine (fun (_ : State.Good kl kd x) => ?_) ?_; clear_value x; rotate_left; subst x)
    | (extract_lets +onlyGivenNames x; refine (fun (_ : State.Good kl kd x.1) => ?_) ?_; clear_value x; rotate_left; subst x)
    | extract_lets +onlyGivenNames x | with_reducible apply State.tookHead_good | with_reducible apply State.updSq_good
    | with_reducible apply State.readSource_good | with_reducible apply State.wr_good | with_reducible apply State.ite_good
    | with_reducible apply Out.next_good | split

theorem State.deliverSq_good {s t : State} {c : Nat} {x : SqEnt} (h0 : s.Good kl kd) (h : s.deliverSq c x = some t) :
    t.Good kl kd := by
  unfold State.deliverSq at h
  split at h
  · cases h
    exact h0
  · split at h
    · cases h
      exact State.landStore_good h0
    · dsimp only at h
      split at h
      · cases h
        exact h0
      · exact State.feedNode_good h0 h

theorem execStoreDone_good {core : BitVec 9} {q : BitVec 3} {s : State} (h0 : s.Good kl kd) :
    Out.Good kl kd (execStoreDone core q s) := by
  unfold execStoreDone
  refine Out.next_good ?_
  split
  · exact h0
  · refine State.ite_good ?_ h0
    split
    · exact h0
    · rename_i h
      exact State.drainSq_good (State.updSq_good (State.deliverSq_good h0 h))

/-! ### Rebind -/

theorem State.goEdge_good {s : State} {p : Nat} (h0 : s.Good kl kd) : (s.goEdge p).Good kl kd := by
  unfold State.goEdge
  repeat' first
    | with_reducible assumption | intro _
    | (extract_lets +onlyGivenNames x; refine (fun (_ : State.Good kl kd x) => ?_) ?_; clear_value x; rotate_left; subst x)
    | extract_lets +onlyGivenNames x | with_reducible apply State.sendMsg_good | with_reducible apply State.updPart_good
    | with_reducible apply State.refuse_good | with_reducible apply State.drawn_good | with_reducible apply State.ite_good | with_reducible apply State.foldl_good | split

theorem State.flipFails_good {s : State} {p : Nat} (h0 : s.Good kl kd) : (s.flipFails p).Good kl kd := by
  unfold State.flipFails
  repeat' first
    | with_reducible assumption | extract_lets +onlyGivenNames x | with_reducible apply State.failCheck_good
    | with_reducible apply State.ite_good | split

theorem State.wrs_good {s : State} {i : Nat} {l : List (Fld × Nat)} (h0 : s.Good kl kd) : (s.wrs i l).Good kl kd := by
  unfold State.wrs
  repeat' first
    | with_reducible assumption | intro _ | extract_lets +onlyGivenNames x | with_reducible apply State.wr_good
    | with_reducible apply State.foldl_good

theorem State.clrs_good {s : State} {i : Nat} {l : List Fld} (h0 : s.Good kl kd) : (s.clrs i l).Good kl kd := by
  unfold State.clrs
  repeat' first
    | with_reducible assumption | intro _ | extract_lets +onlyGivenNames x | with_reducible apply State.clr_good
    | with_reducible apply State.foldl_good

theorem State.loadDescriptor_good {s : State} {p : Nat} (h0 : s.Good kl kd) : (s.loadDescriptor p).Good kl kd := by
  unfold State.loadDescriptor
  repeat' first
    | with_reducible assumption
    | (extract_lets +onlyGivenNames x; refine (fun (_ : State.Good kl kd x) => ?_) ?_; clear_value x; rotate_left; subst x)
    | extract_lets +onlyGivenNames x | with_reducible apply State.wrs_good | with_reducible apply State.syncTier_good
    | with_reducible apply State.wr_good

theorem State.enableCore_good {s : State} {p c : Nat} (h0 : s.Good kl kd) : (s.enableCore p c).Good kl kd := by
  unfold State.enableCore
  repeat' first
    | with_reducible assumption | extract_lets +onlyGivenNames x | with_reducible apply State.wrs_good
    | with_reducible apply State.clrs_good

theorem State.startTrail_good {s : State} {p : Nat} (h0 : s.Good kl kd) : (s.startTrail p).Good kl kd := by
  unfold State.startTrail
  repeat' first
    | with_reducible assumption | intro _
    | (extract_lets +onlyGivenNames x; refine (fun (_ : State.Good kl kd x) => ?_) ?_; clear_value x; rotate_left; subst x)
    | extract_lets +onlyGivenNames x | with_reducible apply State.updPart_good | with_reducible apply State.writeRec_good
    | with_reducible apply State.foldl_good

theorem State.enableEdge_good {s : State} {p : Nat} (h0 : s.Good kl kd) : (s.enableEdge p).Good kl kd := by
  unfold State.enableEdge
  repeat' first
    | with_reducible assumption | intro _
    | (extract_lets +onlyGivenNames x; refine (fun (_ : State.Good kl kd x) => ?_) ?_; clear_value x; rotate_left; subst x)
    | extract_lets +onlyGivenNames x | with_reducible apply State.syncEnabled_good | with_reducible apply State.bump_good
    | with_reducible apply State.setWide_good | with_reducible apply State.wr_good | with_reducible apply State.clrs_good
    | with_reducible apply State.loadDescriptor_good | with_reducible apply State.enableCore_good
    | with_reducible apply State.updPart_good | with_reducible apply State.rpStart_good | with_reducible apply State.startTrail_good
    | with_reducible apply State.ite_good | with_reducible apply State.foldl_good

theorem State.stopWork_good {s : State} {p : Nat} {c : Nat} (h0 : s.Good kl kd) : (State.stopWork s p c).Good kl kd := by
  unfold State.stopWork
  repeat' first
    | with_reducible assumption | intro _
    | (extract_lets +onlyGivenNames x; refine (fun (_ : State.Good kl kd x) => ?_) ?_; clear_value x; rotate_left; subst x)
    | (extract_lets +onlyGivenNames x; refine (fun (_ : State.Good kl kd x.1) => ?_) ?_; clear_value x; rotate_left; subst x)
    | extract_lets +onlyGivenNames x | with_reducible apply State.updCore_good | with_reducible apply State.syncMx_good
    | with_reducible apply State.wrs_good | with_reducible apply State.wr_good | with_reducible apply State.ite_good
    | with_reducible apply State.foldl_good | with_reducible apply State.foldl_fst_good | split

theorem State.disableEdge_good {s : State} {p cause endCause : Nat} (h0 : s.Good kl kd) :
    (s.disableEdge p cause endCause).Good kl kd := by
  unfold State.disableEdge
  repeat' first
    | with_reducible assumption | intro _
    | (extract_lets +onlyGivenNames x; refine (fun (_ : State.Good kl kd x) => ?_) ?_; clear_value x; rotate_left; subst x)
    | extract_lets +onlyGivenNames x | with_reducible apply State.wr_good | with_reducible apply State.rampWhole_good
    | with_reducible apply State.discardNet_good | with_reducible apply State.endTrail_good
    | with_reducible apply State.syncEnabled_good | with_reducible apply State.updWin_good | with_reducible apply State.dropGrants_good
    | with_reducible apply State.scrubLoft_good | with_reducible apply State.stopWork_good | with_reducible apply State.updPart_good
    | with_reducible apply State.ite_good | with_reducible apply State.foldl_good

theorem State.resetEdge_good {s : State} {p : Nat} (h0 : s.Good kl kd) : (s.resetEdge p).Good kl kd := by
  unfold State.resetEdge
  repeat' first
    | with_reducible assumption | intro _
    | (extract_lets +onlyGivenNames x; refine (fun (_ : State.Good kl kd x) => ?_) ?_; clear_value x; rotate_left; subst x)
    | extract_lets +onlyGivenNames x | with_reducible apply State.updPart_good | with_reducible apply State.undoCounts_good
    | with_reducible apply State.updTier_good | with_reducible apply State.updCore_good | with_reducible apply State.disableEdge_good
    | with_reducible apply State.ite_good | with_reducible apply State.foldl_good | split

theorem State.disableNow_good {s : State} {p : Nat} {maint : Bool} (h0 : s.Good kl kd) : (s.disableNow p maint).Good kl kd := by
  unfold State.disableNow
  repeat' first
    | with_reducible assumption
    | (extract_lets +onlyGivenNames x; refine (fun (_ : State.Good kl kd x) => ?_) ?_; clear_value x; rotate_left; subst x)
    | extract_lets +onlyGivenNames x | with_reducible apply State.dropGleans_good | with_reducible apply State.disableEdge_good
    | with_reducible apply State.ite_good

/-! ### Firmware -/

theorem State.fwGo_good {s : State} (h0 : s.Good kl kd) : (s.fwGo).Good kl kd := by
  unfold State.fwGo
  repeat' first
    | with_reducible assumption
    | (extract_lets +onlyGivenNames x; refine (fun (_ : State.Good kl kd x) => ?_) ?_; clear_value x; rotate_left; subst x)
    | extract_lets +onlyGivenNames x | with_reducible apply State.wr_good | with_reducible apply State.ite_good

theorem execFwGo_good {s : State} (h0 : s.Good kl kd) : Out.Good kl kd (execFwGo s) := by
  unfold execFwGo
  repeat' first
    | with_reducible assumption | extract_lets +onlyGivenNames x | with_reducible apply State.fwGo_good
    | with_reducible apply State.ite_good | with_reducible apply Out.next_good

theorem execFwVerifyDone_good {digest sig : Bool} {s : State} (h2 : s.Good kl kd) : Out.Good kl kd (execFwVerifyDone digest sig s) := by
  unfold execFwVerifyDone
  repeat' first
    | with_reducible assumption
    | (extract_lets +onlyGivenNames x; refine (fun (_ : State.Good kl kd x) => ?_) ?_; clear_value x; rotate_left; subst x)
    | extract_lets +onlyGivenNames x | with_reducible apply State.wr_good | with_reducible apply State.updMgmt_good
    | with_reducible apply State.msix_good | with_reducible apply State.ite_good | with_reducible apply Out.next_good

theorem State.startBank_good {s : State} {rows : List (BitVec 9 × BitVec 7 × BitVec 1 × Bool × List Byte)} {c : Nat} {pa : Nat} {b : Nat} (h0 : s.Good kl kd) :
    (State.startBank s rows c pa b).1.Good kl kd := by
  unfold State.startBank
  repeat' first
    | with_reducible assumption | intro _
    | (extract_lets +onlyGivenNames x; refine (fun (_ : State.Good kl kd x) => ?_) ?_; clear_value x; rotate_left; subst x)
    | extract_lets +onlyGivenNames x | with_reducible apply State.logCore_good | with_reducible apply State.ite_good
    | with_reducible apply State.foldl_good | with_reducible apply State.foldl_fst_good | split

theorem State.takeHealth_good {s : State} {c : Nat} {pa : Nat} {b : Nat} {h : Health} (h0 : s.Good kl kd) :
    (State.takeHealth s c pa b h).Good kl kd := by
  unfold State.takeHealth
  repeat' first
    | with_reducible assumption | intro _
    | (extract_lets +onlyGivenNames x; refine (fun (_ : State.Good kl kd x) => ?_) ?_; clear_value x; rotate_left; subst x)
    | extract_lets +onlyGivenNames x | with_reducible apply State.updCore_good | with_reducible apply State.ite_good | split

theorem State.startHealth_good {s : State} {rows : List (BitVec 9 × BitVec 7 × BitVec 1 × Bool × List Byte)} {c : Nat} (h0 : s.Good kl kd) :
    (State.startHealth s rows c).Good kl kd := by
  unfold State.startHealth
  repeat' first
    | with_reducible assumption | intro _
    | (extract_lets +onlyGivenNames x; refine (fun (_ : State.Good kl kd x) => ?_) ?_; clear_value x; rotate_left; subst x)
    | (extract_lets +onlyGivenNames x; refine (fun (_ : State.Good kl kd x.1) => ?_) ?_; clear_value x; rotate_left; subst x)
    | extract_lets +onlyGivenNames x | with_reducible apply State.startBank_good | with_reducible apply State.takeHealth_good
    | with_reducible apply State.ite_good | with_reducible apply State.foldl_good | with_reducible apply State.foldl_fst_good | split

theorem State.showArrays_good {s : State} {c : Nat} (h0 : s.Good kl kd) : (s.showArrays c).Good kl kd := by
  unfold State.showArrays
  repeat' first
    | with_reducible assumption
    | (extract_lets +onlyGivenNames x; refine (fun (_ : State.Good kl kd x) => ?_) ?_; clear_value x; rotate_left; subst x)
    | extract_lets +onlyGivenNames x | with_reducible apply State.wr_good | with_reducible apply State.syncArrays_good

theorem State.loadCal_good {s : State} {c : Nat} (h0 : s.Good kl kd) : (s.loadCal c).Good kl kd := by
  unfold State.loadCal
  repeat' first
    | with_reducible assumption | extract_lets +onlyGivenNames x | with_reducible apply State.logCore_good
    | with_reducible apply State.updCal_good | with_reducible apply State.wr_good | split

theorem State.startCal_good {s : State} {c : Nat} {found : CalFindings} (h0 : s.Good kl kd) : (s.startCal c found).Good kl kd := by
  unfold State.startCal
  repeat' first
    | with_reducible assumption
    | (extract_lets +onlyGivenNames x; refine (fun (_ : State.Good kl kd x) => ?_) ?_; clear_value x; rotate_left; subst x)
    | extract_lets +onlyGivenNames x | with_reducible apply State.wr_good | with_reducible apply State.loadCal_good
    | with_reducible apply State.updCal_good | with_reducible apply State.calAdopt_good | with_reducible apply State.calFinish_good
    | with_reducible apply State.syncCal_good

theorem execFwFirstStart_good {found : FirmwareFindings} {s : State} (h0 : s.Good kl kd) :
    Out.Good kl kd (execFwFirstStart found s) := by
  unfold execFwFirstStart
  repeat' first
    | with_reducible assumption | intro _
    | (extract_lets +onlyGivenNames x; refine (fun (_ : State.Good kl kd x) => ?_) ?_; clear_value x; rotate_left; subst x)
    | (extract_lets +onlyGivenNames x; refine (fun (_ : State.Good kl kd x.1) => ?_) ?_; clear_value x; rotate_left; subst x)
    | extract_lets +onlyGivenNames x | with_reducible apply State.updMgmt_good | with_reducible apply State.msix_good
    | with_reducible apply State.zeroGrans_good | with_reducible apply State.flashGoOn_good
    | with_reducible apply State.startHealth_good | with_reducible apply State.showArrays_good
    | with_reducible apply State.startCal_good | with_reducible apply State.wr_good | with_reducible apply State.ite_good
    | with_reducible apply State.foldl_good | with_reducible apply State.foldl_fst_good | with_reducible apply Out.next_good
    | with_reducible apply State.mk_good | exact State.Good.mem ‹_› | exact State.Good.regs ‹_› | exact State.Good.power ‹_› | split

theorem State.swapAsk_good {s : State} (h0 : s.Good kl kd) : (s.swapAsk).Good kl kd := by
  unfold State.swapAsk
  repeat' first
    | with_reducible assumption | with_reducible apply State.updMgmt_good

theorem execFwSwap_good {s : State} (h0 : s.Good kl kd) : Out.Good kl kd (execFwSwap s) := by
  unfold execFwSwap
  repeat' first
    | with_reducible assumption | extract_lets +onlyGivenNames x | with_reducible apply State.swapAsk_good
    | with_reducible apply State.ite_good | with_reducible apply Out.next_good

theorem State.swapTake_good {s : State} (h0 : s.Good kl kd) : (s.swapTake).Good kl kd := by
  unfold State.swapTake
  repeat' first
    | with_reducible assumption
    | (extract_lets +onlyGivenNames x; refine (fun (_ : State.Good kl kd x) => ?_) ?_; clear_value x; rotate_left; subst x)
    | extract_lets +onlyGivenNames x | with_reducible apply State.updMgmt_good | with_reducible apply State.wr_good
    | with_reducible apply State.writeBack_good | with_reducible apply State.ite_good

theorem State.handoffTest_good {s : State} (h0 : s.Good kl kd) : (s.handoffTest).Good kl kd := by
  unfold State.handoffTest
  repeat' first
    | with_reducible assumption | extract_lets +onlyGivenNames x | with_reducible apply State.wr_good
    | with_reducible apply State.setWide_good | with_reducible apply State.ite_good

theorem State.cancelSwap_good {s : State} (h0 : s.Good kl kd) : (s.cancelSwap).Good kl kd := by
  unfold State.cancelSwap
  repeat' first
    | with_reducible assumption | extract_lets +onlyGivenNames x | with_reducible apply State.updMgmt_good
    | with_reducible apply State.wr_good | with_reducible apply State.ite_good

theorem execHandoffRecord_good {s : State} (h0 : s.Good kl kd) : Out.Good kl kd (execHandoffRecord s) := by
  unfold execHandoffRecord
  repeat' first
    | with_reducible assumption | intro _
    | (extract_lets +onlyGivenNames x; refine (fun (_ : State.Good kl kd x) => ?_) ?_; clear_value x; rotate_left; subst x)
    | extract_lets +onlyGivenNames x | with_reducible apply State.writeGran_good | with_reducible apply State.updMgmt_good
    | with_reducible apply State.ite_good | with_reducible apply State.foldl_good | with_reducible apply Out.next_good

theorem execHandoff_good {s : State} (h0 : s.Good kl kd) : Out.Good kl kd (execHandoff s) := by
  unfold execHandoff
  repeat' first
    | with_reducible assumption | extract_lets +onlyGivenNames x | with_reducible apply State.updMgmt_good
    | with_reducible apply State.ite_good | with_reducible apply Out.next_good

theorem State.revert_good {s : State} {code : Nat} (h0 : s.Good kl kd) : (s.revert code).Good kl kd := by
  unfold State.revert
  repeat' first
    | with_reducible assumption | extract_lets +onlyGivenNames x | with_reducible apply State.logErr_good
    | with_reducible apply State.wr_good | with_reducible apply State.updMgmt_good

theorem execFwTakeover_good {s : State} (h0 : s.Good kl kd) : Out.Good kl kd (execFwTakeover s) := by
  unfold execFwTakeover
  repeat' first
    | with_reducible assumption | intro _
    | (extract_lets +onlyGivenNames x; refine (fun (_ : State.Good kl kd x) => ?_) ?_; clear_value x; rotate_left; subst x)
    | extract_lets +onlyGivenNames x | with_reducible apply State.updMgmt_good | with_reducible apply State.msix_good
    | with_reducible apply State.flashGoOn_good | with_reducible apply State.revert_good | with_reducible apply State.wr_good
    | with_reducible apply State.ite_good | with_reducible apply Out.next_good | split

theorem execHandoffTimeout_good {s : State} (h0 : s.Good kl kd) : Out.Good kl kd (execHandoffTimeout s) := by
  unfold execHandoffTimeout
  repeat' first
    | with_reducible assumption | extract_lets +onlyGivenNames x | with_reducible apply State.revert_good
    | with_reducible apply State.devFatal_good | with_reducible apply State.ite_good | with_reducible apply Out.next_good

theorem execMpWatchdog_good {s : State} (h0 : s.Good kl kd) : Out.Good kl kd (execMpWatchdog s) := by
  unfold execMpWatchdog
  repeat' first
    | with_reducible assumption | extract_lets +onlyGivenNames x | with_reducible apply State.devFatal_good
    | with_reducible apply State.ite_good | with_reducible apply Out.next_good

end

end Sys2Proof.Machine
end

