-- ==== Sys2Proof/Laws/SoundEdge.lean ====
section
/-! SUPPORT. Soundness, and the stops that hold, are kept by the definitions of Stops, Edge, Gauge, Logs, Registers, Vector, Sequencer,
Step. -/

set_option linter.tactic.unusedName false

namespace Sys2Proof.Machine

section
variable {kl kd : Bool}

/-! ### Stops -/

theorem State.orderlyEdge_good {s : State} (h0 : s.Good kl kd) : (s.orderlyEdge).Good kl kd := by
  unfold State.orderlyEdge
  repeat' first
    | with_reducible assumption | intro _
    | (extract_lets +onlyGivenNames x; refine (fun (_ : State.Good kl kd x) => ?_) ?_; clear_value x; rotate_left; subst x)
    | extract_lets +onlyGivenNames x | with_reducible apply State.msix_good | with_reducible apply State.wr_good
    | with_reducible apply State.updPart_good | with_reducible apply State.endCheck_good | with_reducible apply State.cancelSwap_good
    | with_reducible apply State.dropGleans_good | with_reducible apply State.updPower_good | with_reducible apply State.ite_good
    | with_reducible apply State.foldl_good | rfl

theorem State.orderlyNext_good {s : State} (h0 : s.Good kl kd) : (s.orderlyNext).Good kl kd := by
  have hp : ∀ {t : State} (n : Nat), t.Good kl kd → (t.updPower fun w => { w with ordStep := n }).Good kl kd :=
    fun n h => State.updPower_good h rfl rfl
  unfold State.orderlyNext
  dsimp only
  split
  · exact hp _ (State.appendCause_good (State.wr_good (State.updPower_good h0 rfl rfl)))
  · exact hp _ (State.ite_good (State.writeBack_good h0) h0)
  · exact hp _ (State.ite_good (State.writeSummary_good h0) h0)
  · exact hp _ (State.appendCause_good h0)
  · exact State.latchBegin_good h0

theorem execOrderlyStop_good {s : State} (h0 : s.Good kl kd) : Out.Good kl kd (execOrderlyStop s) := by
  unfold execOrderlyStop
  repeat' first
    | with_reducible assumption | intro _ | extract_lets +onlyGivenNames x | with_reducible apply State.requestReset_good
    | with_reducible apply State.orderlyNext_good | with_reducible apply State.updPower_good | with_reducible apply State.ite_good
    | with_reducible apply State.foldl_good | with_reducible apply Out.next_good | rfl

theorem execPowerOn_good {s : State} (h0 : s.Good kl kd) : Out.Good kl kd (execPowerOn s) := by
  unfold execPowerOn
  repeat' first
    | with_reducible assumption | extract_lets +onlyGivenNames x | with_reducible apply State.updPower_good
    | with_reducible apply State.ite_good | with_reducible apply Out.next_good | rfl

theorem execPowerStagesStart_good {s : State} (h0 : s.Good kl kd) : Out.Good kl kd (execPowerStagesStart s) := by
  unfold execPowerStagesStart
  repeat' first
    | with_reducible assumption | extract_lets +onlyGivenNames x | with_reducible apply State.updPower_good
    | with_reducible apply State.ite_good | with_reducible apply Out.next_good | rfl

theorem execInputRemoved_good {s : State} (h0 : s.Good false false) : Out.Good false false (execInputRemoved s) := by
  unfold execInputRemoved
  refine Out.next_good (State.ite_good ?_ h0)
  have h := State.deviceReset_good h0
  exact ⟨h.mem, h.regs, ⟨nofun, nofun⟩⟩

/-! ### Edge -/

theorem State.snapLatch_good {s : State} {n : Nat} (h0 : s.Good kl kd) : (s.snapLatch n).Good kl kd := by
  unfold State.snapLatch
  dsimp only
  have h1 : ∀ k : Nat, (if ((s.snaps.filter fun x => decide (x.at_ < n)).isEmpty) then s else s.bump R.msg_SNAP_LATE k).Good kl kd :=
    fun _ => State.ite_good h0 (State.bump_good h0)
  have h2 : ∀ (k v : Nat) (xs : List Snap), (({ (if ((s.snaps.filter fun x => decide (x.at_ < n)).isEmpty) then s else s.bump R.msg_SNAP_LATE k) with
      snaps := xs } : State).wr R.snap_PENDING v).Good kl kd := fun k v xs => State.wr_good ⟨(h1 k).mem, (h1 k).regs, (h1 k).power⟩
  split
  · exact h2 _ _ _
  · have h3 := h2 (s.snaps.filter fun x => decide (x.at_ < n)).length (min (s.snaps.filter fun x => decide (n < x.at_)).length 7)
      (s.snaps.filter fun x => decide (n < x.at_))
    refine State.wr_good (State.wr_good (State.setWide_good (State.wr_good ?_)))
    exact ⟨h3.mem, h3.regs, h3.power⟩

theorem State.sampleEdge_good {s : State} (h0 : s.Good kl kd) : (s.sampleEdge).Good kl kd := by
  unfold State.sampleEdge
  repeat' first
    | with_reducible assumption | intro _
    | (extract_lets +onlyGivenNames x; refine (fun (_ : State.Good kl kd x) => ?_) ?_; clear_value x; rotate_left; subst x)
    | extract_lets +onlyGivenNames x | with_reducible apply State.updNet_good | with_reducible apply State.updHost_good
    | with_reducible apply State.updPart_good | with_reducible apply State.foldl_good

theorem State.numberEdge_good {s : State} {n : Nat} (h0 : s.Good kl kd) : (s.numberEdge n).Good kl kd := by
  unfold State.numberEdge
  repeat' first
    | with_reducible assumption | extract_lets +onlyGivenNames x | with_reducible apply State.wr_good
    | with_reducible apply State.setWide_good

theorem State.applyWrites_good {s : State} (h0 : s.Good kl kd) : (s.applyWrites).Good kl kd := by
  unfold State.applyWrites
  repeat' first
    | with_reducible assumption | intro _
    | (extract_lets +onlyGivenNames x; refine (fun (_ : State.Good kl kd x) => ?_) ?_; clear_value x; rotate_left; subst x)
    | extract_lets +onlyGivenNames x | with_reducible apply State.wr_good | with_reducible apply State.updPower_good
    | with_reducible apply State.foldl_good | rfl | split

theorem State.powerEdge_good {s : State} (h0 : s.Good kl kd) : (s.powerEdge).Good kl kd := by
  unfold State.powerEdge
  repeat' first
    | with_reducible assumption | intro _
    | (extract_lets +onlyGivenNames x; refine (fun (_ : State.Good kl kd x) => ?_) ?_; clear_value x; rotate_left; subst x)
    | extract_lets +onlyGivenNames x | with_reducible apply State.pinEdge_good | with_reducible apply State.governorLevels_good
    | with_reducible apply State.applyWrites_good | with_reducible apply State.coreTempSample_good
    | with_reducible apply State.bump_good | with_reducible apply State.ite_good | with_reducible apply State.foldl_good

theorem State.coresEdge_good {s : State} {pubs : List Nat} (h0 : s.Good kl kd) : (s.coresEdge pubs).Good kl kd := by
  unfold State.coresEdge
  repeat' first
    | with_reducible assumption | intro _
    | (extract_lets +onlyGivenNames x; refine (fun (_ : State.Good kl kd x) => ?_) ?_; clear_value x; rotate_left; subst x)
    | extract_lets +onlyGivenNames x | with_reducible apply State.takeHostCmd_good | with_reducible apply State.calEdge_good
    | with_reducible apply State.weightEdge_good | with_reducible apply State.ite_good | with_reducible apply State.foldl_good

theorem State.countSpans_good {s : State} (h0 : s.Good kl kd) : (s.countSpans).Good kl kd := by
  unfold State.countSpans
  repeat' first
    | with_reducible assumption | intro _ | extract_lets +onlyGivenNames x | with_reducible apply State.wr_good
    | with_reducible apply State.foldl_good | split

theorem State.publishEdge_good {s : State} {cal : List Nat} {p : Nat} (h0 : s.Good kl kd) : (s.publishEdge cal p).Good kl kd := by
  unfold State.publishEdge
  repeat' first
    | with_reducible assumption
    | (extract_lets +onlyGivenNames x; refine (fun (_ : State.Good kl kd x) => ?_) ?_; clear_value x; rotate_left; subst x)
    | extract_lets +onlyGivenNames x | with_reducible apply State.publish_good | with_reducible apply State.disableNow_good
    | with_reducible apply State.ite_good

theorem State.disableIdle_good {s : State} {p : Nat} (h0 : s.Good kl kd) : (s.disableIdle p).Good kl kd := by
  unfold State.disableIdle
  repeat' first
    | with_reducible assumption | extract_lets +onlyGivenNames x | with_reducible apply State.disableNow_good
    | with_reducible apply State.ite_good

theorem State.closeOrphans_good {s : State} (h0 : s.Good kl kd) : (s.closeOrphans).Good kl kd := by
  unfold State.closeOrphans
  repeat' first
    | with_reducible assumption | intro _ | extract_lets +onlyGivenNames x | with_reducible apply State.closeReq_good
    | with_reducible apply State.foldl_good

theorem State.grantEdge_good {s : State} {pubs : List Nat} (h0 : s.Good kl kd) : (State.grantEdge s pubs).Good kl kd := by
  unfold State.grantEdge
  repeat' first
    | with_reducible assumption | intro _
    | (extract_lets +onlyGivenNames x; refine (fun (_ : State.Good kl kd x) => ?_) ?_; clear_value x; rotate_left; subst x)
    | extract_lets +onlyGivenNames x | with_reducible apply State.windowGrant_good | with_reducible apply State.ite_good
    | with_reducible apply State.foldl_good | with_reducible apply State.foldl_fst_good | split

theorem State.edgeEntries_good {s : State} {p : Nat} {maint : Bool} (h0 : s.Good kl kd) :
    (State.edgeEntries s p maint).1.Good kl kd := by
  unfold State.edgeEntries
  repeat' first
    | with_reducible assumption
    | (extract_lets +onlyGivenNames x; refine (fun (_ : State.Good kl kd x.1) => ?_) ?_; clear_value x; rotate_left; subst x)
    | with_reducible apply State.rpEntries_good | with_reducible apply State.rpEnd_good | with_reducible apply State.updPart_good
    | with_reducible apply State.takeEntries_good | split

theorem State.admitEdge_good {s : State} {p : Nat} (h0 : s.Good kl kd) : (s.admitEdge p).Good kl kd := by
  unfold State.admitEdge
  repeat' first
    | with_reducible assumption
    | (extract_lets +onlyGivenNames x; refine (fun (_ : State.Good kl kd x) => ?_) ?_; clear_value x; rotate_left; subst x)
    | (extract_lets +onlyGivenNames x; refine (fun (_ : State.Good kl kd x.1) => ?_) ?_; clear_value x; rotate_left; subst x)
    | extract_lets +onlyGivenNames x | with_reducible apply State.edgeEntries_good | with_reducible apply State.writeRefusals_good
    | with_reducible apply State.admitFrame_good | with_reducible apply State.updFrame_good | with_reducible apply State.ite_good

theorem State.logEdge_good {s : State} (h0 : s.Good kl kd) : (s.logEdge).Good kl kd := by
  unfold State.logEdge
  repeat' first
    | extract_lets +onlyGivenNames x | with_reducible apply State.mk_good | exact State.Good.mem ‹_› | exact State.Good.regs ‹_›
    | exact State.Good.power ‹_›

theorem State.edgeStart_good {s : State} (h0 : s.Good kl kd) : (State.edgeStart s).Good kl kd := by
  unfold State.edgeStart
  repeat' first
    | with_reducible assumption | intro _
    | (extract_lets +onlyGivenNames x; refine (fun (_ : State.Good kl kd x) => ?_) ?_; clear_value x; rotate_left; subst x)
    | extract_lets +onlyGivenNames x | with_reducible apply State.tierEdge_good | with_reducible apply State.repairEdge_good
    | with_reducible apply State.marksEdge_good | with_reducible apply State.applyPeriod_good | with_reducible apply State.goEdge_good
    | with_reducible apply State.resetEdge_good | with_reducible apply State.swapTake_good
    | with_reducible apply State.handoffTest_good | with_reducible apply State.orderlyEdge_good
    | with_reducible apply State.snapLatch_good | with_reducible apply State.sampleEdge_good
    | with_reducible apply State.numberEdge_good | with_reducible apply State.powerEdge_good
    | with_reducible apply State.countSpans_good | with_reducible apply State.logEdge_good | with_reducible apply State.ite_good
    | with_reducible apply State.foldl_good | with_reducible apply State.foldl_fst_good | split

theorem State.edgeRest_good {s : State} (h0 : s.Good kl kd) : (State.edgeRest s).Good kl kd := by
  unfold State.edgeRest
  repeat' first
    | with_reducible assumption | intro _
    | (extract_lets +onlyGivenNames x; refine (fun (_ : State.Good kl kd x) => ?_) ?_; clear_value x; rotate_left; subst x)
    | extract_lets +onlyGivenNames x | with_reducible apply State.gleanTake_good | with_reducible apply State.writeTierEvents_good
    | with_reducible apply State.sendMarks_good | with_reducible apply State.flipFails_good
    | with_reducible apply State.enableEdge_good | with_reducible apply State.coresEdge_good
    | with_reducible apply State.publishEdge_good | with_reducible apply State.disableIdle_good
    | with_reducible apply State.closeOrphans_good | with_reducible apply State.grantEdge_good
    | with_reducible apply State.admitEdge_good | with_reducible apply State.ite_good | with_reducible apply State.foldl_good
    | with_reducible apply State.foldl_fst_good | split

theorem State.tickEdge_good {s : State} (h0 : s.Good kl kd) : (State.tickEdge s).Good kl kd := by
  unfold State.tickEdge
  repeat' first
    | with_reducible assumption | intro _
    | (extract_lets +onlyGivenNames x; refine (fun (_ : State.Good kl kd x) => ?_) ?_; clear_value x; rotate_left; subst x)
    | extract_lets +onlyGivenNames x | with_reducible apply State.toCycle_good | with_reducible apply State.numberEdge_good
    | with_reducible apply State.logEdge_good | with_reducible apply State.edgeStart_good | with_reducible apply State.edgeRest_good
    | with_reducible apply State.ite_good | split

theorem execTickEdge_good {s : State} (h0 : s.Good kl kd) : Out.Good kl kd (execTickEdge s) := by
  unfold execTickEdge
  repeat' first
    | with_reducible assumption | extract_lets +onlyGivenNames x | with_reducible apply State.tickEdge_good
    | with_reducible apply State.ite_good | with_reducible apply Out.next_good

/-! ### Gauge -/

theorem State.openWire_good {s : State} {lo : Nat} {v : Nat} (h0 : s.Good kl kd) : (State.openWire s lo v).Good kl kd := by
  unfold State.openWire
  repeat' first
    | with_reducible assumption | intro _
    | (extract_lets +onlyGivenNames x; refine (fun (_ : State.Good kl kd x) => ?_) ?_; clear_value x; rotate_left; subst x)
    | extract_lets +onlyGivenNames x | with_reducible apply State.bump_good | with_reducible apply State.logErr_good
    | with_reducible apply State.wr_good | with_reducible apply State.updPower_good | with_reducible apply State.ite_good | rfl | split

theorem State.coolFault_good {s : State} {bad : Bool} (h0 : s.Good kl kd) : (s.coolFault bad).Good kl kd := by
  unfold State.coolFault
  repeat' first
    | with_reducible assumption
    | (extract_lets +onlyGivenNames x; refine (fun (_ : State.Good kl kd x) => ?_) ?_; clear_value x; rotate_left; subst x)
    | extract_lets +onlyGivenNames x | with_reducible apply State.logErr_good | with_reducible apply State.wr_good
    | with_reducible apply State.ite_good

theorem State.coolReading_good {s : State} {v : Nat} (h0 : s.Good kl kd) : (s.coolReading v).Good kl kd := by
  unfold State.coolReading
  repeat' first
    | with_reducible assumption
    | (extract_lets +onlyGivenNames x; refine (fun (_ : State.Good kl kd x) => ?_) ?_; clear_value x; rotate_left; subst x)
    | extract_lets +onlyGivenNames x | with_reducible apply State.logErr_good | with_reducible apply State.raiseCause_good
    | with_reducible apply State.updPower_good | with_reducible apply State.ite_good | rfl

theorem State.vinReading_good {s : State} {v : Nat} {ovr : Bool} (h0 : s.Good kl kd) : (s.vinReading v ovr).Good kl kd := by
  unfold State.vinReading
  repeat' first
    | with_reducible assumption
    | (extract_lets +onlyGivenNames x; refine (fun (_ : State.Good kl kd x) => ?_) ?_; clear_value x; rotate_left; subst x)
    | extract_lets +onlyGivenNames x | with_reducible apply State.raiseCause_good | with_reducible apply State.updPower_good
    | with_reducible apply State.ite_good | rfl

theorem State.railReading_good {s : State} {ch v : Nat} (h0 : s.Good kl kd) : (s.railReading ch v).Good kl kd := by
  unfold State.railReading
  repeat' first
    | with_reducible assumption
    | (extract_lets +onlyGivenNames x; refine (fun (_ : State.Good kl kd x) => ?_) ?_; clear_value x; rotate_left; subst x)
    | extract_lets +onlyGivenNames x | with_reducible apply State.raiseCause_good | with_reducible apply State.updPower_good
    | with_reducible apply State.ite_good | rfl

theorem State.useResult_good {s : State} {g : Nat} {lo : Nat} {v : Nat} {ovr : Bool} (h0 : s.Good kl kd) :
    (State.useResult s g lo v ovr).Good kl kd := by
  unfold State.useResult
  repeat' first
    | with_reducible assumption | intro _
    | (extract_lets +onlyGivenNames x; refine (fun (_ : State.Good kl kd x) => ?_) ?_; clear_value x; rotate_left; subst x)
    | extract_lets +onlyGivenNames x | with_reducible apply State.logErr_good | with_reducible apply State.raiseCause_good
    | with_reducible apply State.convFail_good | with_reducible apply State.openWire_good | with_reducible apply State.coolFault_good
    | with_reducible apply State.coolReading_good | with_reducible apply State.vinReading_good
    | with_reducible apply State.railReading_good | with_reducible apply State.ite_good | split

theorem State.adjustTrim_good {s : State} {g ch : Nat} (h0 : s.Good kl kd) : (s.adjustTrim g ch).Good kl kd := by
  unfold State.adjustTrim
  repeat' first
    | with_reducible assumption | extract_lets +onlyGivenNames x | with_reducible apply State.drawn_good
    | with_reducible apply State.wr_good | with_reducible apply State.ite_good

theorem State.showResult_good {s : State} {e : Nat} {outs : List Nat} {ovr fs : Bool} {tick cyc : Nat} (h0 : s.Good kl kd) :
    (s.showResult e outs ovr fs tick cyc).Good kl kd := by
  unfold State.showResult
  repeat' first
    | with_reducible assumption
    | (extract_lets +onlyGivenNames x; refine (fun (_ : State.Good kl kd x) => ?_) ?_; clear_value x; rotate_left; subst x)
    | extract_lets +onlyGivenNames x | with_reducible apply State.wr_good

theorem State.endVisit_good {s : State} {g : Nat} {v : Visit} {codes : List (BitVec 12 × Bool)} {tick : Nat} {cyc : Nat} {wait : Nat} (h0 : s.Good kl kd) :
    (State.endVisit s g v codes tick cyc wait).Good kl kd := by
  unfold State.endVisit
  repeat' first
    | with_reducible assumption | intro _
    | (extract_lets +onlyGivenNames x; refine (fun (_ : State.Good kl kd x) => ?_) ?_; clear_value x; rotate_left; subst x)
    | (extract_lets +onlyGivenNames x; refine (fun (_ : State.Good kl kd x.1) => ?_) ?_; clear_value x; rotate_left; subst x)
    | extract_lets +onlyGivenNames x | with_reducible apply State.bump_good | with_reducible apply State.useResult_good
    | with_reducible apply State.adjustTrim_good | with_reducible apply State.showResult_good | with_reducible apply State.wr_good
    | with_reducible apply State.updPower_good | with_reducible apply State.ite_good | rfl | split

theorem execGaugeVisit_good {g3 : Bool} {codes : List (BitVec 12 × Bool)} {tick : BitVec 48} {cyc : BitVec 17} {wait : BitVec 32} {s : State} (h0 : s.Good kl kd) :
    Out.Good kl kd (execGaugeVisit g3 codes tick cyc wait s) := by
  unfold execGaugeVisit
  repeat' first
    | with_reducible assumption | intro _
    | (extract_lets +onlyGivenNames x; refine (fun (_ : State.Good kl kd x) => ?_) ?_; clear_value x; rotate_left; subst x)
    | extract_lets +onlyGivenNames x | with_reducible apply State.beginVisit_good | with_reducible apply State.endVisit_good
    | with_reducible apply State.ite_good | with_reducible apply Out.next_good | split

theorem State.gaugeWrite_good {s : State} {off v : Nat} (h0 : s.Good kl kd) : (s.gaugeWrite off v).Good kl kd := by
  unfold State.gaugeWrite
  repeat' first
    | with_reducible assumption
    | (extract_lets +onlyGivenNames x; refine (fun (_ : State.Good kl kd x) => ?_) ?_; clear_value x; rotate_left; subst x)
    | extract_lets +onlyGivenNames x | with_reducible apply State.hae_good | with_reducible apply State.wr_good
    | with_reducible apply State.ite_good

theorem execEntryWrite_good {off : BitVec 12} {value : Word} {s : State} (h2 : s.Good kl kd) : Out.Good kl kd
    (execEntryWrite off value s) := by
  unfold execEntryWrite
  repeat' first
    | with_reducible assumption | extract_lets +onlyGivenNames x | with_reducible apply State.gaugeWrite_good
    | with_reducible apply State.ite_good | with_reducible apply Out.next_good

/-! ### Logs -/

theorem State.updLog_good {s : State} {f : LogSt → LogSt} (h0 : s.Good kl kd) : (s.updLog f).Good kl kd := by
  unfold State.updLog
  repeat' first
    | extract_lets +onlyGivenNames x | with_reducible apply State.mk_good | exact State.Good.mem ‹_› | exact State.Good.regs ‹_›
    | exact State.Good.power ‹_›

theorem State.logRec_good {s : State} {r : ErrRec} (h0 : s.Good kl kd) : (s.logRec r).Good kl kd := by
  unfold State.logRec
  repeat' first
    | with_reducible assumption | intro _
    | (extract_lets +onlyGivenNames x; refine (fun (_ : State.Good kl kd x) => ?_) ?_; clear_value x; rotate_left; subst x)
    | extract_lets +onlyGivenNames x | with_reducible apply State.updLog_good | with_reducible apply State.wr_good
    | with_reducible apply State.writeGran_good | with_reducible apply State.bump_good | with_reducible apply State.ite_good
    | with_reducible apply State.foldl_good

theorem State.logRecs_good {s : State} {rs : List ErrRec} (h0 : s.Good kl kd) : (State.logRecs s rs).1.Good kl kd := by
  unfold State.logRecs
  repeat' first
    | with_reducible assumption | intro _ | extract_lets +onlyGivenNames x | with_reducible apply State.logRec_good
    | with_reducible apply State.foldl_fst_good

theorem State.haeRec_good {s : State} {r : HaeRec} (h0 : s.Good kl kd) : (s.haeRec r).Good kl kd := by
  unfold State.haeRec
  repeat' first
    | with_reducible assumption | extract_lets +onlyGivenNames x | with_reducible apply State.wr_good
    | with_reducible apply State.putGranBytes_good | with_reducible apply State.bump_good | with_reducible apply State.ite_good

theorem State.haeRecs_good {s : State} {rs : List HaeRec} (h0 : s.Good kl kd) : (s.haeRecs rs).Good kl kd := by
  unfold State.haeRecs
  repeat' first
    | with_reducible assumption | intro _
    | (extract_lets +onlyGivenNames x; refine (fun (_ : State.Good kl kd x) => ?_) ?_; clear_value x; rotate_left; subst x)
    | extract_lets +onlyGivenNames x | with_reducible apply State.haeRec_good | with_reducible apply State.msix_good
    | with_reducible apply State.ite_good | with_reducible apply State.foldl_good

theorem execLogFlush_good {s : State} (h0 : s.Good kl kd) : Out.Good kl kd (execLogFlush s) := by
  unfold execLogFlush
  repeat' first
    | with_reducible assumption | intro _
    | (extract_lets +onlyGivenNames x; refine (fun (_ : State.Good kl kd x.1) => ?_) ?_; clear_value x; rotate_left; subst x)
    | extract_lets +onlyGivenNames x | with_reducible apply State.logRecs_good | with_reducible apply State.updLog_good
    | with_reducible apply State.haeRecs_good | with_reducible apply State.msix_good | with_reducible apply State.ite_good
    | with_reducible apply State.foldl_good | with_reducible apply Out.next_good

theorem State.logSelect_good {s : State} {i : Nat} (h0 : s.Good kl kd) : (s.logSelect i).Good kl kd := by
  unfold State.logSelect
  repeat' first
    | with_reducible assumption | intro _
    | (extract_lets +onlyGivenNames x; refine (fun (_ : State.Good kl kd x.1) => ?_) ?_; clear_value x; rotate_left; subst x)
    | extract_lets +onlyGivenNames x | with_reducible apply State.readGran_good | with_reducible apply State.wr_good
    | with_reducible apply State.foldl_good

theorem execLogSel_good {sel : BitVec 16} {s : State} (h1 : s.Good kl kd) : Out.Good kl kd (execLogSel sel s) := by
  unfold execLogSel
  repeat' first
    | with_reducible assumption | extract_lets +onlyGivenNames x | with_reducible apply State.logSelect_good
    | with_reducible apply State.ite_good | with_reducible apply Out.next_good

theorem execDeviceFatal_good {src code : Byte} {station : BitVec 10} {s : State} (h3 : s.Good kl kd) : Out.Good kl kd
    (execDeviceFatal src code station s) := by
  unfold execDeviceFatal
  repeat' first
    | with_reducible assumption | extract_lets +onlyGivenNames x | with_reducible apply State.devFatal_good
    | with_reducible apply State.ite_good | with_reducible apply Out.next_good

theorem State.mirrorUnit_good {s : State} {p i : Nat} (h0 : s.Good kl kd) : (s.mirrorUnit p i).Good kl kd := by
  unfold State.mirrorUnit
  repeat' first
    | with_reducible assumption
    | (extract_lets +onlyGivenNames x; refine (fun (_ : State.Good kl kd x.1) => ?_) ?_; clear_value x; rotate_left; subst x)
    | with_reducible apply State.readGran_good | with_reducible apply State.sendHost_good | split

theorem execMirrorCopy_good {p : BitVec 6} {s : State} (h1 : s.Good kl kd) : Out.Good kl kd (execMirrorCopy p s) := by
  unfold execMirrorCopy
  repeat' first
    | with_reducible assumption | intro _
    | (extract_lets +onlyGivenNames x; refine (fun (_ : State.Good kl kd x) => ?_) ?_; clear_value x; rotate_left; subst x)
    | extract_lets +onlyGivenNames x | with_reducible apply State.mirrorUnit_good | with_reducible apply State.updPart_good
    | with_reducible apply State.sendHost_good | with_reducible apply State.ite_good | with_reducible apply State.foldl_good
    | with_reducible apply Out.next_good

theorem State.snapArm_good {s : State} (h0 : s.Good kl kd) : (s.snapArm).Good kl kd := by
  unfold State.snapArm
  repeat' first
    | with_reducible assumption | intro _
    | (extract_lets +onlyGivenNames x; refine (fun (_ : State.Good kl kd x) => ?_) ?_; clear_value x; rotate_left; subst x)
    | extract_lets +onlyGivenNames x | with_reducible apply State.wr_good | with_reducible apply State.queueMsg_good
    | with_reducible apply State.ite_good | with_reducible apply State.foldl_good | with_reducible apply State.mk_good
    | exact State.Good.mem ‹_› | exact State.Good.regs ‹_› | exact State.Good.power ‹_›

theorem execSnapArm_good {s : State} (h0 : s.Good kl kd) : Out.Good kl kd (execSnapArm s) := by
  unfold execSnapArm
  repeat' first
    | with_reducible assumption | extract_lets +onlyGivenNames x | with_reducible apply State.snapArm_good
    | with_reducible apply State.ite_good | with_reducible apply Out.next_good

/-! ### Registers -/

theorem State.hold_good {s : State} {fn : Nat} {f : Fld} {i : Nat} (h0 : s.Good kl kd) : (s.hold fn f i).Good kl kd := by
  unfold State.hold
  repeat' first
    | with_reducible assumption | intro _ | extract_lets +onlyGivenNames x | with_reducible apply State.wr_good
    | with_reducible apply State.foldl_good | split

theorem State.readReg_good {s : State} {fn a : Nat} (h0 : s.Good kl kd) : (State.readReg s fn a).1.Good kl kd := by
  unfold State.readReg
  repeat' first
    | with_reducible assumption | intro _ | extract_lets +onlyGivenNames x | with_reducible apply State.hold_good
    | with_reducible apply State.foldl_good

theorem State.msixPut_good {s : State} {fn w v : Nat} (h0 : s.Good kl kd) : (s.msixPut fn w v).Good kl kd := by
  unfold State.msixPut
  repeat' first
    | with_reducible assumption | extract_lets +onlyGivenNames x | with_reducible apply State.mask_good
    | with_reducible apply State.unmask_good | with_reducible apply State.updHost_good | with_reducible apply State.ite_good

theorem State.tierPut_good {s : State} {fn w off v : Nat} (h0 : s.Good kl kd) : (s.tierPut fn w off v).Good kl kd := by
  unfold State.tierPut
  repeat' first
    | with_reducible assumption | extract_lets +onlyGivenNames x | with_reducible apply State.wr_good
    | with_reducible apply State.tierGo_good | with_reducible apply State.ite_good

theorem State.readWord_good {s : State} {fn off : Nat} (h0 : s.Good kl kd) : (State.readWord s fn off).1.Good kl kd := by
  unfold State.readWord
  repeat' first
    | with_reducible assumption | with_reducible apply State.readReg_good | with_reducible apply State.hae_good | split

theorem State.ringRead_good {s : State} {fn off n : Nat} (h0 : s.Good kl kd) : (s.ringRead fn off n).Good kl kd := by
  unfold State.ringRead
  repeat' first
    | with_reducible assumption | intro _
    | (extract_lets +onlyGivenNames x; refine (fun (_ : State.Good kl kd x.1) => ?_) ?_; clear_value x; rotate_left; subst x)
    | extract_lets +onlyGivenNames x | with_reducible apply State.updHost_good | with_reducible apply State.hae_good
    | with_reducible apply State.readGran_good | with_reducible apply State.ite_good | with_reducible apply State.foldl_fst_good

theorem State.ringWrite_good {s : State} {fn off : Nat} {bs : List Byte} (h0 : s.Good kl kd) : (s.ringWrite fn off bs).Good kl kd :=
    by
  unfold State.ringWrite
  repeat' first
    | with_reducible assumption | intro _ | extract_lets +onlyGivenNames x | with_reducible apply State.hae_good
    | with_reducible apply State.bar2Gran_good | with_reducible apply State.ite_good | with_reducible apply State.foldl_good

theorem execHoldingRegisterRead_good {fn : BitVec 7} {off : BitVec 26} {len : BitVec 13} {s : State} (h3 : s.Good kl kd)
    : Out.Good kl kd (execHoldingRegisterRead fn off len s) := by
  unfold execHoldingRegisterRead
  repeat' first
    | with_reducible assumption
    | (extract_lets +onlyGivenNames x; refine (fun (_ : State.Good kl kd x.1) => ?_) ?_; clear_value x; rotate_left; subst x)
    | extract_lets +onlyGivenNames x | with_reducible apply State.updHost_good | with_reducible apply State.unsupported_good
    | with_reducible apply State.ringRead_good | with_reducible apply State.hae_good | with_reducible apply State.readWord_good
    | with_reducible apply State.ite_good | with_reducible apply Out.next_good

theorem State.writeField_good {s : State} {f : Fld} {i j v : Nat} (h0 : s.Good kl kd) : (s.writeField f i j v).Good kl kd := by
  unfold State.writeField
  repeat' first
    | with_reducible assumption | extract_lets +onlyGivenNames x | with_reducible apply State.wr_good
    | with_reducible apply State.updPower_good | with_reducible apply State.ite_good | rfl | split

theorem State.plainBut_good {s : State} {a v : Nat} {skip : List Fld} (h0 : s.Good kl kd) : (s.plainBut a v skip).Good kl kd := by
  unfold State.plainBut
  repeat' first
    | with_reducible assumption | intro _ | extract_lets +onlyGivenNames x | with_reducible apply State.writeField_good
    | with_reducible apply State.foldl_good

theorem State.plain_good {s : State} {a v : Nat} (h0 : s.Good kl kd) : (s.plain a v).Good kl kd := by
  unfold State.plain
  repeat' first
    | with_reducible assumption | with_reducible apply State.plainBut_good

theorem State.refuseWr_good {s : State} {w : HostWr} {kind : Nat} (h0 : s.Good kl kd) : (s.refuseWr w kind).Good kl kd :=
    by
  unfold State.refuseWr
  repeat' first
    | with_reducible assumption | with_reducible apply State.hae_good

theorem State.plainIf_good {s : State} {w : HostWr} {ok : Bool} (h0 : s.Good kl kd) : (s.plainIf w ok).Good kl kd := by
  unfold State.plainIf
  repeat' first
    | with_reducible assumption | extract_lets +onlyGivenNames x | with_reducible apply State.plain_good
    | with_reducible apply State.refuseWr_good | with_reducible apply State.ite_good

theorem State.wrPart_good {s : State} {w : HostWr} (h0 : s.Good kl kd) : (s.wrPart w).Good kl kd := by
  unfold State.wrPart
  repeat' first
    | with_reducible assumption
    | (extract_lets +onlyGivenNames x; refine (fun (_ : State.Good kl kd x) => ?_) ?_; clear_value x; rotate_left; subst x)
    | extract_lets +onlyGivenNames x | with_reducible apply State.plain_good | with_reducible apply State.enableReq_good
    | with_reducible apply State.disableReq_good | with_reducible apply State.ite_good

theorem State.wrPolicy_good {s : State} {w : HostWr} (h0 : s.Good kl kd) : (s.wrPolicy w).Good kl kd := by
  unfold State.wrPolicy
  repeat' first
    | with_reducible assumption | extract_lets +onlyGivenNames x | with_reducible apply State.updPart_good
    | with_reducible apply State.wr_good | with_reducible apply State.ite_good

theorem State.wrTherm_good {s : State} {w : HostWr} (h0 : s.Good kl kd) : (s.wrTherm w).Good kl kd := by
  unfold State.wrTherm
  repeat' first
    | with_reducible assumption | extract_lets +onlyGivenNames x | with_reducible apply State.stopCause_good
    | with_reducible apply State.plainIf_good | with_reducible apply State.ite_good

theorem State.wrGlean_good {s : State} {w : HostWr} (h0 : s.Good kl kd) : (s.wrGlean w).Good kl kd := by
  unfold State.wrGlean
  repeat' first
    | with_reducible assumption
    | (extract_lets +onlyGivenNames x; refine (fun (_ : State.Good kl kd x) => ?_) ?_; clear_value x; rotate_left; subst x)
    | extract_lets +onlyGivenNames x | with_reducible apply State.syncGlean_good | with_reducible apply State.plain_good
    | with_reducible apply State.gleanGo_good | with_reducible apply State.ite_good

theorem State.wrTrail_good {s : State} {w : HostWr} (h0 : s.Good kl kd) : (s.wrTrail w).Good kl kd := by
  unfold State.wrTrail
  repeat' first
    | with_reducible assumption
    | (extract_lets +onlyGivenNames x; refine (fun (_ : State.Good kl kd x) => ?_) ?_; clear_value x; rotate_left; subst x)
    | extract_lets +onlyGivenNames x | with_reducible apply State.plain_good | with_reducible apply State.refuseWr_good
    | with_reducible apply State.updPart_good | with_reducible apply State.ite_good

theorem State.wrTier_good {s : State} {w : HostWr} (h0 : s.Good kl kd) : (s.wrTier w).Good kl kd := by
  unfold State.wrTier
  repeat' first
    | with_reducible assumption | extract_lets +onlyGivenNames x | with_reducible apply State.tierGo_good
    | with_reducible apply State.rqSelect_good | with_reducible apply State.plain_good | with_reducible apply State.ite_good

theorem State.wrPtier_good {s : State} {w : HostWr} (h0 : s.Good kl kd) : (s.wrPtier w).Good kl kd := by
  unfold State.wrPtier
  repeat' first
    | with_reducible assumption | extract_lets +onlyGivenNames x | with_reducible apply State.siloWrite_good
    | with_reducible apply State.plain_good | with_reducible apply State.ite_good

theorem State.weGo_good {s : State} {w : HostWr} {c : Nat} (h0 : s.Good kl kd) : (s.weGo w c).Good kl kd := by
  unfold State.weGo
  repeat' first
    | with_reducible assumption | extract_lets +onlyGivenNames x | with_reducible apply State.refuseWr_good
    | with_reducible apply State.wr_good | with_reducible apply State.updCore_good | with_reducible apply State.ite_good

theorem State.wrCore_good {s : State} {w : HostWr} (h0 : s.Good kl kd) : (State.wrCore s w).Good kl kd := by
  unfold State.wrCore
  repeat' first
    | with_reducible assumption | intro _
    | (extract_lets +onlyGivenNames x; refine (fun (_ : State.Good kl kd x) => ?_) ?_; clear_value x; rotate_left; subst x)
    | extract_lets +onlyGivenNames x | with_reducible apply State.updCore_good | with_reducible apply State.calDue_good
    | with_reducible apply State.nodeWrite_good | with_reducible apply State.syncDue_good | with_reducible apply State.wsSelect_good
    | with_reducible apply State.tallyPut_good | with_reducible apply State.plain_good | with_reducible apply State.weGo_good
    | with_reducible apply State.ite_good | split

theorem State.wrPortCtl_good {s : State} {w : HostWr} {n : Nat} (h0 : s.Good kl kd) : (s.wrPortCtl w n).Good kl kd := by
  unfold State.wrPortCtl
  repeat' first
    | with_reducible assumption
    | (extract_lets +onlyGivenNames x; refine (fun (_ : State.Good kl kd x) => ?_) ?_; clear_value x; rotate_left; subst x)
    | extract_lets +onlyGivenNames x | with_reducible apply State.refuseWr_good | with_reducible apply State.wr_good
    | with_reducible apply State.portEnable_good | with_reducible apply State.plainBut_good | with_reducible apply State.retrain_good
    | with_reducible apply State.ite_good

theorem State.wrPort_good {s : State} {w : HostWr} (h0 : s.Good kl kd) : (s.wrPort w).Good kl kd := by
  unfold State.wrPort
  repeat' first
    | with_reducible assumption
    | (extract_lets +onlyGivenNames x; refine (fun (_ : State.Good kl kd x) => ?_) ?_; clear_value x; rotate_left; subst x)
    | extract_lets +onlyGivenNames x | with_reducible apply State.wrPortCtl_good | with_reducible apply State.refuseWr_good
    | with_reducible apply State.wr_good | with_reducible apply State.plain_good | with_reducible apply State.switchWrite_good
    | with_reducible apply State.keyLoad_good | with_reducible apply State.ite_good

theorem State.wrSq_good {s : State} {w : HostWr} {p i : Nat} (h0 : s.Good kl kd) : (s.wrSq w p i).Good kl kd := by
  unfold State.wrSq
  repeat' first
    | with_reducible assumption
    | (extract_lets +onlyGivenNames x; refine (fun (_ : State.Good kl kd x) => ?_) ?_; clear_value x; rotate_left; subst x)
    | extract_lets +onlyGivenNames x | with_reducible apply State.refuseWr_good | with_reducible apply State.wr_good
    | with_reducible apply State.setSqEn_good | with_reducible apply State.ite_good

theorem State.wrCq_good {s : State} {w : HostWr} {p i : Nat} (h0 : s.Good kl kd) : (s.wrCq w p i).Good kl kd := by
  unfold State.wrCq
  repeat' first
    | with_reducible assumption
    | (extract_lets +onlyGivenNames x; refine (fun (_ : State.Good kl kd x) => ?_) ?_; clear_value x; rotate_left; subst x)
    | extract_lets +onlyGivenNames x | with_reducible apply State.refuseWr_good | with_reducible apply State.wr_good
    | with_reducible apply State.plainBut_good | with_reducible apply State.ite_good

theorem State.wrRing_good {s : State} {w : HostWr} (h0 : s.Good kl kd) : (s.wrRing w).Good kl kd := by
  unfold State.wrRing
  repeat' first
    | with_reducible assumption | extract_lets +onlyGivenNames x | with_reducible apply State.wrSq_good
    | with_reducible apply State.plain_good | with_reducible apply State.wrCq_good | with_reducible apply State.refuseWr_good
    | with_reducible apply State.ite_good

theorem State.wrCopy_good {s : State} {w : HostWr} (h0 : s.Good kl kd) : (s.wrCopy w).Good kl kd := by
  unfold State.wrCopy
  repeat' first
    | with_reducible assumption | extract_lets +onlyGivenNames x | with_reducible apply State.copyGo_good
    | with_reducible apply State.plain_good | with_reducible apply State.ite_good

theorem State.wrMgmt_good {s : State} {w : HostWr} {key : Bool} (h0 : s.Good kl kd) : (s.wrMgmt w key).Good kl kd := by
  unfold State.wrMgmt
  repeat' first
    | with_reducible assumption
    | (extract_lets +onlyGivenNames x; refine (fun (_ : State.Good kl kd x) => ?_) ?_; clear_value x; rotate_left; subst x)
    | extract_lets +onlyGivenNames x | with_reducible apply State.plain_good | with_reducible apply State.fwGo_good
    | with_reducible apply State.swapAsk_good | with_reducible apply State.cfgGo_good | with_reducible apply State.ite_good

theorem State.wrLoad_good {s : State} {w : HostWr} (h0 : s.Good kl kd) : (s.wrLoad w).Good kl kd := by
  unfold State.wrLoad
  repeat' first
    | with_reducible assumption | intro _ | extract_lets +onlyGivenNames x | with_reducible apply State.refuseWr_good
    | with_reducible apply State.updMem_good | with_reducible apply State.ite_good | with_reducible apply MemSt.mk_wf
    | with_reducible apply Mem.wf_putLe | exact MemSt.wf.loft ‹_› | exact MemSt.wf.granary ‹_› | exact MemSt.wf.host ‹_›
    | exact MemSt.wf.flash ‹_› | exact MemSt.wf.loadWin ‹_› | exact MemSt.wf.cfgStage ‹_› | exact MemSt.wf.loftPoison ‹_› | exact MemSt.wf.loftClamp ‹_›
    | exact MemSt.wf.granPoison ‹_› | exact MemSt.wf.loftErr ‹_› | exact MemSt.wf.granErr ‹_›

theorem State.wrLow_good {s : State} {w : HostWr} (h0 : s.Good kl kd) : (State.wrLow s w).Good kl kd := by
  unfold State.wrLow
  repeat' first
    | with_reducible assumption | intro _
    | (extract_lets +onlyGivenNames x; refine (fun (_ : State.Good kl kd x) => ?_) ?_; clear_value x; rotate_left; subst x)
    | extract_lets +onlyGivenNames x | with_reducible apply State.syncTier_good | with_reducible apply State.reclaimPages_good
    | with_reducible apply State.nodeWrite_good | with_reducible apply State.periodArm_good
    | with_reducible apply State.coreTable_good | with_reducible apply State.gaugeWrite_good
    | with_reducible apply State.logSelect_good | with_reducible apply State.snapArm_good | with_reducible apply State.plain_good
    | with_reducible apply State.refuseWr_good | with_reducible apply State.plainIf_good | with_reducible apply State.wrPart_good
    | with_reducible apply State.wrPolicy_good | with_reducible apply State.wrTherm_good | with_reducible apply State.wrGlean_good
    | with_reducible apply State.wrTrail_good | with_reducible apply State.wrTier_good | with_reducible apply State.wrPtier_good
    | with_reducible apply State.ite_good | split

theorem State.wrHigh_good {s : State} {w : HostWr} {key : Bool} (h0 : s.Good kl kd) : (s.wrHigh w key).Good kl kd := by
  unfold State.wrHigh
  repeat' first
    | with_reducible assumption | extract_lets +onlyGivenNames x | with_reducible apply State.wrCore_good
    | with_reducible apply State.wrPort_good | with_reducible apply State.plainIf_good | with_reducible apply State.mapWrite_good
    | with_reducible apply State.wrCopy_good | with_reducible apply State.wrRing_good | with_reducible apply State.wrMgmt_good
    | with_reducible apply State.wrLoad_good | with_reducible apply State.plain_good | with_reducible apply State.ite_good

theorem State.regWrite_good {s : State} {w : HostWr} {key : Bool} (h0 : s.Good kl kd) : (s.regWrite w key).Good kl kd := by
  unfold State.regWrite
  repeat' first
    | with_reducible assumption | extract_lets +onlyGivenNames x | with_reducible apply State.wrLow_good
    | with_reducible apply State.wrHigh_good | with_reducible apply State.ite_good

theorem State.writeWord_good {s : State} {fn off v : Nat} {key : Bool} (h0 : s.Good kl kd) : (s.writeWord fn off v key).Good kl kd := by
  unfold State.writeWord
  repeat' first
    | with_reducible assumption | extract_lets +onlyGivenNames x | with_reducible apply State.regWrite_good
    | with_reducible apply State.msixPut_good | with_reducible apply State.tierPut_good | with_reducible apply State.hae_good
    | with_reducible apply State.ite_good | split

theorem execRegisterWrite_good {fn : BitVec 7} {off : BitVec 26} {data : List Byte} {key : Bool} {s : State} (h4 : s.Good kl kd)
    : Out.Good kl kd (execRegisterWrite fn off data key s) := by
  unfold execRegisterWrite
  repeat' first
    | with_reducible assumption
    | (extract_lets +onlyGivenNames x; refine (fun (_ : State.Good kl kd x) => ?_) ?_; clear_value x; rotate_left; subst x)
    | extract_lets +onlyGivenNames x | with_reducible apply State.ringWrite_good | with_reducible apply State.hae_good
    | with_reducible apply State.writeWord_good | with_reducible apply State.ite_good | with_reducible apply Out.next_good

/-! ### Vector -/

theorem State.markClamped_good {s : State} {c : Nat} {a : Nat} {offs : List Nat} (h0 : s.Good kl kd) :
    (State.markClamped s c a offs).Good kl kd := by
  unfold State.markClamped
  repeat' first
    | with_reducible assumption | intro _
    | (extract_lets +onlyGivenNames x; refine (fun (_ : State.Good kl kd x) => ?_) ?_; clear_value x; rotate_left; subst x)
    | extract_lets +onlyGivenNames x | with_reducible apply State.updMem_good | with_reducible apply State.ite_good
    | with_reducible apply State.foldl_good | with_reducible apply State.foldl_fst_good | with_reducible apply Tbl.wf_foldl
    | with_reducible apply State.updMem_good | with_reducible apply MemSt.mk_wf | with_reducible apply Marks.wf_put
    | exact MemSt.wf.loft ‹_› | exact MemSt.wf.granary ‹_› | exact MemSt.wf.host ‹_› | exact MemSt.wf.flash ‹_›
    | exact MemSt.wf.loadWin ‹_› | exact MemSt.wf.cfgStage ‹_› | exact MemSt.wf.loftPoison ‹_› | exact MemSt.wf.loftClamp ‹_›
    | exact MemSt.wf.granPoison ‹_› | exact MemSt.wf.loftErr ‹_› | exact MemSt.wf.granErr ‹_› | split

theorem State.putDest_good {s : State} {c : Nat} {g : Nat} {req : Nat} {d : Dest} (h0 : s.Good kl kd) :
    (State.putDest s c g req d).Good kl kd := by
  unfold State.putDest
  repeat' first
    | with_reducible assumption | intro _
    | (extract_lets +onlyGivenNames x; refine (fun (_ : State.Good kl kd x) => ?_) ?_; clear_value x; rotate_left; subst x)
    | extract_lets +onlyGivenNames x | with_reducible apply State.bump_good | with_reducible apply State.logCore_good
    | with_reducible apply State.poisonLoft_good | with_reducible apply State.putBytes_good
    | with_reducible apply State.markClamped_good | with_reducible apply State.ite_good | with_reducible apply State.foldl_good
    | with_reducible apply State.foldl_fst_good | split

theorem State.vRead_good {s : State} {c : Nat} {cmd : Cmd} (h0 : s.Good kl kd) : (State.vRead s c cmd).Good kl kd := by
  unfold State.vRead
  repeat' first
    | with_reducible assumption | intro _
    | (extract_lets +onlyGivenNames x; refine (fun (_ : State.Good kl kd x) => ?_) ?_; clear_value x; rotate_left; subst x)
    | (extract_lets +onlyGivenNames x; refine (fun (_ : State.Good kl kd x.1) => ?_) ?_; clear_value x; rotate_left; subst x)
    | extract_lets +onlyGivenNames x | with_reducible apply State.eccLoftN_good | with_reducible apply State.ite_good
    | with_reducible apply State.foldl_good | with_reducible apply State.foldl_fst_good | split

theorem State.vRefuse_good {s : State} {c code req : Nat} {cmd : Cmd} {dst : List Run} (h0 : s.Good kl kd) :
    (s.vRefuse c code req cmd dst).Good kl kd := by
  unfold State.vRefuse
  repeat' first
    | with_reducible assumption | intro _
    | (extract_lets +onlyGivenNames x; refine (fun (_ : State.Good kl kd x) => ?_) ?_; clear_value x; rotate_left; subst x)
    | extract_lets +onlyGivenNames x | with_reducible apply State.poisonLoft_good | with_reducible apply State.wr_good
    | with_reducible apply State.retire_good | with_reducible apply State.logCore_good | with_reducible apply State.bump_good
    | with_reducible apply State.ite_good | with_reducible apply State.foldl_good

theorem State.vRun_good {s : State} {c : Nat} {cmd : Cmd} {rows : State → List (List Res)} (h0 : s.Good kl kd) :
    (s.vRun c cmd rows).Good kl kd := by
  unfold State.vRun
  extract_lets
  refine State.guarded_good h0 fun t ht => ?_
  have h1 := State.serve_good (c := c) (req := vReq cmd) ht
  have h2 : ∀ (xs : List Run) {u : State}, u.Good kl kd → (xs.foldl (fun s r => s.eccLoftN c r.1 r.2) u).Good kl kd :=
    fun _ _ h => State.foldl_good h fun _ _ h => State.eccLoftN_good h
  have h3 : ∀ (x : Option Run) (q : Nat) {u : State}, u.Good kl kd → (match x with
        | some r => u.consumePoison c q 0x06 0 (64 * r.1)
        | none => u).Good kl kd := by
    intro x q u h
    split
    · exact State.consumePoison_good h
    · exact h
  refine State.ite_good (State.vRefuse_good h1) ?_
  refine State.retire_good (State.bump_good (State.putDest_good ?_))
  refine State.ite_good (State.useClass_good ?_) ?_
  all_goals exact h3 _ _ (h2 _ h1)

theorem execVact_good {core : BitVec 9} {cmd : Cmd} {s : State} (h2 : s.Good kl kd) : Out.Good kl kd (execVact core cmd s) := by
  unfold execVact
  repeat' first
    | with_reducible assumption | intro _ | extract_lets +onlyGivenNames x | with_reducible apply State.engRun_good
    | with_reducible apply State.vRun_good | with_reducible apply Out.next_good

theorem execVew_good {core : BitVec 9} {cmd : Cmd} {s : State} (h2 : s.Good kl kd) : Out.Good kl kd (execVew core cmd s) := by
  unfold execVew
  repeat' first
    | with_reducible assumption | intro _ | extract_lets +onlyGivenNames x | with_reducible apply State.engRun_good
    | with_reducible apply State.vRun_good | with_reducible apply Out.next_good

theorem State.psinOverflow_good {s : State} {c : Nat} {cmd : Cmd} (h0 : s.Good kl kd) : (s.psinOverflow c cmd).Good kl kd := by
  unfold State.psinOverflow
  repeat' first
    | with_reducible assumption | extract_lets +onlyGivenNames x | with_reducible apply State.logCore_good
    | with_reducible apply State.bump_good | with_reducible apply State.ite_good

theorem State.psinClip_good {s : State} {c : Nat} {cmd : Cmd} (h0 : s.Good kl kd) : (s.psinClip c cmd).Good kl kd := by
  unfold State.psinClip
  repeat' first
    | with_reducible assumption | extract_lets +onlyGivenNames x | with_reducible apply State.markClipped_good
    | with_reducible apply State.bump_good | with_reducible apply State.ite_good

theorem execVpsin_good {core : BitVec 9} {cmd : Cmd} {s : State} (h2 : s.Good kl kd) : Out.Good kl kd (execVpsin core cmd s) := by
  unfold execVpsin
  repeat' first
    | with_reducible assumption | intro _
    | (extract_lets +onlyGivenNames x; refine (fun (_ : State.Good kl kd x) => ?_) ?_; clear_value x; rotate_left; subst x)
    | extract_lets +onlyGivenNames x | with_reducible apply State.engRun_good | with_reducible apply State.psinOverflow_good
    | with_reducible apply State.psinClip_good | with_reducible apply State.vRun_good | with_reducible apply State.ite_good
    | with_reducible apply Out.next_good

theorem execVnorm_good {core : BitVec 9} {cmd : Cmd} {s : State} (h2 : s.Good kl kd) : Out.Good kl kd (execVnorm core cmd s) := by
  unfold execVnorm
  repeat' first
    | with_reducible assumption | intro _ | extract_lets +onlyGivenNames x | with_reducible apply State.engRun_good
    | with_reducible apply State.vRun_good | with_reducible apply Out.next_good

theorem execVsmax_good {core : BitVec 9} {cmd : Cmd} {s : State} (h2 : s.Good kl kd) : Out.Good kl kd (execVsmax core cmd s) := by
  unfold execVsmax
  repeat' first
    | with_reducible assumption | intro _ | extract_lets +onlyGivenNames x | with_reducible apply State.engRun_good
    | with_reducible apply State.vRun_good | with_reducible apply Out.next_good

theorem State.attnBody_good {s : State} {c : Nat} {cmd : Cmd} {t : Attn} (h0 : s.Good kl kd) : (s.attnBody c cmd t).Good kl kd := by
  unfold State.attnBody
  repeat' first
    | with_reducible assumption | intro _
    | (extract_lets +onlyGivenNames x; refine (fun (_ : State.Good kl kd x) => ?_) ?_; clear_value x; rotate_left; subst x)
    | extract_lets +onlyGivenNames x | with_reducible apply State.vRefuse_good | with_reducible apply State.eccLoftN_good
    | with_reducible apply State.putDest_good | with_reducible apply State.retire_good | with_reducible apply State.bump_good
    | with_reducible apply State.ite_good | with_reducible apply State.foldl_good

theorem execVattn_good {core : BitVec 9} {cmd : Cmd} {s : State} (h2 : s.Good kl kd) : Out.Good kl kd (execVattn core cmd s) := by
  unfold execVattn
  repeat' first
    | with_reducible assumption | intro _ | extract_lets +onlyGivenNames x | with_reducible apply State.engRun_good
    | with_reducible apply State.guarded_good | with_reducible apply State.attnBody_good | with_reducible apply State.eccLoft_good
    | with_reducible apply Out.next_good

/-! ### Sequencer -/

theorem State.listPoison_good {s : State} {c : Nat} {e : Engine} (h0 : s.Good kl kd) : (State.listPoison s c e).Good kl kd := by
  unfold State.listPoison
  repeat' first
    | with_reducible assumption | intro _
    | (extract_lets +onlyGivenNames x; refine (fun (_ : State.Good kl kd x) => ?_) ?_; clear_value x; rotate_left; subst x)
    | extract_lets +onlyGivenNames x | with_reducible apply State.coreFatal_good | with_reducible apply State.setEng_good
    | with_reducible apply State.ite_good | split

/-! ### Step -/

theorem State.withFetchWord_good {s : State} {nbits w : Nat} (h0 : s.Good kl kd) : (s.withFetchWord nbits w).Good kl kd := by
  unfold State.withFetchWord
  repeat' first
    | with_reducible assumption | extract_lets +onlyGivenNames x | split | with_reducible apply State.mk_good | exact State.Good.mem ‹_›
    | exact State.Good.regs ‹_› | exact State.Good.power ‹_›

end

end Sys2Proof.Machine
end

