-- ==== Sys2Proof/WellFormed.lean ====
section
/-! DEFINITION. Well-formed commands: the operands lie in the ranges that the spec gives the ports, functions, stacks, sensors, messages and
flits that they name. The meanings are total: they are defined on every command, well-formed or not. -/

namespace Sys2Proof

/-- A link port, 0 to 23 (R332). -/
def wfPort (p : BitVec 5) : Bool := decide (p.toNat < 24)

/-- An HBM stack, 0 to 23 (R419). -/
def wfStack (n : BitVec 5) : Bool := decide (n.toNat < 24)

/-- A function: 0 the physical function, 1 to 64 the virtual functions (R504). -/
def wfFn (fn : BitVec 7) : Bool := decide (fn.toNat ≤ 64)

/-- A virtual function, 1 to 64. -/
def wfVf (fn : BitVec 7) : Bool := decide (1 ≤ fn.toNat) && wfFn fn

/-- A tick period as a base-2 logarithm, 12 to 17 (R55). -/
def wfPeriod (p : BitVec 5) : Bool := decide (12 ≤ p.toNat) && decide (p.toNat ≤ 17)

/-- Bytes that fill whole granules of 64. -/
def wfGranules (ds : List (List Byte)) : Bool := ds.all (fun d => d.length == 64)

/-- How many data granules a message type may carry, least and most (R468's table). -/
def msgData (type : Nat) : Option (Nat × Nat) :=
  match type with
  | 0x01 => some (1, 64)
  | 0x04 => some (3, 65)
  | 0x0E => some (0, 1)
  | t => if 1 ≤ t ∧ t ≤ 0x0D then some (0, 0) else none

/-- A message of a known type with data that its type allows (R468, R470). -/
def LinkMsg.wf (m : LinkMsg) : Bool :=
  wfGranules m.data && decide (m.srcMod.toNat < 4096) && decide (m.dstMod.toNat < 4096) &&
    match msgData m.type.toNat with
    | some (lo, hi) => decide (lo ≤ m.data.length) && decide (m.data.length ≤ hi)
    | none => false

/-- A message given with the command is of the command's type. -/
def wfMsg (type : Nat) : Option LinkMsg → Bool
  | none => true
  | some m => m.wf && m.type.toNat == type

/-- The opcode of an engine command is the one given (R266). -/
def wfOp (op : Nat) (cmd : Cmd) : Bool := cmd.toNat % 256 == op

/-- A flit carries 242 payload bytes (R441). -/
def Flit.wf (f : Flit) : Bool := f.payload.length == 242

/-- At most 15 symbols of a codeword are corrected, and the codewords are among those received (R446). -/
def FecCounts.wf (f : FecCounts) : Bool :=
  decide (f.uncorr + f.corr.length ≤ f.words) && f.corr.all (fun l => decide (l.length ≤ 15) && l.all (fun i => decide (i < 544)))

/-- A flit is whole, and a codeword has 544 symbols. -/
def RxUnit.wf : RxUnit → Bool
  | .flit f => f.wf
  | .word w => w.length == 544
  | .align => true

/-- An optional function is one of the device's. -/
def wfStream : Option (BitVec 7) → Bool
  | none => true
  | some fn => wfFn fn

/-- A host access of 1 to 4,096 bytes. -/
def wfLen (n : Nat) : Bool := decide (1 ≤ n) && decide (n ≤ 4096)

/-- The well-formed commands. -/
def WellFormed : Instr → Bool
  | .tickEdge => true
  | .frameCut => true
  | .frameComplete _ => true
  | .fdone _ _ _ => true
  | .publishCheck => true
  | .publish _ _ => true
  | .frameWatchdog _ => true
  | .tick port _ period _ _ => wfPort port && wfPeriod period
  | .fieldTick port _ period _ _ => wfPort port && wfPeriod period
  | .upstreamSwitch => true
  | .holdoverEntry => true
  | .holdoverTimeout => true
  | .holdoverRealign port _ => wfPort port
  | .periodArm => true
  | .periodChangeApply => true
  | .firstTick mark => match mark with
    | none => true
    | some x => wfPort x.1
  | .mprod _ cmd => wfOp 0x20 cmd
  | .mframe _ cmd => wfOp 0x21 cmd
  | .grantAdmit _ _ => true
  | .productDecide _ _ => true
  | .fallbackRepeat _ _ => true
  | .slabWrite _ => true
  | .refProduct _ _ => true
  | .flipSwitchEnd _ => true
  | .defectActive _ _ _ _ _ => true
  | .repairDone _ _ => true
  | .marginSample _ array _ reads => reads.all (fun x => x.array == array && reads.all (fun y => x.row == y.row))
  | .autoRefresh _ _ => true
  | .wprog _ cmd => wfOp 0x40 cmd
  | .wadopt _ cmd => wfOp 0x41 cmd
  | .wflip _ cmd => wfOp 0x42 cmd
  | .wrefr _ cmd => wfOp 0x43 cmd
  | .werase _ cmd => wfOp 0x44 cmd
  | .wverify _ cmd => wfOp 0x45 cmd
  | .passStart _ _ => true
  | .passEnd _ _ _ => true
  | .calForce _ => true
  | .calAgeExpiry _ => true
  | .calRunStart _ => true
  | .calRunEnd _ _ => true
  | .calWriteback => true
  | .flashWriteDone => true
  | .nop _ _ cmd => wfOp 0x00 cmd
  | .eofr _ _ cmd => wfOp 0x01 cmd
  | .jump _ _ cmd => wfOp 0x02 cmd
  | .qwait _ _ cmd => wfOp 0x03 cmd
  | .unknownOpcode _ _ cmd => !wfOp 0x00 cmd && !wfOp 0x01 cmd && !wfOp 0x02 cmd && !wfOp 0x03 cmd
  | .fetch _ cmd => wfOp 0xA0 cmd
  | .store _ cmd => wfOp 0xA1 cmd
  | .lcopy _ cmd => wfOp 0xA2 cmd
  | .fetchComplete _ _ => true
  | .storeRead _ _ => true
  | .storeDone _ _ => true
  | .patrolScrub _ _ => true
  | .tallyWrite fn _ _ _ => wfFn fn
  | .vpsin _ cmd => wfOp 0x60 cmd
  | .vact _ cmd => wfOp 0x61 cmd
  | .vew _ cmd => wfOp 0x62 cmd
  | .vnorm _ cmd => wfOp 0x63 cmd
  | .vsmax _ cmd => wfOp 0x64 cmd
  | .vattn _ cmd => wfOp 0x65 cmd
  | .rsend _ cmd => wfOp 0xA7 cmd
  | .redFold _ _ _ => true
  | .redDeliver _ _ => true
  | .msend _ cmd => wfOp 0xA6 cmd
  | .mcAck _ _ _ => true
  | .mcComplete _ _ => true
  | .poisonNote _ _ _ _ _ _ => true
  | .nodeWrite _ _ => true
  | .openCmd fn _ _ => wfFn fn
  | .openDone _ => true
  | .close fn _ => wfFn fn
  | .parkCmd fn _ => wfFn fn
  | .resume fn _ => wfFn fn
  | .setTtl fn _ _ => wfFn fn
  | .pin fn _ _ => wfFn fn
  | .idleDeadline _ => true
  | .ttlDeadline _ => true
  | .tierPageMove _ => true
  | .parkDone _ => true
  | .parkAbort _ => true
  | .returnStart _ => true
  | .returnDone _ => true
  | .returnFail _ => true
  | .poolPressure _ => true
  | .siloCountWrite _ _ => true
  | .rqSel _ => true
  | .wsSel _ _ => true
  | .wdraw _ cmd => wfOp 0xA8 cmd
  | .wdrawSlice _ _ => true
  | .drawStart => true
  | .drawDone _ => true
  | .verifyDecide _ _ => true
  | .hbmScrub stack _ _ => wfStack stack
  | .hbmRefresh stack => wfStack stack
  | .hbmTempRead stack _ => wfStack stack
  | .hbmInterfaceFail stack => wfStack stack
  | .bar2Read _ len => wfLen len.toNat
  | .bar2Write _ data _ => wfLen data.length
  | .bar2MapWrite _ _ => true
  | .bar2Resize n _ => decide (28 ≤ n.toNat) && decide (n.toNat ≤ 36)
  | .portEnable port _ => wfPort port
  | .retrain port => wfPort port
  | .partnerTrain port _ => wfPort port
  | .trainDone port found => wfPort port && wfPort found.nport
  | .trainFail port _ => wfPort port
  | .trainRetry port => wfPort port
  | .quickTrain port cause => wfPort port && decide (cause.toNat < 3)
  | .timingExchange port _ => wfPort port
  | .flitTx port => wfPort port
  | .flitRx port u _ _ fec => wfPort port && u.wf && fec.wf
  | .replayTimeout port => wfPort port
  | .portFail port => wfPort port
  | .wwrite m => wfMsg 0x01 m
  | .wack m => wfMsg 0x02 m
  | .cgrant m => wfMsg 0x03 m
  | .radd m => wfMsg 0x04 m
  | .snap port m => wfPort port && wfMsg 0x06 m
  | .poison m => wfMsg 0x07 m
  | .cset m => wfMsg 0x08 m
  | .csetAck m => wfMsg 0x09 m
  | .commit m => wfMsg 0x0C m
  | .noteAck m => wfMsg 0x0D m
  | .mgmt m _ => wfMsg 0x0E m
  | .wopen _ cmd => wfOp 0xA4 cmd
  | .wclose _ cmd => wfOp 0xA5 cmd
  | .wsend _ cmd => wfOp 0xA3 cmd
  | .swEn port peer _ => wfPort port && wfPort peer
  | .keyLoad port => wfPort port
  | .hcGo fn _ => wfFn fn
  | .hostCopyDone _ => true
  | .sqEn fn _ _ _ => wfFn fn
  | .msixUnmask fn _ => wfFn fn
  | .flr vf => wfVf vf
  | .hostLinkDown => true
  | .hostLinkUp _ _ _ => true
  | .ideFail stream => wfStream stream
  | .spdmRequest _ secured => secured.all wfStream
  | .bar0BadAccess fn _ _ _ _ => wfFn fn
  | .enable _ => true
  | .disable _ => true
  | .accordCheck _ => true
  | .enablingDone _ => true
  | .goTimeout _ => true
  | .partitionReset _ _ _ station _ => decide (station.toNat < 562)
  | .disableScrubDone _ => true
  | .coreTableWrite _ _ => true
  | .modRstN => true
  | .perstN => true
  | .resetRelease _ _ found => found.slow.all wfStack && found.dead.all wfStack
  | .bootStepTimeout => true
  | .fwGo => true
  | .fwVerifyDone _ _ => true
  | .fwFirstStart found => found.rows.all (fun r => decide (r.2.1.toNat < 72))
  | .cfgGo _ => true
  | .fwSwap => true
  | .handoffRecord => true
  | .handoff => true
  | .fwTakeover => true
  | .handoffTimeout => true
  | .mpWatchdog => true
  | .gaugeVisit _ _ _ _ _ => true
  | .iinSample _ _ _ => true
  | .entryWrite _ _ => true
  | .fastAverage => true
  | .irevTrip => true
  | .sensorConvert _ _ => true
  | .sensorCrossCheck => true
  | .sdReq => true
  | .shutdownCause _ => true
  | .latchedStop => true
  | .orderlyStop => true
  | .orderlyLimit => true
  | .powerOn => true
  | .powerStagesStart => true
  | .inputRemoved => true
  | .logFlush => true
  | .logSel _ => true
  | .deviceFatal _ _ station => decide (station.toNat < 562)
  | .auditWitness _ _ => true
  | .auditTile _ => true
  | .glGo => true
  | .gleanKernel _ _ => true
  | .mirrorCopy _ => true
  | .snapArm => true
  | .registerWrite fn _ data _ => wfFn fn && wfLen data.length
  | .holdingRegisterRead fn _ len => wfFn fn && wfLen len.toNat
  | .sdcNFrame => true

end Sys2Proof
end

