-- ==== Sys2Proof/Tests/Slice0.lean ====
section
/-! SUPPORT. Tests of single commands and of well-formedness, and for each statement with hypotheses a witness: concrete states and
operands that meet them, clause by clause. -/

namespace Sys2Proof.Tests

open Sys2Proof Sys2Proof.Machine

set_option Elab.async false

/-! ### Small states -/

/-- Sets register fields, each as (field, value, instance, element). -/
def put (s : State) (l : List (Fld × Nat × Nat × Nat)) : State := l.foldl (fun s x => s.wr x.1 x.2.1 x.2.2.1 x.2.2.2) s

/-- A device that has started, with firmware and the host link; port 23 is up. -/
def dev : State :=
  put { power := { input := true, stages := true }, host := { linkUp := true }, mgmt := { released := true, runHead := [1] } }
    [(R.tick_RUNNING, 1, 0, 0), (R.port_ENABLE, 1, 23, 0), (R.port_STATE, 5, 23, 0), (R.mgmt_STAGE, 8, 0, 0), (R.mgmt_FW_STATE, 3, 0, 0),
      (R.msg_STRAP_OK, 1, 0, 0)]

/-- The same with partition 63 ENABLED; it owns core 511, whose engines run. -/
def run : State :=
  put dev [(R.part_PSTATE, 3, 63, 0), (R.ctab_OWNER, 63, 511, 0), (R.ctab_OWNED, 1, 511, 0), (R.core_M_STATE, 1, 511, 0),
    (R.core_V_STATE, 1, 511, 0), (R.core_T_STATE, 1, 511, 0), (R.core_W_STATE, 1, 511, 0)]

/-- A command word with an opcode and body fields, each as (lowest bit, value). -/
def cmd (op : Nat) (fs : List (Nat × Nat)) : Cmd := BitVec.ofNat 256 (op + sumN (fs.map (fun x => x.2 * 2 ^ x.1)))

/-- A message to station `st` of this module. -/
def msgTo (type st : Nat) (arg0 arg1 : Nat) (data : List (List Byte)) : LinkMsg :=
  ⟨BitVec.ofNat 8 type, 0, 0x40, 0, 0, BitVec.ofNat 16 st, BitVec.ofNat 32 arg0, 1#64 <<< 63, BitVec.ofNat 64 arg1, data⟩

def zeros : List Byte := List.replicate 64 0

/-! ### Well-formedness refuses -/

theorem test_wf_port : WellFormed (.retrain 24) = false ∧ WellFormed (.retrain 23) = true := by decide
theorem test_wf_stack : WellFormed (.hbmRefresh 24) = false ∧ WellFormed (.hbmRefresh 23) = true := by decide
theorem test_wf_function : WellFormed (.hcGo 65 0) = false ∧ WellFormed (.hcGo 64 0) = true := by decide
theorem test_wf_virtual : WellFormed (.flr 0) = false ∧ WellFormed (.flr 64) = true := by decide
theorem test_wf_period : WellFormed (.tick 0 0 18 0 none) = false ∧ WellFormed (.tick 0 0 11 0 none) = false ∧
    WellFormed (.tick 0 0 17 0 none) = true := by decide
theorem test_wf_opcode : WellFormed (.mframe 0 (cmd 0x20 [])) = false ∧ WellFormed (.mframe 0 (cmd 0x21 [])) = true ∧
    WellFormed (.unknownOpcode 0 .vector (cmd 3 [])) = false := by decide
theorem test_wf_message : WellFormed (.wack (some (msgTo 3 0 0 0 []))) = false ∧ WellFormed (.wwrite (some (msgTo 1 0 0 0 []))) = false ∧
    WellFormed (.wwrite (some (msgTo 1 0 0 0 [zeros]))) = true ∧ WellFormed (.wwrite (some (msgTo 1 0 0 0 [[0]]))) = false := by decide
theorem test_wf_module : WellFormed (.wack (some { msgTo 2 0 0 0 [] with dstMod := 0x1000 })) = false := by decide
theorem test_wf_flit : WellFormed (.flitRx 0 (.flit ⟨0, 0, 0, false, false, false, 0, 0, [0]⟩) true true ⟨0, 0, []⟩) = false := by decide
theorem test_wf_stream : WellFormed (.ideFail (some 65)) = false ∧ WellFormed (.ideFail none) = true := by decide
theorem test_wf_length : WellFormed (.bar2Read 0 0) = false ∧ WellFormed (.bar2Read 0 4096) = true ∧
    WellFormed (.bar2Write 0 [] false) = false := by decide
theorem test_wf_resize : WellFormed (.bar2Resize 27 false) = false ∧ WellFormed (.bar2Resize 37 false) = false := by decide
theorem test_wf_cause : WellFormed (.quickTrain 0 3) = false := by decide
theorem test_wf_station : WellFormed (.deviceFatal 0 0 562) = false ∧ WellFormed (.partitionReset 0 0 0 562 none) = false := by decide

/-! ### Single commands and tables of the spec -/

/-- IDENT reads 0x2304_B001 (R6). -/
theorem test_ident : (State.reset.readReg 0 0).2 = 0x2304B001 := by decide +kernel

/-- Philox 4×32-10 of key 0 and counter 0 begins with the published word 0x6627_E8D5 (R402). -/
theorem test_philox : philox 0 0 0 = 0x6627E8D5 := by decide +kernel

/-- PRBS31 from all ones (R443): both taps read 1 for 28 bits, then bit 28 reads the zeros that have entered; counted by hand. -/
theorem test_scrambler : (scramble (2 ^ 31 - 1) (List.replicate 31 false)).2 = List.replicate 28 false ++ List.replicate 3 true := by decide +kernel

/-- Symbols 1 and 5 of a codeword share lane 1 of four (R444), and the symbol 0b0001111011 goes as -3, -1, 1, 3, 1 (R442). -/
theorem test_lanes : laneSymbols 4 1 [9, 8, 7, 6, 5, 4] = [8, 4] ∧ symbolLevels 0b0001111011 = [-3, -1, 1, 3, 1] := by decide +kernel

/-- The MPROD of chapter 5's worked example, byte for byte. -/
def mprodExample : Cmd := BitVec.ofNat 256 (leNat ([0x20, 0x80, 0, 0, 0x09, 0x01, 0x13, 0, 0x11, 0, 0x31, 0, 0x05, 0, 0, 0x30, 0x23, 0x01, 0, 0x40, 0x24,
  0, 0x40, 0x15, 0, 0, 0, 0, 0, 0, 0, 0] : List Byte))

theorem test_mprod_example : engineInstr 511 .matrix mprodExample = .mprod 511 mprodExample ∧ mprodExample.rsvdSet = false ∧
    mprodExample.sigEn = true ∧ mprodExample.sigTally = 9 ∧ mprodExample.sigAdd = 1 ∧ mprodExample.waitEn = false ∧
    mprodExample.fqEn = true ∧ mprodExample.fq = 3 ∧ mprodExample.fqCount = 17 ∧ mprodExample.fld 80 12 = 0x31 ∧
    mprodExample.fld 96 16 = 5 ∧ mprodExample.fld 112 10 = 0 ∧ mprodExample.fld 122 6 = 12 ∧ mprodExample.fld 128 16 = 0x123 ∧
    mprodExample.fld 144 17 = 0x4000 ∧ mprodExample.fld 168 17 = 0x14000 := by decide +kernel

/-- The hazard of chapter 8's worked example: the FETCH in flight holds the input that a product is to read. -/
theorem test_hazard_example :
    let s := put (run.updCore 511 (fun k => { k with fqs := [(3, [(cmd 0xA0 [(80, 0x1000), (116, 3), (120, 0x4000), (144, 575)], 77)])] }))
      [(R.core_DEBUG, 1, 511, 0), (R.core_FQ_CPL, 16, 511, 3)]
    s.findHazard 511 .matrix [(0x4000, 576)] [] = some
      { kind := 1, other := 2, run := (0x4000, 576), write := false, queue := 3, have_ := 16, need := 17, otherPc := 77 } := by decide +kernel

/-- The straps of chapter 15's example, position 17 of block 3 with STRAP_PAR 1, hold; all grounded, they do not (R492). -/
theorem test_straps : strapFault (0x2000 + 3 * 64 + 17) = false ∧ strapFault 0 = true ∧ strapFault (3 * 64 + 17) = true := by decide

/-! ### Witnesses: the whole device, control commands and the transfer engine -/

/-- A latched stop and a device-fatal stop, each with a queued command other than those that end it. -/
def latchedDev : State := { dev with power := { dev.power with latched := true }, pending := [.tickEdge] }
def fatalDev : State := { dev with power := { dev.power with fatal := true }, pending := [.tickEdge] }

theorem sound_of {s : State} (h : s.regs.all (fun e => decide e.2.sorted) = true ∧ Tbl.wf [] s.regs ∧ s.mem = {}) : s.Sound :=
  ⟨by rw [h.2.2]; exact ⟨by decide, by decide, by decide, by decide, by decide, by decide, by decide, by decide, by decide, by decide, by decide⟩,
    h.2.1, fun e he => by simpa using (List.all_eq_true.mp h.1) e he⟩

theorem witness_StepKeepsSound : let s := { dev with pending := [.hostLinkDown] }
    s.Sound ∧ ∃ t, step s = .next t := ⟨sound_of (by decide +kernel), _, rfl⟩

theorem witness_LatchedStopLasts : latchedDev.Sound ∧ latchedDev.power.latched = true ∧ latchedDev.pending.head? ≠ some .inputRemoved ∧
    ∃ t, step latchedDev = .next t := ⟨sound_of (by decide +kernel), rfl, by decide, _, rfl⟩

theorem witness_FatalStopLasts : fatalDev.Sound ∧ fatalDev.power.fatal = true ∧ fatalDev.pending.head? ≠ some .inputRemoved ∧
    fatalDev.pending.head? ≠ some .modRstN ∧ ∃ t, step fatalDev = .next t := ⟨sound_of (by decide +kernel), rfl, by decide, by decide, _, rfl⟩

/-- NOP, QWAIT on a count that is reached, JUMP and EOFR, at the last list address that has a next one. -/
theorem witness_ControlCommandsRetire : let s := put run [(R.core_PC_M, 262142, 511, 0)]
    s.Takes 511 .matrix (cmd 0 []) ∧ s.drained 511 .matrix = true ∧ s.rd (engPc .matrix) 511 + 1 < 262144 ∧
    s.qcount 511 (cmd 3 []) = some 0 ∧ reached 0 ((cmd 3 []).fld 96 16) = true := by
  unfold State.Takes; decide +kernel

/-- A tally wait, a fetch-queue wait and a QWAIT that are not met. -/
theorem witness_EnginesWait : run.runnable 511 .vector = true ∧ run.flag R.core_DEBUG 511 = false ∧
    run.tallyMet 511 (cmd 0 [(14, 1), (8, 63), (16, 1)]) = false ∧
    run.tallyMet 511 (cmd 0 [(52, 1), (48, 15), (64, 32767)]) = true ∧ run.fqMet 511 (cmd 0 [(52, 1), (48, 15), (64, 32767)]) = false ∧
    run.tallyMet 511 (cmd 3 [(96, 1)]) = true ∧ run.fqMet 511 (cmd 3 [(96, 1)]) = true ∧ run.qcount 511 (cmd 3 [(96, 1)]) = some 0 ∧
    reached 0 ((cmd 3 [(96, 1)]).fld 96 16) = false := by decide +kernel

theorem witness_UnknownOpcodeStops : ¬ (cmd 0x20 []).opcode ∈ knownOpcodes .vector ∧ run.runnable 511 .vector = true ∧
    run.owner 511 = some 63 ∧ (run.part 63).resetDue = none := by decide +kernel

/-- FETCH, STORE and RSEND into queues with one place left; RSEND and MSEND whose circuit does not take them. -/
theorem witness_TransfersArePlaced : let f := cmd 0xA0 [(116, 15), (120, 131071)]
    let st := cmd 0xA1 [(116, 7)]
    let s := run.updCore 511 (fun k => { k with
      fqs := [(15, List.replicate 31 (f, 0))]
      sqs := [(0, List.replicate 31 ⟨0xA1, st, 0, true, [], 0, false, [], 0, [], [], 0⟩), (7, List.replicate 31 ⟨0xA1, st, 0, true, [], 0, false, [], 0, [], [], 0⟩)] })
    s.Takes 511 .transfer f ∧ s.rd R.core_PC_T 511 + 1 < 262144 ∧ s.NoHazard 511 .transfer f [] (xferRuns f) ∧
    (Tbl.get [] (s.core 511).fqs (xferQueue f)).length < 32 ∧ s.Takes 511 .transfer st ∧ s.NoHazard 511 .transfer st (xferRuns st) [] ∧
    s.SqRoom 511 (xferQueue st % 8) ∧ s.Takes 511 .transfer (cmd 0xA7 []) ∧ s.NoHazard 511 .transfer (cmd 0xA7 []) [(0, 3)] [] ∧
    s.SqRoom 511 (rsendSq (cmd 0xA7 [])) ∧ (s.takeUp 511 .transfer (cmd 0xA7 [])).rsendOk 511 (cmd 0xA7 []) = false ∧
    s.Takes 511 .transfer (cmd 0xA6 []) ∧ s.NoHazard 511 .transfer (cmd 0xA6 []) [(0, 1)] [(0, 1)] ∧ s.SqRoom 511 (msendSq (cmd 0xA6 [])) ∧
    (s.takeUp 511 .transfer (cmd 0xA6 [])).msendOk 511 (cmd 0xA6 []) = false := by
  unfold State.Takes State.NoHazard State.SqRoom; decide +kernel

/-- RSEND, MSEND and WSEND under circuits and credits that take them, and WDRAW. Circuit 254 is a tree and circuit 255 a reduction. -/
def netDev : State :=
  put { run.updCore 511 (fun k => { k with credits := [⟨0, 511, 15, 3, 1⟩] }) with net := { nodes := [(8190, 1 + 2 ^ 17 + 15 * 2 ^ 24), (8191, 1 + 2 + 15 * 1024)] } }
    [(R.tab_CIRC, 1 + 2 + 63 * 256 + 511 * 65536, 254, 0), (R.tab_CIRC, 1 + 63 * 256 + 511 * 65536, 255, 0),
      (R.tab_TGT, 511 + 15 * 1024 + 32768, 254, 0)]

theorem witness_TransfersArePlaced_network : let r := cmd 0xA7 [(80, 131069), (97, 255), (126, 7)]
    let m := cmd 0xA6 [(80, 0), (97, 254), (105, 63), (141, 131071)]
    let w := cmd 0xA3 [(97, 63), (125, 511), (134, 15)]
    let d := cmd 0xA8 [(97, 1)]
    netDev.Takes 511 .transfer r ∧ netDev.NoHazard 511 .transfer r [(131069, 3)] [] ∧
    (netDev.takeUp 511 .transfer r).rsendOk 511 r = true ∧ netDev.SqRoom 511 (rsendSq r) ∧
    netDev.Takes 511 .transfer m ∧ netDev.NoHazard 511 .transfer m [(0, 64)] [(131071, 1)] ∧
    (netDev.takeUp 511 .transfer m).msendOk 511 m = true ∧ (netDev.takeUp 511 .transfer m).mcReady 511 m = true ∧
    netDev.Takes 511 .transfer w ∧ netDev.NoHazard 511 .transfer w [(0, wsendLen w)] [] ∧
    (netDev.takeUp 511 .transfer w).wsendEntry 511 w = some ⟨0, 511, 15, 3, 1⟩ ∧ netDev.SqRoom 511 (w.fld 156 3) ∧
    netDev.Takes 511 .transfer d ∧ netDev.NoHazard 511 .transfer d [(0, granSpan 0 (wdTok d * wdSize d))] [] ∧ netDev.SqRoom 511 (d.fld 203 3) := by
  unfold State.Takes State.NoHazard State.SqRoom; decide +kernel

/-- The same with the stored checks of both circuits' entries failed. -/
theorem witness_TransfersArePlaced_check : let s := { netDev with net := { netDev.net with circBad := [(254, true), (255, true)] } }
    let r := cmd 0xA7 [(80, 131069), (97, 255), (126, 7)]
    let m := cmd 0xA6 [(80, 0), (97, 254), (105, 63), (141, 131071)]
    s.Takes 511 .transfer r ∧ s.NoHazard 511 .transfer r [(131069, 3)] [] ∧ Marks.has s.net.circBad (sendCirc r) = true ∧
    s.Takes 511 .transfer m ∧ s.NoHazard 511 .transfer m [(0, 64)] [(131071, 1)] ∧ Marks.has s.net.circBad (sendCirc m) = true ∧
    s.rd R.core_PC_T 511 + 1 < 262144 ∧ s.enabled (s.circOwner 254) = true ∧ s.enabled (s.circOwner 255) = true ∧
    (s.part 63).resetDue = none ∧ s.circOwner 254 = 63 ∧ s.circOwner 255 = 63 := by
  unfold State.Takes State.NoHazard; decide +kernel

/-- LCOPY between overlapping ranges at the end of the Loft. -/
theorem witness_LcopyCopies : let k := cmd 0xA2 [(80, 131068), (97, 131069), (114, 2)]
    run.Takes 511 .transfer k ∧ run.rd R.core_PC_T 511 + 1 < 262144 ∧ run.NoHazard 511 .transfer k [(131068, 3)] [(131069, 3)] ∧
    run.mem.loftErr = [] ∧ k.fld 80 17 + (k.fld 114 16 + 1) ≤ 131072 ∧ k.fld 97 17 + (k.fld 114 16 + 1) ≤ 131072 := by
  unfold State.Takes State.NoHazard; decide +kernel

/-- WOPEN of the last 4,096 bytes of the Loft as window 15; one that is refused. -/
theorem witness_WindowsOpenAndClose : let w := cmd 0xA4 [(80, 15), (84, 2047), (95, 0), (106, 1)]
    let bad := cmd 0xA4 [(80, 15), (84, 2047), (95, 1), (106, 1)]
    run.Takes 511 .transfer w ∧ run.rd R.core_PC_T 511 + 1 < 262144 ∧ run.wopenCode 511 w = 0 ∧ run.Takes 511 .transfer bad ∧
    run.wopenCode 511 bad = 0x91 := by unfold State.Takes; decide +kernel

def readStore : SqEnt := ⟨0xA1, cmd 0xA1 [], 0, true, [(zeros, false)], 0, false, [], 0, [], [], 0⟩
def unreadStore : SqEnt := ⟨0xA1, cmd 0xA1 [], 0, false, [], 0, false, [], 0, [], [], 0⟩
def queued : State := run.updCore 511 (fun k => { k with fqs := [(15, [(cmd 0xA0 [], 0)])], sqs := [(7, [readStore, unreadStore])] })

/-- A fetch that can land, a store that can be read and one that can be delivered; a scrub; a tally of a core of an enabled partition and of
one of none. -/
theorem witness_QueuesScrubAndTallies : queued.goesOn 511 = true ∧ queued.hazLate 511 (xferRuns (cmd 0xA0 [])) = none ∧ queued.enabledOwner 511 = some 63 ∧
    Tbl.get [] (queued.core 511).fqs 15 = [(cmd 0xA0 [], 0)] ∧ queued.findSq 511 7 unread = some unreadStore ∧
    queued.findSq 511 7 undelivered = some readStore ∧ (∃ d, queued.deliverSq 511 readStore = some d ∧
      Tbl.get [] (d.core 511).sqs 7 = [readStore, unreadStore]) ∧
    (∀ y ∈ [unreadStore].head?, (y.read && y.done) = false) ∧ run.hostOk 64 = true ∧ run.enabledOwner 511 ≠ none ∧ dev.hostOk 64 = true ∧
    dev.enabledOwner 511 = none :=
  ⟨by decide +kernel, by decide +kernel, by decide +kernel, by decide +kernel, by decide +kernel, by decide +kernel,
    ⟨_, rfl, by decide +kernel⟩, by decide +kernel, by decide +kernel, by decide +kernel, by decide +kernel, by decide +kernel⟩

/-- A fetch that would land in an open window, in debug mode. -/
theorem witness_QueuesScrubAndTallies_hazard : let s := put queued [(R.core_DEBUG, 1, 511, 0), (R.wdw_OPEN, 1, 511, 15)]
    s.goesOn 511 = true ∧ s.enabledOwner 511 = some 63 ∧ Tbl.get [] (s.core 511).fqs 15 = [(cmd 0xA0 [], 0)] ∧
    s.hazLate 511 (xferRuns (cmd 0xA0 [])) ≠ none := by decide +kernel

/-! ### Witnesses: the vector, matrix and weight engines -/

/-- A command of the shared body in FP32 whose destination, one row of 32, ends with the Loft. -/
def vec (op : Nat) : Cmd := cmd op [(97, 64), (114, 131070), (131, if op = 0x60 then 5 else 0), (143, 0)]

def vecOk (op : Nat) : Prop := let k := vec op
  run.Takes 511 .vector k ∧ run.rd R.core_PC_V 511 + 1 < 262144 ∧ run.NoHazard 511 .vector k (vReads k) [run.vWrites k] ∧ run.vCode k = 0

theorem witness_VectorRowsAreStored : vecOk 0x60 ∧ vecOk 0x61 ∧ vecOk 0x62 ∧ vecOk 0x63 ∧ vecOk 0x64 := by
  unfold vecOk State.Takes State.NoHazard; decide +kernel

/-- The code of a refused weight command. -/
def wcode : WRes → Option Nat
  | .refused k => some k
  | _ => none

theorem refused_of {r : WRes} {k : Nat} (h : wcode r = some k) : r = .refused k := by
  cases r <;> simp_all [wcode]

/-- A VACT whose row lies one granule too high; a WFLIP to version 0; a WADOPT of an image outside every extent, code 0x47. -/
theorem witness_RefusalsAreRecorded : let v := cmd 0x61 [(114, 131071)]
    (run.Takes 511 .vector v ∧ run.rd R.core_PC_V 511 + 1 < 262144 ∧ run.NoHazard 511 .vector v (vReads v) [run.vWrites v] ∧ run.vCode v ≠ 0) ∧
    run.Takes 511 .weight (cmd 0x42 []) ∧ run.rd R.core_PC_W 511 + 1 < 262144 ∧
    (let u := run.takeUp 511 .weight (cmd 0x42 []); wflipAct u 511 (u.listCtx 511) (cmd 0x42 []) = .refused 0x44) ∧
    (let k := cmd 0x41 [(128, 524288)]
     let u := (run.takeUp 511 .weight k).eccImage (wImg k)
     wadoptAct u 511 (u.listCtx 511) k = .refused 0x47) := by
  refine ⟨?_, ?_, ?_, refused_of ?_, refused_of ?_⟩ <;> try unfold State.Takes
  · unfold State.NoHazard; decide +kernel
  all_goals decide +kernel

/-- A VATTN with a reserved bit pattern in its head size. -/
theorem witness_RefusalsAreRecorded_attention : let k := cmd 0x65 [(80, 0), (97, 100), (114, 200), (131, 131068), (148, 300), (212, 7)]
    let a := attnOf k
    let u := (run.takeUp 511 .vector k).eccLoft 511 a.la
    let l := run.loftLe 511 (64 * a.la) 4
    run.Takes 511 .vector k ∧ run.rd R.core_PC_V 511 + 1 < 262144 ∧
    run.NoHazard 511 .vector k ((a.la, 1) :: a.queries ++ (a.keys l).flatMap (fun j => [a.kRun j, a.vRun j])) a.outs ∧
    a.code l (u.loftBad 511 a.la) ≠ 0 := by
  unfold State.Takes State.NoHazard; decide +kernel

/-- A VATTN over one key whose output row ends with the Loft. -/
theorem witness_AttentionRuns : let k := cmd 0x65 [(80, 0), (97, 100), (114, 200), (131, 131068), (148, 300), (169, 12), (188, 2), (200, 2), (212, 4)]
    let a := attnOf k
    let u := (run.takeUp 511 .vector k).eccLoft 511 a.la
    let l := run.loftLe 511 (64 * a.la) 4
    run.Takes 511 .vector k ∧ run.rd R.core_PC_V 511 + 1 < 262144 ∧
    run.NoHazard 511 .vector k ((a.la, 1) :: a.queries ++ (a.keys l).flatMap (fun j => [a.kRun j, a.vRun j])) a.outs ∧
    a.code l (u.loftBad 511 a.la) = 0 ∧ u.loftBad 511 a.la = false := by
  unfold State.Takes State.NoHazard; decide +kernel

/-- Core 511 with set 4095 on array 0: bank A ACTIVE in version 1, bank B READY in version 65,535. -/
def setDev : State :=
  put (run.updCore 511 (fun k => { k with sets := [(4095, { valid := true, stA := 4, stB := 3, verA := 1, verB := 65535 })] })) [(R.we_WE_CEIL, 2, 511, 0)]

/-- The same, in reference mode. -/
def refDev : State := put setDev [(R.tab_MAIN, 1, 63, 2)]

def prod : Cmd := cmd 0x20 [(80, 4095), (96, 1), (112, 0), (144, 0), (161, 2), (164, 2), (168, 131069)]

def product (id stage : Nat) : Product :=
  { id := id, cmd := prod, stage := stage, atHead := false, failed := false, step := 0, fmt := 2, range := 0, promoted := false, input := []
    groups := [], reference := false }
def withProducts (l : List Product) : State := setDev.updCore 511 (fun k => { k with products := l })

/-- What ProductsAreIssuedOrFail asks of a state in which `prod` is taken up and answers a code. -/
def prodOk (s : State) (code : Nat) : Prop :=
  let u := s.takeUp 511 .matrix prod
  let src := u.storedSrc prod
  let v := (u.prodSegs 511 prod).foldl (fun s k => s.eccLoftN 511 (segRun src k).1 (segRun src k).2) u
  s.Takes 511 .matrix prod ∧ s.owner 511 = some 63 ∧ s.rd R.core_PC_M 511 + 1 < 262144 ∧
    (∀ q ∈ (s.core 511).products, q.atHead = false ∧ q.id ≠ (s.core 511).nextId) ∧ v.prodCode 511 src = code

def prodClear (s : State) : Prop :=
  let u := s.takeUp 511 .matrix prod
  s.NoHazard 511 .matrix prod ((u.prodSegs 511 prod).map (segRun (u.storedSrc prod))) [(131069, 1 + 2 * u.prodGroups 511 prod)]

/-- An issue in normal mode whose grant fits exactly, and one in reference mode. -/
theorem witness_ProductsAreIssuedOrFail : let s := { setDev with power := { setDev.power with level := [(63, 58)] } }
    prodOk s 0 ∧ prodClear s ∧ s.refMode 63 = false ∧ (s.core 511).products = [] ∧
    s.headOf (.part 63) = none ∧ s.fits ⟨.part 63, 511, 0, 58⟩ = true ∧ s.flag R.gov_HOLD = false ∧
    (s.prodPieces 511 ((s.takeUp 511 .matrix prod).storedSrc prod)).length * arrayMw 0 = 58 ∧
    prodOk refDev 0 ∧ prodClear refDev ∧ refDev.refMode 63 = true ∧ (refDev.core 511).products = [] := by
  unfold prodOk prodClear State.Takes State.NoHazard; decide +kernel

/-- A product that names no VALID set, out of debug mode, alone and behind a product in flight; the same in debug mode, where it stops the core;
and one in debug mode whose tile the set does not have. -/
theorem witness_ProductsAreIssuedOrFail_failing : let behind := run.updCore 511 (fun k => { k with products := [product 5 1] })
    let dbgMx := put run [(R.core_DEBUG, 1, 511, 0)]
    let high := put (setDev.updCore 511 (fun k => { k with sets := [(4095, { valid := true, fmt := 3, stA := 4, verA := 1 })] }))
      [(R.core_DEBUG, 1, 511, 0), (R.part_PSTATE, 3, 63, 0)]
    let k := cmd 0x20 [(80, 4095), (96, 1), (112, 1023), (161, 2), (164, 2), (168, 131069)]
    prodOk run 1 ∧ run.flag R.core_DEBUG 511 = false ∧ (run.core 511).products = [] ∧ prodOk behind 1 ∧ (behind.core 511).products ≠ [] ∧
    prodOk dbgMx 1 ∧ dbgMx.flag R.core_DEBUG 511 = true ∧
    ((dbgMx.takeUp 511 .matrix prod).tagCode 511 ((dbgMx.takeUp 511 .matrix prod).storedSrc prod) ≠ 0) ∧
    high.Takes 511 .matrix k ∧ (high.takeUp 511 .matrix k).prodCode 511 ((high.takeUp 511 .matrix k).storedSrc k) = 4 ∧
    (let u := high.takeUp 511 .matrix k
     high.NoHazard 511 .matrix k ((u.prodSegs 511 k).map (segRun (u.storedSrc k))) [(131069, 1 + 2 * u.prodGroups 511 k)]) := by
  unfold prodOk State.Takes State.NoHazard; decide +kernel

/-- MFRAME once, and again in the same frame. -/
theorem witness_FrameAllowanceIsSet : let again := run.updCore 511 (fun k => { k with mframe := true })
    run.Takes 511 .matrix (cmd 0x21 [(80, 65535)]) ∧ run.rd R.core_PC_M 511 + 1 < 262144 ∧ (run.core 511).products = [] ∧
    (run.core 511).mframe = false ∧ again.Takes 511 .matrix (cmd 0x21 [(80, 65535)]) ∧ (again.core 511).mframe = true ∧
    again.rd R.core_PC_M 511 + 1 < 262144 ∧ (again.core 511).products = [] := by
  unfold State.Takes; decide +kernel

def askedGrant (h : Holder) : State :=
  { withProducts [{ product 0 0 with atHead := true }] with
    power := { run.power with waiting := [⟨h, 511, 0, 1000⟩], level := [(63, 1000), (64, 1000)] } }

/-- Grants of partition 63 and of the program cap that fit exactly, the first for the product at the queue head. -/
theorem witness_ProductsMove : let capped := put (askedGrant .cap) [(R.cap_CAP_W, 1, 0, 0)]
    (askedGrant (.part 63)).headOf (.part 63) = some ⟨.part 63, 511, 0, 1000⟩ ∧ (askedGrant (.part 63)).alive = true ∧
    (askedGrant (.part 63)).fits ⟨.part 63, 511, 0, 1000⟩ = true ∧ (askedGrant (.part 63)).flag R.gov_HOLD = false ∧
    ((askedGrant (.part 63)).core 511).products = [{ product 0 0 with atHead := true }] ∧
    capped.headOf .cap = some ⟨.cap, 511, 0, 1000⟩ ∧ capped.alive = true ∧ capped.fits ⟨.cap, 511, 0, 1000⟩ = true := by decide +kernel

/-- A pulsing attempt that saturates nowhere, its repeat, a reference product and a final one. -/
theorem witness_ProductsMove_stages : let pulsing := withProducts [product 5 1]
    let again := withProducts [product 5 2]
    let ref := { product 5 1 with reference := true }
    let final := withProducts [product 5 3]
    let alone := fun (s : State) (p : Product) => s.goesOn 511 = true ∧ s.flag R.gov_HOLD = false ∧
      (s.core 511).products.filter (fun x => x.id == 5) = [p] ∧ p.atHead = false ∧ p.reference = false
    (alone pulsing (product 5 1) ∧ pulsing.sharing 511 (product 5 1) (fun q => !q.atHead && q.stage == 1 && decide (q.start < 0)) = [] ∧
      (pulsing.attempt 511 prod [] (product 5 1).mode (product 5 1).flags (pulsing.clampDriven 511 (product 5 1))).sat ≤ prod.fld 192 8) ∧
    (alone again (product 5 2) ∧ (again.sharing 511 (product 5 2) (fun q => !q.atHead && q.stage == 1)).length < 2 ∧
      again.sharing 511 (product 5 2) (fun q => q.stage == 2 && decide (q.start < 0)) = []) ∧
    ((withProducts [ref]).goesOn 511 = true ∧
      ((withProducts [ref]).core 511).products.find? (fun x => x.id == 5 && x.reference && x.stage == 1) = some ref) ∧
    (final.goesOn 511 = true ∧ (final.core 511).products = [product 5 3] ∧ (product 5 3).stage = 3 ∧ (product 5 3).failed = false ∧
      final.hazLate 511 [final.slabRun 511 (product 5 3)] = none) := by decide +kernel

/-! Products one of whose conversions saturates, whatever its deviation: its rows drive cell pairs at weight 7, and the column's offset is far
out. -/

/-- Piece 0 of the tile: its first `blks` blocks. -/
def satPiece (blks : Nat) : Nat := (blks - 1) * 2 ^ 17
def satInput (blks : Nat) : List Byte := List.replicate 32 0 ++ List.replicate (16 * blks) 0x11
def satProd (blks step : Nat) : Product := { product 5 1 with input := satInput blks, step := step }
def satDev (blks left policy : Nat) (p : Product) : State :=
  put (setDev.updCore 511 (fun k => { k with
    products := [p], cells := (List.range (32 * blks)).map (fun r => (1064 * r, (7, 0))), cal := { k.cal with o := [(0, 65536)] }
    pieceStore := [(0, satPiece blks)] })) [(R.fmt_ALLOW_LEFT, left, 511, 0), (R.fmtp_POLICY, policy, 63, 0)]

theorem deviation_ge (l n : Nat) : -(l : Int) ≤ deviation (some l) n := by
  unfold deviation
  have := Int.emod_nonneg (freeInt n) (b := ((2 * l + 1 : Nat) : Int)) (by omega)
  dsimp only
  omega

theorem convert_far {x g delta l : Nat} {o d : Int} (h : ¬ 256 * (x + 124) ≤ 32640 * delta) (hd : -(l : Int) ≤ d)
    (hb : 32640 * (delta : Int) + l ≤ rneDiv (256 * (x : Int) * 32768) g + 16 * o) : (convert (heldValue x g o delta d) delta).2 = true := by
  unfold convert heldValue
  simp only [Int.natAbs_natCast, if_neg h, decide_eq_true_eq]
  omega

theorem pulse_far {x g delta l n : Nat} {o : Int} (two : Bool) (h : ¬ 256 * (x + 124) ≤ 32640 * (if two then 32 else delta))
    (hb : 32640 * ((if two then 32 else delta : Nat) : Int) + l ≤ rneDiv (256 * (x : Int) * 32768) g + 16 * o) :
    (pulseValue x g o delta two (some l) n).2 = true := by
  cases two with
  | false =>
    simp only [Bool.false_eq_true, if_false] at h hb
    unfold pulseValue
    simp only [Bool.false_eq_true, if_false]
    exact convert_far h (deviation_ge l n) hb
  | true =>
    simp only [if_true] at h hb
    unfold pulseValue
    simp only [if_true]
    refine convert_far h ?_ hb
    have h1 := deviation_ge l n
    have h2 := deviation_ge l (n + 1)
    show -(l : Int) ≤ clampI (deviation (some l) (n + 1) - 24576) (deviation (some l) (n + 1) + 24576) (deviation (some l) n)
    generalize deviation (some l) n = d1 at *
    generalize deviation (some l) (n + 1) = d2 at *
    unfold clampI
    omega

theorem sumN_pos {l : List Nat} {a : Nat} (hm : a ∈ l) (ha : 0 < a) : 0 < sumN l := by
  have hg : ∀ (l : List Nat) (n : Nat), n ≤ l.foldl (· + ·) n := fun l => by
    induction l with
    | nil => exact fun n => Nat.le_refl n
    | cons x l ih => exact fun n => Nat.le_trans (Nat.le_add_right n x) (ih (n + x))
  unfold sumN
  obtain ⟨p, q, rfl⟩ := List.append_of_mem hm
  rw [List.foldl_append, List.foldl_cons]
  exact Nat.lt_of_lt_of_le (by omega) (hg q _)

theorem sat_attempt {s : State} {c : Nat} {k : Cmd} {i : List Byte} {md : Mode} {fl ex : Nat} {p : Piece} {pl : Plane} {x l g : Nat} {o : Int}
    (hp : s.tilePieceList c (s.tileWord c (s.wset c (k.fld 80 12)) (k.fld 112 10)) = [p]) (hr : md.ref = false) (hs : s.inBound c p.array = true)
    (hpl : planesOf (alignBlks (pieceBlks k i md.fmt p) (k.fld 187 3)) (32 * p.row0) (fmtM md.fmt) md.split = [pl])
    (hx : pl.rows.map (fun r => r.2 * s.weight c p.array (s.activeBank c p.array) (s.wset c (k.fld 80 12)).fmt r.1 (32 * p.col0)) =
      (pl.rows.map (fun _ => (7 : Int))))
    (hn : 7 * pl.rows.length = x)
    (hg : (s.core c).cal.gain (calKey p.array (s.activeBank c p.array) ((s.bank c p.array (s.activeBank c p.array)).phys (32 * p.col0))) = g)
    (ho : (s.core c).cal.offs (calKey p.array (s.activeBank c p.array) ((s.bank c p.array (s.activeBank c p.array)).phys (32 * p.col0))) = o)
    (hl : devLimit (pulseTerm (s.wset c (k.fld 80 12)).fmt (2 ^ md.range) pl.rows.length x (s.gammaFx c p.array) md.twoPass)
      (if md.twoPass then 1 else 2 ^ md.range) g = l)
    (h : ¬ 256 * (x + 124) ≤ 32640 * (if md.twoPass then 32 else 2 ^ md.range))
    (hb : 32640 * ((if md.twoPass then 32 else 2 ^ md.range : Nat) : Int) + l ≤ rneDiv (256 * (x : Int) * 32768) g + 16 * o) :
    0 < (s.attempt c k i md fl ex).sat := by
  have e1 : sumI (pl.rows.map (fun _ => (7 : Int))) = x := by
    have : ∀ (r : List (Nat × Int)) (z : Int), (r.map (fun _ => (7 : Int))).foldl (· + ·) z = z + 7 * r.length := fun r => by
      induction r with
      | nil => simp
      | cons y r ih => intro z; rw [List.map_cons, List.foldl_cons, ih, List.length_cons]; omega
    unfold sumI
    rw [this]
    omega
  have e2 : sumN ((pl.rows.map (fun _ => (7 : Int))).map Int.natAbs) = x := by
    have : ∀ (r : List (Nat × Int)) (z : Nat), ((r.map (fun _ => (7 : Int))).map Int.natAbs).foldl (· + ·) z = z + 7 * r.length := fun r => by
      induction r with
      | nil => simp
      | cons y r ih => intro z; rw [List.map_cons, List.map_cons, List.foldl_cons, ih, List.length_cons]; simp; omega
    unfold sumN
    rw [this]
    omega
  show 0 < sumN (((((s.tilePieceList c (s.tileWord c (s.wset c (k.fld 80 12)) (k.fld 112 10))).zipIdx).map (fun x =>
    s.pieceOut c (s.wset c (k.fld 80 12)).fmt k i md (32 * (tileCols (s.tileWord c (s.wset c (k.fld 80 12)) (k.fld 112 10)) + 1))
      (s.fresh + 262144 * x.2) x.1))).map (fun p => sumN p.sat))
  rw [hp]
  refine sumN_pos (List.mem_cons_self ..) ?_
  unfold State.pieceOut
  dsimp only [List.zipIdx, List.map]
  rw [hr]
  simp only [Bool.false_eq_true, if_false, hpl, hs, if_true]
  refine sumN_pos (List.mem_map.mpr ⟨_, List.mem_map.mpr ⟨0, List.mem_range.mpr (by omega), rfl⟩, rfl⟩) ?_
  simp only [List.map_cons, List.map_nil, Nat.add_zero]
  rw [hx, hg, ho, e1, e2, hl]
  simp [pulse_far md.twoPass h hb]

theorem find_rows {l : List Nat} {r : Nat} (v : Nat × Nat) (h : r ∈ l) : Tbl.find (l.map (fun r => (1064 * r, v))) (1064 * r) = some v := by
  induction l with
  | nil => cases h
  | cons x l ih =>
    rw [List.map_cons, Tbl.find]
    by_cases e : 1064 * x = 1064 * r
    · rw [if_pos e]
    · rw [if_neg e]
      cases h with
      | head => exact absurd rfl e
      | tail _ h => exact ih h

/-- The weight that each row drives. -/
theorem sat_weight {s : State} {n i : Nat} (hc : (s.core 511).cells = (List.range n).map (fun r => (1064 * r, (7, 0))))
    (hp : (s.bank 511 0 0).phys 0 = 0) (ha : (s.core 511).physArray 0 0 = 0) (hi : i < n) (hn : n ≤ 1024) : s.weight 511 0 0 0 i 0 = 7 := by
  have k : cellKey 0 0 i 0 = 1064 * i := by unfold cellKey; omega
  unfold State.weight State.levels
  rw [hp, if_neg (by simp), if_neg (by simp; omega), ha, hc, k, Tbl.get, find_rows _ (List.mem_range.mpr hi)]
  rfl

/-- Saturating attempts above a threshold of 0: one-pass, whose repeat the allowance just covers or does not, and two-pass over 576 rows. -/
theorem sat_products : ∀ x ∈ [(1, 0, 5, 0), (1, 0, 4, 0), (1, 0, 4, 1), (18, 2, 0, 0)], let p := satProd x.1 x.2.1
    let s := satDev x.1 x.2.2.1 x.2.2.2 p
    0 < (s.attempt 511 p.cmd p.input p.mode p.flags (s.clampDriven 511 p)).sat := by
  intro x hx
  dsimp only
  have hb : (satDev x.1 x.2.2.1 x.2.2.2 (satProd x.1 x.2.1)).activeBank 511 0 = 0 ∧
      (((satDev x.1 x.2.2.1 x.2.2.2 (satProd x.1 x.2.1)).bank 511 0 0).phys 0 = 0) ∧
      ((satDev x.1 x.2.2.1 x.2.2.2 (satProd x.1 x.2.1)).core 511).physArray 0 0 = 0 ∧ 32 * x.1 ≤ 1024 ∧
      ((satDev x.1 x.2.2.1 x.2.2.2 (satProd x.1 x.2.1)).wset 511 4095).fmt = 0 ∧ prod.fld 80 12 = 4095 := by
    revert x; decide +kernel
  refine sat_attempt (p := ⟨0, 0, 0, x.1 - 1, 0, 0⟩) (pl := ⟨0, 0, (List.range (32 * x.1)).map (fun i => (i, 1))⟩) (x := 224 * x.1)
    (l := if x.1 = 1 then 452 else 3356) (g := 32768) (o := 65536) ?_ rfl ?_ ?_ ?_ ?_ ?_ ?_ ?_ ?_ ?_
  case refine_4 =>
    refine List.map_congr_left fun r hr => ?_
    obtain ⟨i, hi, rfl⟩ := List.mem_map.mp hr
    show (1 : Int) * State.weight _ 511 0 (State.activeBank _ 511 0) (State.wset _ 511 (prod.fld 80 12)).fmt i (32 * 0) = 7
    rw [hb.2.2.2.2.2, hb.2.2.2.2.1, hb.1, sat_weight rfl hb.2.1 hb.2.2.1 (List.mem_range.mp hi) hb.2.2.2.1]
    rfl
  all_goals (clear hb; revert x; decide +kernel)

/-- A saturating attempt is repeated within the allowance, beyond it under policy 0, and clipped under policy 1 or at step 2. -/
theorem witness_ProductsMove_saturating : ∀ x ∈ [(1, 0, 5, 0), (1, 0, 4, 0), (1, 0, 4, 1), (18, 2, 0, 0)], let p := satProd x.1 x.2.1
    let s := satDev x.1 x.2.2.1 x.2.2.2 p
    s.goesOn 511 = true ∧ s.flag R.gov_HOLD = false ∧ (s.core 511).products.filter (fun y => y.id == 5) = [p] ∧ p.stage = 1 ∧ p.atHead = false ∧
    p.reference = false ∧ s.sharing 511 p (fun q => !q.atHead && q.stage == 1 && decide (q.start < p.start)) = [] ∧ p.cmd.fld 192 8 = 0 ∧
    (x.1 = 1 → p.step ≠ 2 ∧ s.repeatCharge 511 p = 5 ∧ s.rd R.fmt_ALLOW_LEFT 511 = x.2.2.1 ∧
      s.rd R.fmtp_POLICY ((s.owner 511).getD 64) = x.2.2.2) ∧ (x.1 = 18 → p.step = 2) := by decide +kernel

/-- A weight image in K1.58 of one tile on array 63 at bushel 1024, for set 4095 in version 65,535. -/
def imgData : List Byte :=
  layout 128 [(0, 4, 0x4B585749), (4, 1, 1), (5, 1, 2), (6, 2, 4095), (8, 2, 65535), (14, 2, 1), (20, 4, 1563282448), (24, 8, 256),
    (124, 4, 2045483645)] ++ List.replicate 64 0 ++ layout 64 [(0, 4, 63)] ++ toLe 4 3094524304

def imgAt : Nat := 524288

/-- Partition 63 holds bushel 1024, and the image lies there. -/
def imgDev : State := (put run [(R.tab_EXT, 1024, 63, 0), (R.tab_EXT, 2 ^ 31 + 1, 63, 1), (R.we_WE_CEIL, 2002, 511, 0)]).putGranBytes (4096 * imgAt) imgData

def wcmd (op : Nat) (bank : Nat) : Cmd := cmd op [(80, 4095), (96, 65535), (112, 63), (119, bank), (128, imgAt)]

theorem eccGran_clean {s : State} (h : s.mem.granErr = []) (d : Nat) : s.eccGran d = s := by
  unfold State.eccGran
  rw [h]
  rfl

theorem eccImage_clean {s : State} (h : s.mem.granErr = []) (img : Nat) : s.eccImage img = s := by
  have hf : ∀ l : List Nat, l.foldl (fun s i => s.eccGran (64 * img + i)) s = s := fun l => by
    induction l with
    | nil => rfl
    | cons x l ih => rw [List.foldl_cons, eccGran_clean h, ih]
  unfold State.eccImage
  rw [eccGran_clean h, eccGran_clean h]
  dsimp only
  rw [hf, ite_self]

/-- The engine as it takes up a WPROG or a WADOPT of the image. -/
def imgUp (op bank : Nat) : State := imgDev.takeUp 511 .weight (wcmd op bank)

theorem imgUp_bytes : ∀ op ∈ [0x40, 0x41], ∀ bank ∈ [0, 1], (imgUp op bank).granBytes (imgAt * 4096) 124 = imgData.take 124 ∧
    (imgUp op bank).granBytes (imgAt * 4096 + 128) 4 ++ (imgUp op bank).granBytes (imgAt * 4096 + 192) 4 = [0, 0, 0, 0, 63, 0, 0, 0] := by
  decide +kernel

theorem crc_head : crc32c (imgData.take 124) = leNat ((imgData.drop 124).take 4) := by decide +kernel

theorem crc_layout : crc32c [0, 0, 0, 0, 63, 0, 0, 0] = 1563282448 := by decide +kernel

/-- The image passes its checks. -/
theorem imgUp_ok : ∀ op ∈ [0x40, 0x41], ∀ bank ∈ [0, 1], ((imgUp op bank).image imgAt).ok 4095 65535 = true := by
  intro op ho bank hb
  have h := imgUp_bytes op ho bank hb
  have h1 : ((imgUp op bank).image imgAt).checkOk = true := by
    show (crc32c ((imgUp op bank).granBytes (imgAt * 4096) 124) == (imgUp op bank).granLe (imgAt * 4096 + 124) 4) = true
    rw [h.1, crc_head]
    revert op bank
    decide +kernel
  have h2 : ((imgUp op bank).image imgAt).layoutCrc = 1563282448 := by
    have e : ((imgUp op bank).image imgAt).layoutCrc = crc32c ((imgUp op bank).granBytes (imgAt * 4096 + 128) (4 * ((imgUp op bank).granLe (imgAt * 4096 + 10) 2 + 1)) ++
        (imgUp op bank).granBytes (imgAt * 4096 + up64 (128 + 4 * ((imgUp op bank).granLe (imgAt * 4096 + 10) 2 + 1))) (4 * (imgUp op bank).granLe (imgAt * 4096 + 14) 2)) := rfl
    have t : (imgUp op bank).granLe (imgAt * 4096 + 10) 2 = 0 ∧ (imgUp op bank).granLe (imgAt * 4096 + 14) 2 = 1 := by
      revert op bank
      decide +kernel
    rw [e, t.1, t.2]
    exact (congrArg crc32c h.2).trans crc_layout
  unfold Img.ok
  rw [h1, h2]
  revert op bank
  decide +kernel

/-- WPROG and WADOPT of the image into a new set, with just enough wear left. -/
theorem witness_WeightSetsAndCommands_images : ∀ op ∈ [0x40, 0x41], ∀ bank ∈ [0, 1],
    imgDev.Takes 511 .weight (wcmd op bank) ∧ imgDev.rd R.core_PC_W 511 + 1 < 262144 ∧ imageCmd (wcmd op bank) = true ∧
    (let v := (imgUp op bank).eccImage (wImg (wcmd op bank))
     v.imageCode 511 (v.listCtx 511) (wcmd op bank) (op == 0x41) = 0 ∧ v.queuedPasses 511 < 16) := by
  intro op ho bank hb
  have hc : (imgUp op bank).mem.granErr = [] := by revert op bank; decide +kernel
  rw [eccImage_clean hc]
  have hk := imgUp_ok op ho bank hb
  have hw : wsidOf (wcmd op bank) = 4095 ∧ versionOf (wcmd op bank) = 65535 ∧ wImg (wcmd op bank) = imgAt := by revert op bank; decide +kernel
  dsimp only
  unfold State.imageCode
  dsimp only
  rw [hw.1, hw.2.1, hw.2.2, hk]
  unfold State.Takes
  clear hk hw hc
  revert op bank
  decide +kernel

/-- WFLIP, WREFR, WERASE and WVERIFY of a READY bank with just enough wear left; WS_SEL. -/
theorem witness_WeightSetsAndCommands :
    (let v := setDev.takeUp 511 .weight (wcmd 0x43 0)
     let b := v.setBank 511 4095 false
     let w := setDev.wset 511 4095
     imageCmd (wcmd 0x43 0) = false ∧ setDev.Takes 511 .weight (wcmd 0x42 0) ∧ setDev.Takes 511 .weight (wcmd 0x43 0) ∧
     setDev.Takes 511 .weight (wcmd 0x44 0) ∧ setDev.Takes 511 .weight (wcmd 0x45 1) ∧ setDev.rd R.core_PC_W 511 + 1 < 262144 ∧
     v.noRight 511 (v.listCtx 511) 4095 = false ∧ versionOf (wcmd 0x42 0) ≠ 0 ∧ w.valid = true ∧ w.ver b ≠ 0 ∧ w.st b = 3 ∧
     v.wearOk 511 b (v.flipGroup 511 4095) (v.rd R.we_WE_CEIL 511) = true ∧ v.queuedPasses 511 < 16 ∧
     w.ver (v.setBank 511 4095 true) ≠ 0 ∧ v.busyBank 511 4095 (v.setBank 511 4095 true) = false) ∧ setDev.hostOk = true := by
  unfold State.Takes; decide +kernel

def held? : WRes → Bool
  | .held => true
  | _ => false

/-- A WVERIFY behind 16 queued passes is held. -/
theorem witness_WeightSetsAndCommands_held : let s := setDev.updCore 511 (fun k => { k with
      passes := (List.range 16).map (fun i => ⟨i, .verify, 4095, 1, 65535, 0, 0, false, some 63, 0, [0], false, false, none, false⟩) })
    let v := s.takeUp 511 .weight (wcmd 0x45 1)
    s.Takes 511 .weight (wcmd 0x45 1) ∧ s.rd R.core_PC_W 511 + 1 < 262144 ∧ imageCmd (wcmd 0x45 1) = false ∧
    held? (wverifyAct v 511 (v.listCtx 511) (wcmd 0x45 1)) = true := by
  unfold State.Takes; decide +kernel

def pass (kind : PassKind) (running : Bool) : Pass :=
  ⟨7, kind, 4095, 1, 65535, imgAt, 0, false, some 63, 0, [63], running, false, none, false⟩
def withPass (p : Pass) : State :=
  let s := imgDev.updCore 511 (fun k => { k with
    passes := [p], pieceStore := [(0, 63)]
    sets := [(4095, { valid := true, fmt := 2, stA := 4, stB := 3, verA := 1, verB := 65535, imgB := imgAt })] })
  put { s with power := { s.power with level := [(64, 1000000)] } } [(R.cap_CAP_W, 1000, 0, 0), (R.we_AUTO_REFR, 1, 511, 0)]

/-- What PassesStartAndEnd asks of a pass that may start. -/
def startOk (s : State) (p : Pass) : Prop :=
  s.pass 511 7 = some p ∧ s.alive = true ∧ s.flag R.gov_HOLD = false ∧ p.running = false ∧ p.suspended = false ∧ p.code = none ∧
    s.arraysFree 511 p = true ∧ s.refreshWaits 511 p = false

/-- Passes that can start: a verify pass, a program pass that gets its grant, one that does not, and a refresh of a bank whose set the image does not
hold. -/
theorem witness_PassesStartAndEnd : let v := pass .verify false
    let p := pass .prog false
    let poor := put (withPass p) [(R.cap_CAP_W, 0, 0, 0)]
    let r := { pass .refresh false with set := 4094 }
    let bare := { withPass r with mem := {} }
    (startOk (withPass v) v ∧ v.kind.programs = false) ∧
    (startOk (withPass p) p ∧ p.kind.programs = true ∧ ((withPass p).askProgram 511 p).holds 511 7 true = true) ∧
    (startOk poor p ∧ (poor.askProgram 511 p).holds 511 7 true = false) ∧
    (startOk bare r ∧ (bare.readRefresh 511 r).refreshCode 511 r ≠ 0) := by
  unfold startOk; decide +kernel

/-- A running pass of each kind, with no array waiting for its grant; and one with an array that waits. -/
theorem witness_PassesStartAndEnd_end : let waits := { withPass (pass .prog true) with
      power := { (withPass (pass .prog true)).power with waiting := [⟨.cap, 511, 7, 100⟩] } }
    (∀ k ∈ [PassKind.prog, .adopt, .refresh, .verify, .repair, .replace], let s := withPass (pass k true)
      s.pass 511 7 = some (pass k true) ∧ s.alive = true ∧ (pass k true).running = true ∧ (pass k true).code = none ∧
      s.waitsGrant 511 (pass k true) = false) ∧
    waits.pass 511 7 = some (pass .prog true) ∧ waits.waitsGrant 511 (pass .prog true) = true := by decide +kernel

/-- A refresh whose image, at the READY bank's version, has no pieces. -/
def bareData : List Byte :=
  layout 128 [(0, 4, 0x4B585749), (4, 1, 1), (5, 1, 2), (6, 2, 4095), (8, 2, 65535), (20, 4, 1214729159), (124, 4, 488862044)]
def refreshDev : State := withPass (pass .refresh false) |>.putGranBytes (4096 * imgAt) (bareData ++ List.replicate 132 0)

theorem bare_ok : (refreshDev.image imgAt).ok 4095 65535 = true := by
  have hb : refreshDev.granBytes (imgAt * 4096) 124 = bareData.take 124 := by decide +kernel
  have h1 : (refreshDev.image imgAt).checkOk = true := by
    show (crc32c (refreshDev.granBytes (imgAt * 4096) 124) == refreshDev.granLe (imgAt * 4096 + 124) 4) = true
    rw [hb]
    decide +kernel
  have h2 : (refreshDev.image imgAt).layoutCrc = 1214729159 := by decide +kernel
  unfold Img.ok
  rw [h1, h2]
  decide +kernel

theorem refresh_one {s : State} {c : Nat} {p : Pass} {e : Nat × WSet} (hs : s.refreshSets c p = [e]) (hc : s.mem.granErr = [])
    (ho : (s.image (e.2.img p.bank)).ok e.1 (e.2.ver p.bank) = true) : s.readRefresh c p = s.readBlocks (e.2.img p.bank) := by
  unfold State.readRefresh
  rw [hs, List.foldl_cons, List.foldl_nil]
  dsimp only
  rw [eccImage_clean hc, if_pos ho]

theorem code_one {s : State} {c : Nat} {p : Pass} {e : Nat × WSet} (hs : s.refreshSets c p = [e])
    (hw : s.wearOk c p.bank p.arrays (s.rd R.we_WE_CEIL c) = true) (ho : (s.image (e.2.img p.bank)).ok e.1 (e.2.ver p.bank) = true)
    (hb : s.imgBlocks (s.image (e.2.img p.bank)) = []) : s.refreshCode c p = 0 := by
  unfold State.refreshCode
  rw [hs]
  dsimp only
  rw [hw]
  simp [ho, hb]

theorem witness_PassesStartAndEnd_refresh : let p := pass .refresh false
    let r := refreshDev.readRefresh 511 p
    startOk refreshDev p ∧ r.refreshCode 511 p = 0 ∧ (r.askProgram 511 p).holds 511 7 true = true := by
  have hs : refreshDev.refreshSets 511 (pass .refresh false) =
      [(4095, { valid := true, fmt := 2, stA := 4, stB := 3, verA := 1, verB := 65535, imgB := imgAt })] := by decide +kernel
  have hr : refreshDev.readRefresh 511 (pass .refresh false) = refreshDev :=
    (refresh_one hs (by decide +kernel) bare_ok).trans (by decide +kernel)
  dsimp only
  rw [hr]
  unfold startOk
  exact ⟨by decide +kernel, code_one hs (by decide +kernel) bare_ok (by decide +kernel), by decide +kernel⟩

/-- A program pass whose image has no blocks that could be bad. -/
theorem witness_PassesStartAndEnd_prog : let p := pass .prog true
    let s := { withPass p with mem := {} }
    let v := p.arrays.foldl (fun s a => s.updBank 511 a p.bank BankSt.absorb) ((s.readBlocks p.img).passWear 511 p)
    let m := v.image p.img
    s.pass 511 7 = some p ∧ p.kind = .prog ∧ s.waitsGrant 511 p = false ∧ (v.programImage 511 p.bank m.fmt (v.imgBlocks m)).2 = true := by decide +kernel

def repairPass (a : Nat) : Pass := ⟨7, .repair, 4095, 0, 1, 0, 0, false, none, 0, [a], true, false, none, true⟩
def noFindings : PassFindings := ⟨[], [], [], [], [], []⟩

/-- A switch in progress; a refresh due; verified repairs, of an array of no set and of one whose set has no image. -/
theorem witness_BankEvents : let f : Flip := ⟨⟨4095, 65535, some 63, none, false⟩, [0], true⟩
    let flipDev := setDev.updCore 511 (fun k => { k with flip := some f })
    let due := put (setDev.updCore 511 (fun k => { k with banks := [(1, { sampled := true, margin := 50 })] }))
      [(R.we_AUTO_REFR, 1, 511, 0), (R.we_REFR_THR, 20, 511, 0)]
    let fixing := fun (a : Nat) => setDev.updCore 511 (fun k => { k with
      passes := [repairPass a], banks := [(2 * a, { poisoned := [1023], fixes := [⟨31, 1023, 7, false⟩] })] })
    let isFix := fun (s : State) (a : Nat) => (s.core 511).passes.find? (fun p => (p.kind == .repair || p.kind == .replace) && p.running &&
      p.code.isNone && p.arrays == [a]) = some (repairPass a) ∧ s.pass 511 7 = some (repairPass a) ∧ s.waitsGrant 511 (repairPass a) = false
    (flipDev.core 511).flip = some f ∧ setDev.alive = true ∧
    ((due.setsOn 511 [0]).find? (fun e => e.2.st (1 - due.activeBank 511 0) == 3) =
        some (4095, { valid := true, stA := 4, stB := 3, verA := 1, verB := 65535 }) ∧ due.alive = true ∧
      due.flag R.we_AUTO_REFR 511 = true ∧ due.belowThr 511 0 (1 - due.activeBank 511 0) = true ∧ due.queuedPasses 511 < 16 ∧
      (due.core 511).passes.any (fun p => p.kind == .refresh && p.bank == 1 - due.activeBank 511 0 && p.arrays.contains 0 && p.code.isNone) = false) ∧
    (isFix (fixing 63) 63 ∧ ((fixing 63).arrayFill 511 63 0).isSome = true ∧ isFix (fixing 0) 0 ∧ (fixing 0).arrayFill 511 0 0 = none) := by
  decide +kernel

/-- A defective column, with wear left and without; a faulty row driver, with the octet's spare free, and in service. -/
theorem witness_BankEvents_defects : let worn := put setDev [(R.we_WE_CEIL, 0, 511, 0)]
    let used := setDev.updCore 511 (fun k => { k with replaced := [(56, true)] })
    let us := fun (s : State) => ((([1023#11].map (·.toNat)).filterMap (s.bank 511 63 0).serves).eraseDups).filter
      (fun u => !(s.bank 511 63 0).fixes.any (fun f => f.col == u))
    setDev.activeBank 511 63 = 0 ∧ (∀ x ∈ [1023#11], x.toNat < 1024) ∧ (setDev.bank 511 63 0).refBad.eraseDups.length ≤ 2 ∧
    us setDev = [1023] ∧ us worn = [1023] ∧ 1 ≤ (setDev.bank 511 63 0).freeSpares.length ∧
    setDev.wearOk 511 0 [63] (setDev.rd R.we_WE_CEIL 511) = true ∧ worn.wearOk 511 0 [63] (worn.rd R.we_WE_CEIL 511) = false ∧
    Tbl.get 0 (setDev.core 511).swap 63 = 0 ∧ setDev.spareTaken 511 7 = false ∧ setDev.spareWearOk 511 7 = true ∧
    Tbl.get 0 (used.core 511).swap 63 = 0 ∧ used.spareTaken 511 7 = true ∧ Marks.has (used.core 511).retired 7 = false := by decide +kernel

/-- What a sound column position measures; the same with a saturated code. -/
def meas (sat : Bool) : CalMeas := ⟨63, 1055, injExact, 0, (List.range 16).map (fun p => 4 * walshSum p 1055), sat⟩

/-- A forced and an aged run; a due run that starts, and one that the matrix engine or a flip holds up; a run that ends, with a sound position and
with a faulty one. -/
theorem witness_CalibrationRuns : let dueDev := put dev [(R.cal_DUE, 1, 511, 0), (R.cal_DUE_CAUSE, 3, 511, 0)]
    let busy := put dueDev [(R.mx_HEAD_WAIT, 3, 511, 0)]
    let handing := put dueDev [(R.mgmt_FW_STATE, 6, 0, 0)]
    let flips := dueDev.updCore 511 (fun k => { k with flip := some ⟨⟨4095, 65535, some 63, none, false⟩, [0], true⟩ })
    let aged := put dev [(R.cal_CAL_AUTO, 1, 511, 0), (R.cal_CAL_AGE, 0, 511, 0)]
    let running := put dueDev [(R.cal_RUNNING, 1, 511, 0)]
    let mayStart := fun (s : State) => s.alive = true ∧ s.flag R.cal_DUE 511 = true ∧ s.flag R.cal_RUNNING 511 = false ∧
      (s.core 511).cal.formed = false ∧ s.slotOpen 511 = some 256 ∧ s.inReplay 511 = false
    (dev.rd R.cal_DUE 511 ≤ 1 ∧ dev.inReplay 511 = false ∧ dev.hostOk = true) ∧ (aged.rd R.cal_DUE 511 ≤ 1 ∧ aged.inReplay 511 = false ∧
    aged.alive = true ∧ aged.flag R.cal_CAL_AUTO 511 = true ∧ (aged.core 511).cal.lastTime + 3600 * aged.rd R.cal_CAL_AGE 511 ≤ aged.now) ∧
    (mayStart dueDev ∧ dueDev.matrixBusy 511 = false ∧ (dueDev.core 511).flip = none ∧ dueDev.rd R.mgmt_FW_STATE ≠ 6 ∧
      dueDev.flag R.gov_HOLD = false) ∧
    (mayStart busy ∧ busy.matrixBusy 511 = true) ∧ (mayStart handing ∧ handing.rd R.mgmt_FW_STATE = 6) ∧ (mayStart flips ∧ (flips.core 511).flip.isSome = true) ∧
    running.alive = true ∧ running.flag R.cal_RUNNING 511 = true ∧
    (running.arrayFaults 511 ⟨[meas false], []⟩ 63).cols.contains 1055 = false ∧
    (let f := running.arrayFaults 511 ⟨[meas true], []⟩ 63
     f.cols.contains 1055 = true ∧ f.faults ≠ 0) := by decide +kernel

/-! ### Witnesses: ticks and frames -/

theorem witness_TickEdges : let stopped := { dev with power := { dev.power with fatal := true } }
    dev.power.stages = true ∧ dev.power.latched = false ∧ dev.flag R.tick_RUNNING = true ∧ dev.power.fatal = false ∧
    stopped.power.stages = true ∧ stopped.power.latched = false ∧ stopped.flag R.tick_RUNNING = true ∧ stopped.power.fatal = true := by
  decide +kernel

/-- The last tick number but one, at a block member and at the master of a block in a field, with a period of 2^17 or 2^12 cycles. -/
def marked (field : Bool) (log2 : Nat) : State :=
  put dev ([(R.tick_NUM_LO, 2 ^ 32 - 2, 0, 0), (R.live_NUM_HI, 65535, 0, 0), (R.tick_PERIOD_LOG2, log2, 0, 0), (R.tick_UPPORT, 0x1F, 0, 0)] ++ if field then
    [(R.tick_NUM_LO, 2 ^ 32 - 9, 0, 0), (R.tick_ROLE, 1, 0, 0), (R.msg_BLK, 63, 0, 0), (R.msg_FIELD_EN, 1, 0, 0), (R.port_MODE, 1, 23, 0)] else [])

/-- A block mark of the coming edge, and FIELD marks of edges that lie 4 and 5 short ticks ahead. -/
theorem witness_TickMarksAreTaken : (∀ x ∈ [(false, 17, 0xFFFFFFFFFFFF), (true, 12, 0xFFFFFFFFFFFB), (true, 12, 0xFFFFFFFFFFFC)],
    let s := marked x.1 x.2.1
    s.alive = true ∧ s.flag R.tick_RUNNING = true ∧ s.tickPort 23 = true ∧ s.followsMarks = true ∧ s.followsField = x.1 ∧
    s.expectsMark ⟨23, x.2.2, 12, 0, none, x.1⟩ = true ∧ s.flag R.tick_HOLDOVER = false ∧ s.rd R.tick_UPPORT = 0x1F) ∧
    (marked false 17).expectsMark ⟨23, 0xFFFFFFFFFFFE, 17, 0, none, false⟩ = false := by decide +kernel

/-- Two marks missed from the upstream port, by the sums of an edge at which every candidate delivered and by those of the last marks; four from
every port; holdover of 256 ticks with partition 63 spanning or not. -/
theorem witness_MarksAreLostAndFound : let miss := { dev with tick := { sums := [(23, 5)], missUp := 2, missAll := 4 } }
    let all := { miss with tick := { miss.tick with sums := [], sumsAll := [(23, 7)] } }
    let hold := put { dev with tick := { holdTicks := 256 } } [(R.tick_HOLDOVER, 1, 0, 0)]
    let spans := put hold [(R.part_PSTATE, 3, 63, 0), (R.tab_MAIN, 32, 63, 2)]
    (∀ s ∈ [miss, all], s.alive = true ∧ s.flag R.tick_RUNNING = true ∧ s.followsMarks = true ∧ s.flag R.tick_HOLDOVER = false ∧
      2 ≤ s.tick.missUp ∧ leastPort (if s.tick.sumsAll = [] then s.tick.sums else s.tick.sumsAll) (s.tickPorts.filter (· != s.rd R.tick_UPPORT)) = some 23) ∧
    4 ≤ miss.tick.missAll ∧
    spans.alive = true ∧ spans.flag R.tick_HOLDOVER = true ∧ 256 ≤ spans.tick.holdTicks ∧ spans.spanning = [63] ∧
    hold.alive = true ∧ hold.tickPort 23 = true ∧ (1#48).toNat = hold.tickNum + 1 ∧ hold.mayRealign = true := by decide +kernel

/-- PERIOD_ARM with each answer; a change that has come on a master with and without a partition, and on a member before its tick; and the first edge
of a master and of a member. -/
theorem witness_PeriodAndFirstTick : let at16 := put dev [(R.tick_ROLE, 1, 0, 0), (R.tick_AT_LO, 16, 0, 0), (R.tick_NEXT_LOG2, 17, 0, 0)]
    let odd := put at16 [(R.tick_NEXT_LOG2, 18, 0, 0)]
    let member := put at16 [(R.tick_ROLE, 0, 0, 0)]
    let change := { put dev [(R.tick_ROLE, 1, 0, 0), (R.tick_NUM_LO, 1, 0, 0)] with tick := { change := some (17, 1) } }
    let busy := put change [(R.part_PSTATE, 3, 63, 0)]
    let learnt := put { dev with tick := { change := some (17, 16) } } [(R.part_PSTATE, 3, 63, 0)]
    let early := put dev [(R.tick_RUNNING, 0, 0, 0), (R.mgmt_STAGE, 3, 0, 0)]
    let come := fun (s : State) => s.alive = true ∧ s.flag R.tick_RUNNING = true ∧ s.cyc = 0
    (at16.hostOk = true ∧ at16.partBusy = false ∧ ¬ at16.periodAt < at16.tickNum + 16 ∧ ¬ (at16.rd R.tick_NEXT_LOG2 < 12 ∨ 17 < at16.rd R.tick_NEXT_LOG2) ∧
      at16.followsMarks = false) ∧ (odd.hostOk = true ∧ 17 < odd.rd R.tick_NEXT_LOG2) ∧ (member.hostOk = true ∧ member.followsMarks = true) ∧
    (run.hostOk = true ∧ run.partBusy = true) ∧ (dev.hostOk = true ∧ dev.periodAt < dev.tickNum + 16) ∧
    (come change ∧ change.tick.change = some (17, 1) ∧ 1 ≤ change.tickNum ∧ change.followsMarks = false ∧ change.partBusy = false) ∧
    (come busy ∧ busy.tick.change = some (17, 1) ∧ busy.followsMarks = false ∧ busy.partBusy = true) ∧
    (come learnt ∧ learnt.tick.change = some (17, 16) ∧ learnt.followsMarks = true ∧ learnt.partBusy = true) ∧
    early.alive = true ∧ early.mgmt.released = true ∧ early.flag R.tick_RUNNING = false ∧ 3 ≤ early.rd R.mgmt_STAGE ∧ early.rd R.mgmt_STAGE ≤ 8 ∧
    early.rd R.tick_ROLE = 0 ∧ (put early [(R.tick_ROLE, 1, 0, 0)]).rd R.tick_ROLE ≠ 0 := by
  decide +kernel

/-- Partition 63 with a frame admitted at tick 0. -/
def frameDev (f : FrameSt) : State := put { dev with parts := [(63, { frame := some f })] } [(R.part_PSTATE, 3, 63, 0)]
/-- The same partition spanning modules and led by this one, or by module 1. -/
def spanDev (f : FrameSt) (lead : Nat) : State :=
  put (frameDev f) [(R.tab_MAIN, 32, 63, 2), (R.tab_MAIN, lead, 63, 16), (R.msg_ROUTE_POS, 23, 0, 1)]

/-- A complete and an incomplete frame in the last tick of their span; and a lead that holds the done notes of its frame. -/
theorem witness_FramesAreCut : dev.alive = true ∧ dev.flag R.tick_RUNNING = true ∧ dev.rd R.tick_PERIOD_LOG2 ≤ 17 ∧
    (∀ complete : Bool, let f : FrameSt := { complete := complete }
      let s := frameDev f
      (s.part 63).frame = some f ∧ s.pstate 63 = 3 ∧ f.admitTick + s.rd R.frm_FRAME_TICKS 63 ≤ s.tickNum + 1 ∧ f.cutTick ≠ s.tickNum + 1 ∧
      f.pubAt = none ∧ s.span 63 = false ∧ (complete = true → s.trailRoom 63 f = true) ∧ (s.part 63).trailOn = false) ∧
    (let f : FrameSt := { complete := true, dones := [0] }
     let s := spanDev f 0
     (s.part 63).frame = some f ∧ s.pstate 63 = 3 ∧ f.pubAt = none ∧ s.span 63 = true ∧ s.isLead 63 = true ∧ s.allDone 63 f = true) := by
  decide +kernel

/-- A frame that is done on its own, on a spanning partition's lead, and on another member; notes of a member, of the lead in time and too late; a
frame at its limit. -/
theorem witness_FramesComplete : let f : FrameSt := {}
    let limit : FrameSt := { slipOvr := 64 }
    (frameDev f).alive = true ∧ (frameDev f).pstate 63 = 3 ∧ ((frameDev f).part 63).frame = some f ∧ f.complete = false ∧
    (frameDev f).frameDone 63 f = true ∧ (frameDev f).span 63 = false ∧
    (∀ lead ∈ [0, 1], let s := spanDev f lead
      s.alive = true ∧ s.pstate 63 = 3 ∧ (s.part 63).frame = some f ∧ s.frameDone 63 f = true ∧ s.span 63 = true ∧
      (s.missingDraws 63).trailRoom 63 f = true ∧ s.isLead 63 = (lead == 0)) ∧
    (let s := spanDev f 1
     let m := s.mkMsg 0x0A 0 63 561 (s.leadMod 63) 561 f.seq.toNat
     msgDstMod m ≠ s.selfMod ∧ s.routePort m = some 23) ∧
    f.seq = 0 ∧ (spanDev f 1).span 63 = true ∧ (spanDev f 1).tickNum < (1#48).toNat ∧ (0#48).toNat ≤ (spanDev f 1).tickNum ∧
    ((spanDev f 1).part 63).resetDue = none ∧
    ((frameDev limit).part 63).frame = some limit ∧ (frameDev limit).rd R.frm_FRAME_LIMIT 63 ≤ limit.slips ∧ limit.pubAt = none ∧
    ((frameDev limit).part 63).resetDue = none := by decide +kernel

/-! ### Witnesses: the network and the Winnow -/

def slab : Slab := ⟨0, 0, false, [⟨0, 0, List.replicate 32 0, [false, false]⟩]⟩

/-- Circuit 255 folds one input at its root, router 31; a node of two inputs below it, router 30, feeds it from the west. -/
def foldDev (bufs : Tbl (List Slab)) (sums : Tbl (List Slab)) : State :=
  { netDev with net := { netDev.net with
    nodes := [(7935, 1 + 17 * 4 + 128 + 15 * 1024 + 14 * 32768), (8191, 1 + 2 + 19 * 1024)], bufs := bufs, sums := sums } }

/-- What ReductionsFold asks of a node that may fold. -/
def foldOk (s : State) (r : Nat) : Prop :=
  s.alive = true ∧ bitOf (s.node r 255) 0 = true ∧ s.circValid 255 = true ∧ s.circKind 255 = 0 ∧ s.enabled (s.circOwner 255) = true ∧
    Marks.has s.net.circBad 255 = false

def headsOf (s : State) (r : Nat) : List Slab :=
  (List.range (nodeIns (s.node r 255)).length).filterMap (fun i => (s.nodeBuf r 255 i).head?)

/-- A node without a slab; one whose sum has no place; folds at the root, and below it with equal and with different sequence numbers; and an entry
whose stored check fails. -/
theorem witness_ReductionsFold : let empty := foldDev [] []
    let full := foldDev [(65528, [slab])] []
    let stuck := foldDev [(65528, [slab])] [(255, [slab])]
    let below := fun (n : Nat) => foldDev [(63480, [slab]), (63481, [{ slab with seq := n }])] []
    (foldOk empty 31 ∧ (nodeIns (empty.node 31 255)).length = 1 ∧ empty.nodeBuf 31 255 0 = []) ∧
    (foldOk stuck 31 ∧ sumHeads (headsOf stuck 31) = some (slab, 0, 0) ∧ (stuck.placeSum 31 255 slab).isNone = true) ∧
    (foldOk full 31 ∧ sumHeads (headsOf full 31) = some (slab, 0, 0) ∧ full.nodeBuf 31 255 0 ≠ [] ∧
      (full.placeSum 31 255 slab).isSome = true ∧ bitOf (full.node 31 255) 1 = true) ∧
    (∀ n ∈ [0, 1], let s := below n
      foldOk s 30 ∧ (∀ i, i < (nodeIns (s.node 30 255)).length → s.nodeBuf 30 255 i ≠ []) ∧ bitOf (s.node 30 255) 1 = false ∧
      neighbour 30 (bitsOf (s.node 30 255) 2 5) = some (31, 19) ∧ s.inputOf 31 255 19 = some 0 ∧
      (sumHeads (headsOf s 30)).map (fun x => (x.2, (s.placeSum 30 255 x.1).isSome)) = some ((0, if n = 0 then 0 else 0x32), true)) ∧
    (empty.part (empty.circOwner 255)).resetDue = none := by
  unfold foldOk; decide +kernel

/-- The circuit's window at its root core 511, open or not. -/
def rootDev (cred open_ : Nat) : State :=
  put ({ foldDev [] [(255, [slab])] with net := { (foldDev [] [(255, [slab])]).net with circCred := [(255, cred)] } }.updCore 511 (fun k => { k with
    windows := [(0, { outstanding := 1, pmask := 2 ^ 63, hkind := 1, hst := 255 })] })) [(R.wdw_OPEN, open_, 511, 0)]

/-- A sum at a root core one credit short, with its credit and a window that takes it, and with one that does not; at a link port without a slab
credit and with one. -/
theorem witness_ReductionsFold_deliver : let need := ceilDiv (1 + 2 * (slab.grp + 1)) 64
    let port := fun (n : Nat) => put { rootDev 0 1 with net := { (rootDev 0 1).net with slabCred := [(255, n)] } }
      [(R.tab_CIRC, 1 + 63 * 256 + 559 * 65536, 255, 0), (R.port_VALID, 1, 23, 15), (R.port_LOCAL, 255, 23, 15), (R.port_CONFIRMED, 1, 23, 15)]
    let ready := fun (s : State) => Tbl.get [] s.net.sums 255 = [slab] ∧ s.alive = true ∧ s.circValid 255 = true ∧
      Marks.has s.net.circBad 255 = false
    let status := fun (s : State) => s.winStatus { core := 511, win := s.circWin 255, gen := Tbl.get 0 s.net.circGen 255, part := s.circOwner 255, hkind := 1
                                                   hmod := 0, hst := 255, woff := (slab.seq % (s.circNslot 255 + 1)) * s.circStride 255
                                                   ngran := 1 + 2 * (slab.grp + 1), units := need }
    need = 1 ∧ (ready (rootDev 0 1) ∧ (rootDev 0 1).circRoot 255 = 511 ∧ Tbl.get 0 (rootDev 0 1).net.circCred 255 < need) ∧
    (∀ o ∈ [0, 1], ready (rootDev 1 o) ∧ (rootDev 1 o).circRoot 255 = 511 ∧ need ≤ Tbl.get 0 (rootDev 1 o).net.circCred 255 ∧
      (status (rootDev 1 o) == 0) = (o == 1)) ∧
    (∀ n ∈ [0, 1], let s := port n
      ready s ∧ s.circRoot 255 = 559 ∧ (List.range 16).find? (fun i => s.flag R.port_VALID 23 i && !s.flag R.port_DIR 23 i &&
        s.rd R.port_LOCAL 23 i == 255 && s.flag R.port_CONFIRMED 23 i) = some 15 ∧ Tbl.get 0 s.net.slabCred 255 = n ∧ s.portUp 23 = true) := by
  decide +kernel

def mcEnt (wait : List (Nat × Nat)) : SqEnt := ⟨0xA6, cmd 0xA6 [(97, 254), (141, 131071)], 0, true, [(zeros, false)], 0, false, wait, 0, [], [], 0⟩
def mcDev (x : SqEnt) : State := netDev.updCore 511 (fun k => { k with sqs := [(7, [x])] })

/-- Copies whose acknowledgement is awaited, of target 63 and of target 0, a multicast with none left; circuit, target and node writes to circuits of
an enabled partition and of none, at both ends of their ranges. -/
theorem witness_CircuitsAndMulticasts : (∀ i ∈ [0, 63], let x := mcEnt [(65536 + i, i)]
      (mcDev x).alive = true ∧ (mcDev x).findSq 511 7 (mcWaits i) = some x) ∧
    (mcDev (mcEnt [])).goesOn 511 = true ∧ (mcDev (mcEnt [])).hazLate 511 [((mcEnt []).cmd.fld 141 17, 1)] = none ∧
    (mcDev (mcEnt [])).findSq 511 7 (fun x => x.op == 0xA6 && x.read && !x.done && x.wait.isEmpty && x.num != 0x30) = some (mcEnt []) ∧
    netDev.hostOk = true ∧ netDev.circFree 255 = false ∧ (0x20BFC0 - 0x208000) / 64 = 255 ∧ netDev.circFree 0 = true ∧
    (0x217FFC - 0x210000) / 128 = 255 ∧ (0x217FFC - 0x210000) % 128 / 4 = 31 ∧
    (put netDev [(R.rtr_NODE_SEL, 253, 31, 0)]).circFree ((put netDev [(R.rtr_NODE_SEL, 253, 31, 0)]).rd R.rtr_NODE_SEL 31) = true ∧
    (put netDev [(R.rtr_NODE_SEL, 255, 31, 0)]).circFree ((put netDev [(R.rtr_NODE_SEL, 255, 31, 0)]).rd R.rtr_NODE_SEL 31) = false ∧
    (BitVec.ofNat 26 (0x1000000 + 0x80000 * 31 + 0x7C38)).toNat = 0x1000000 + 0x80000 * 31 + 0x7C38 := by decide +kernel

/-- A buffer error of each kind that meets a granule on its way, and one of each that meets none. -/
theorem witness_CircuitsAndMulticasts_notes : let tree := mcDev (mcEnt [(65536, 0)])
    let node := foldDev [(65528, [slab])] []
    let inbox := { dev with net := { inbox := [msgTo 1 0 0 0 [zeros]] } }
    let onWay := run.updCore 511 (fun k => { k with sqs := [(7, [readStore])] })
    tree.alive = true ∧ node.alive = true ∧ inbox.alive = true ∧ onWay.alive = true ∧ queued.alive = true ∧
    (tree.noteGran 31 511 7 0 (.multicast 15)).isSome = true ∧
    tree.findSq 511 7 (fun x => x.op == 0xA6 && x.read && !x.wait.isEmpty) = some (mcEnt [(65536, 0)]) ∧
    (node.noteGran 31 0 0 2 (.slab 255 0)).isSome = true ∧ node.nodeBuf 31 255 0 = [slab] ∧
    (inbox.noteGran 0 0 0 0 (.message 0)).isSome = true ∧ inbox.net.inbox[0]? = some (msgTo 1 0 0 0 [zeros]) ∧
    (queued.noteGran 0 511 15 0 .fetch).isSome = true ∧ (onWay.noteGran 0 511 7 0 .store).isSome = true ∧
    (∀ h ∈ [BufHit.multicast 15, .slab 255 0, .message 0, .fetch, .store], (dev.noteGran 31 511 7 0 h).isNone = true) := by decide +kernel

def drawCmd (slot slices : Nat) : Cmd := cmd 0xA8 [(145, slot), (155, 65535), (177, slices - 1)]
def sliceData : List (List Byte × Bool) := [([5, 0, 0, 0, 0, 0, 128, 63], false)]
def slice (slot slices : Nat) : SqEnt := ⟨0xA8, drawCmd slot slices, 0, true, sliceData, 0, false, [], 0, [], [], 0⟩
def draw (slot stage : Nat) : Draw := ⟨slot, 63, 65535, 0, 0, 1, 1, [], 0, stage, 0, 0, 0, false, 0, 0⟩
/-- Partition 63 with slots 1,022 and 1,023 and request 65,535, a slice that the Winnow takes in, and draws. -/
def drawDev (slot slices : Nat) (l : List Draw) : State :=
  put { run.updCore 511 (fun k => { k with sqs := [(7, [slice slot slices])] }) with winnow := { draws := l }, tier := { reqs := [(65535, { lenMax := 5 })] } }
    [(R.pwin_SLOT_BASE, 1022, 63, 0), (R.pwin_SLOT_COUNT, 2, 63, 0), (R.tab_MAIN, 65535 + 65536, 63, 5)]

/-- A slice for the first slot past the partition's; for its last slot the first of three, the only one, and the second of two. -/
theorem witness_DrawsRun : (∀ x ∈ [(2, 1, ([] : List Draw)), (1, 3, []), (1, 1, []), (1, 2, [draw 1023 0])], let s := drawDev x.1 x.2.1 x.2.2
      s.alive = true ∧ s.enabledOwner 511 = some 63 ∧
      (Tbl.get [] (s.core 511).sqs 7).find? (fun x => x.op == 0xA8 && x.read && x.num == 0) = some (slice x.1 x.2.1) ∧
      decide (s.rd R.pwin_SLOT_COUNT 63 ≤ (slice x.1 x.2.1).cmd.fld 145 10) = (x.1 == 2) ∧ wdMode (slice x.1 x.2.1).cmd = 0) ∧
    (drawDev 1 3 []).draw 1023 = none ∧ (drawCmd 1 3).fld 177 8 = 2 ∧ (drawCmd 1 1).fld 177 8 = 0 ∧
    (let s := drawDev 1 1 []
     s.draw 1023 = none ∧ s.sliceCode 63 (drawCmd 1 1) sliceData = 0 ∧ s.drawsOf 63 65535 = []) ∧
    (let s := { drawDev 1 2 [{ draw 1023 0 with nslice := 2 }] with cores := (drawDev 1 2 []).cores }
     s.draw 1023 = some { draw 1023 0 with nslice := 2 } ∧ (draw 1023 0).stage = 0 ∧ (draw 1023 0).arrived < 2) := by decide +kernel

/-- The single slice's draw is one that the Winnow takes. -/
theorem witness_DrawsRun_single (d : Draw) (h : d.req = 65535) (h0 : d.mode = 0) (h1 : d.out = 0) : (drawDev 1 1 []).drawCode d = 0 := by
  have e : (drawDev 1 1 []).req 65535 = { lenMax := 5 } := by decide +kernel
  unfold State.drawCode
  rw [h, e, h0, h1]
  decide

/-- A draw waiting while 15 run; a draw running; a pass all of whose draws have finished, and one with a draw refused under 0x74. -/
theorem witness_DrawsRun_passes :
    (let s := { run with winnow := { draws := draw 1023 1 :: (List.range 15).map (fun i => draw i 2) } }
     s.nextDraw = some (draw 1023 1) ∧ s.alive = true ∧ (s.winnow.draws.filter (fun x => x.stage == 2)).length < 16) ∧
    (let s := { run with winnow := { draws := [draw 1023 2] } }
     s.draw 1023 = some (draw 1023 2) ∧ (draw 1023 2).stage = 2) ∧
    (∀ code ∈ [0, 0x74], let s := { run with winnow := { draws := [{ draw 1023 3 with code := code }] }, parts := [(63, { frame := some {} })] }
     s.alive = true ∧ (s.part 63).frame = some {} ∧ (∀ i, i ≤ (s.req 65535).kround → ∃ d ∈ s.drawsOf 63 65535, d.mode = 0 ∧ d.stage = 3 ∧
       d.code ≠ 0x78 ∧ d.out = i) ∧ ((s.drawsOf 63 65535).all (fun d => d.code != 0x74)) = (code == 0)) := by
  decide +kernel

/-! ### Witnesses: the tier manager -/

/-- Partition 63 with bushel 1024 as its pool, views of two pages and the range of request 65,535, whose entry is `e`. -/
def tierDev (e : ReqEntry) : State :=
  put { run with tier := { reqs := [(65535, e)] } } [(R.tab_EXT, 1024, 63, 0), (R.tab_EXT, 2 ^ 31 + 2 ^ 30 + 1, 63, 1),
    (R.tab_MAIN, 65535 + 65536, 63, 5), (R.ptier_VIEW_LOG2, 11, 63, 0)]

/-- The host's image for an OPEN: page map and count table in the linear space, TOP_P 1.0 and REP 1.0, with its check word. -/
def openData : List Byte := layout 256 [(48, 5, 4), (56, 5, 8), (132, 4, 0x3F800000), (140, 4, 0x3F800000), (252, 4, 640179492)]
def openDev : State := (tierDev {}).putGranBytes (1024 * 2097152) openData

theorem open_check : imageOk openData = true := by
  have h : openData.take 252 = openData.take 126 ++ (openData.drop 126).take 126 := by decide +kernel
  have a : (openData.take 126).foldl crcByte 0xFFFFFFFF = 1982968838 := by decide +kernel
  unfold imageOk crc32c
  rw [h, List.foldl_append, a]
  decide +kernel

theorem readOpen_plain {s : State} {p n addr : Nat} (ht : (s.req n).tstate = 0)
    (h : bitOf (leNat (((((s.readAll ((List.range 4).map (fun i => s.linGran p (addr + i)))).1.linBytes p addr 256).drop 152).take 1))) 1 = false) :
    s.readOpen p n addr = (s.readAll ((List.range 4).map (fun i => s.linGran p (addr + i)))).1 := by
  unfold State.readOpen
  rw [ht]
  dsimp only
  rw [h, Bool.and_false]
  rfl

/-- The state in which OPEN has read the image. -/
def openRead : State := ((openDev.entryRead 65535).1.readAll ((List.range 4).map (fun i => (openDev.entryRead 65535).1.linGran 63 i))).1

theorem openRead_eq : (openDev.entryRead 65535).1.readOpen 63 65535 0 = openRead := by
  have e : (List.range 4).map (fun i => (openDev.entryRead 65535).1.linGran 63 (0 + i)) =
      (List.range 4).map (fun i => (openDev.entryRead 65535).1.linGran 63 i) := by decide +kernel
  rw [readOpen_plain (by decide +kernel) (by decide +kernel), e]
  rfl

theorem openRead_code : openRead.openCode 63 65535 0 = 0 := by
  have hb : openRead.linBytes 63 0 256 = openData := by decide +kernel
  unfold State.openCode
  rw [hb]
  dsimp only
  rw [open_check]
  decide +kernel

/-- Request 65,535 with one live page, its page 1. -/
def pageDev (e : ReqEntry) : State := (tierDev { e with pmap := 4, len := 1 }).putGranBytes (1024 * 2097152 + 265) [0x80, 0, 4]

/-- OPEN of a FREE request with a good image and with a poisoned one; each other command in the states that allow it and in one that does not; a park with
room in the Silo list and without. -/
theorem witness_TierCommandsAndRegisters : openDev.alive = true ∧ openDev.booted = true ∧ openDev.inRange 63 65535 = true ∧
    (openDev.entryRead 65535).2 = false ∧ ((openDev.entryRead 65535).1.readOpen 63 65535 0).openCode 63 65535 0 = 0 ∧
    (let s := { tierDev {} with mem := { (tierDev {}).mem with granPoison := [(1024 * 32768, true)] } }
     (s.entryRead 65535).2 = false ∧ ((s.entryRead 65535).1.readOpen 63 65535 0).openCode 63 65535 0 = 0x63) ∧
    (∀ st ∈ [0, 1, 2, 3, 4, 5], let s := tierDev { tstate := st }
      s.alive = true ∧ s.booted = true ∧ s.inRange 63 65535 = true ∧ (s.entryRead 65535).2 = false ∧ (s.req 65535).tstate = st ∧
      ((s.entryRead 65535).1.livePages 63 65535).length ≤ ((s.entryRead 65535).1.freeSilo 63).length) ∧
    (let s := pageDev { tstate := 2 }
     s.alive = true ∧ s.booted = true ∧ s.inRange 63 65535 = true ∧ (s.entryRead 65535).2 = false ∧ (s.req 65535).tstate = 2 ∧
     ((s.entryRead 65535).1.freeSilo 63).length < ((s.entryRead 65535).1.livePages 63 65535).length) ∧
    (86400#32).toNat ≤ 86400 ∧ 86400 < (86401#32).toNat ∧
    (let s := put (tierDev { tstate := 2 }) [(R.ptier_POOL_LOW, 1, 63, 0), (R.tick_NUM_LO, 4, 0, 0)]
     s.alive = true ∧ s.fwRuns = true ∧ s.enabled 63 = true ∧ s.rd R.ptier_POOL_FREE 63 < s.rd R.ptier_POOL_LOW 63 ∧ s.idleRequests 63 = [65535]) ∧
    openDev.hostOk = true := by
  refine ⟨by decide +kernel, by decide +kernel, by decide +kernel, by decide +kernel, ?_, by decide +kernel, by decide +kernel, by decide +kernel, by decide,
    by decide, by decide +kernel, by decide +kernel⟩
  rw [openRead_eq, openRead_code]

def mv (park begun : Bool) (left : List MovedPage) : Move := ⟨65535, park, left, [], begun, false, false, 0⟩
def moveDev (m : Move) : State :=
  let s := tierDev { tstate := if m.park then 3 else 5, pmap := 4 }
  { s with tier := { s.tier with moves := [m] } }

/-- The same with the request's entry poisoned. -/
def spoilEntry (s : State) : State := { s with mem := { s.mem with granPoison := [(entryGran 65535, true)] } }

/-- Each state that an event takes on: opening; idle with room in the Silo list, without, and with an unclean entry; parked past its time to live, and with
an unclean entry. -/
theorem witness_TierMoves : (tierDev { tstate := 1 }).alive = true ∧ ((tierDev { tstate := 1 }).req 65535).tstate = 1 ∧ (tierDev {}).reqPart 65535 = 63 ∧
    (let idle := fun (s : State) => s.alive = true ∧ (s.req 65535).tstate = 2 ∧ s.flag R.ptier_AUTO_PARK 63 = true ∧
       bitOf (s.req 65535).flags 3 = false ∧ s.idleDue 65535 = true ∧ s.tier.rewrite = [] ∧ s.reqPart 65535 = 63
     let full := put (pageDev { tstate := 2 }) [(R.ptier_AUTO_PARK, 1, 63, 0)]
     let full := { full with tier := { full.tier with idleMs := [(65535, 0)] } }
     let room := put full [(R.ptier_SILO_COUNT, 1, 63, 0)]
     let live := fun (s : State) => ((s.entryRead 65535).1.livePages 63 65535).length
     (idle room ∧ (room.entryRead 65535).2 = false ∧ live room ≤ ((room.entryRead 65535).1.freeSilo 63).length) ∧
     (idle full ∧ (full.entryRead 65535).2 = false ∧ ((full.entryRead 65535).1.freeSilo 63).length < live full) ∧
     (idle (spoilEntry full) ∧ ((spoilEntry full).entryRead 65535).2 = true)) ∧
    (let s := tierDev { tstate := 4 }
     (s.req 65535).tstate = 4 ∧ s.ttlDue 65535 = true ∧ s.tier.rewrite = [] ∧ (s.entryRead 65535).2 = false ∧
     ((spoilEntry s).req 65535).tstate = 4 ∧ (spoilEntry s).ttlDue 65535 = true ∧ ((spoilEntry s).entryRead 65535).2 = true) := by
  decide +kernel

/-- Each move that an event takes on: a park copied and one to copy, a return that cannot begin, one that can, one to copy and one copied. -/
theorem witness_TierMoves_moves : let page : MovedPage := ⟨1, 0, 0, false, 32768⟩
    (∀ m ∈ [mv true true [], mv true true [page], mv false false [], mv false true [page], mv false true []], (moveDev m).alive = true ∧
      (moveDev m).tier.moves.find? (fun m => m.req == 65535) = some m ∧ m.cancel = false ∧ m.bad = false ∧
      (moveDev m).fnBlocked ((moveDev m).reqPart 65535 + 1) = false) ∧
    (let s := (moveDev (mv false false [])).putGranBytes (1024 * 2097152 + 267) [8]
     let n := ((List.range (s.viewPages 63)).filter (fun l => decide (0 < l) && (s.mapEnt 63 65535 l).where_ == 2)).length
     s.alive = true ∧ s.tier.moves.find? (fun m => m.req == 65535) = some (mv false false []) ∧ n = 1 ∧ n ≤ (s.freePages 63).length) ∧
    (let s := put ((moveDev (mv false false [])).putGranBytes (1024 * 2097152 + 267) [8]) [(R.tab_EXT, 2 ^ 31 + 1, 63, 1)]
     (s.freePages 63).length < ((List.range (s.viewPages 63)).filter (fun l => decide (0 < l) && (s.mapEnt 63 65535 l).where_ == 2)).length) := by
  decide +kernel

/-! ### Witnesses: the Ewebo Link -/

/-- Port 23 in a state, enabled or not, as it stands after a full train. -/
def portDev (state enable : Nat) : State :=
  put { dev with net := { ports := [(23, { fullDone := true, trained := true })] } } [(R.port_STATE, state, 23, 0), (R.port_ENABLE, enable, 23, 0)]

theorem witness_TrainingsStart : (23#5).toNat < 24 ∧ (portDev 0 0).hostOk = true ∧ (portDev 0 0).flag R.port_ENABLE 23 = false ∧
    (portDev 0 0).rd R.port_STATE 23 ≠ 7 ∧ (portDev 0 0).strapsLet = true ∧
    (portDev 5 1).hostOk = true ∧ (portDev 5 1).flag R.port_ENABLE 23 = true ∧ (portDev 5 1).rd R.port_STATE 23 = 5 ∧
    (portDev 5 1).mayTrain 23 = true ∧ (portDev 0 1).mayTrain 23 = true ∧ (portDev 0 1).rd R.port_STATE 23 = 0 ∧
    (portDev 6 1).mayTrain 23 = true ∧ (portDev 6 1).rd R.port_STATE 23 = 6 ∧
    (let bound := put (portDev 7 1) [(R.port_ENABLE, 1, 23, 0)]
     bound.hostOk = true ∧ bound.flag R.port_ENABLE 23 = true ∧ bound.rd R.port_STATE 23 = 7) ∧
    (let late := portDev 5 1 |>.updPort 23 (fun q => { q with replay := [⟨65535, [], 0, 16⟩] })
     late.mayTrain 23 = true ∧ late.rd R.port_STATE 23 = 5 ∧ ∃ h ∈ (late.port 23).replay, 16 ≤ h.sends) ∧ (0#2) ≠ 2 := by decide +kernel

def lanes (l : BitVec 4) : TrainFindings := ⟨l, some false, 0, 8, [], 1, 0, 0⟩

/-- A train that comes up on one lane, a train without a lane, a failed port and an up one. -/
theorem witness_TrainingsEnd : (portDev 1 1).mayTrain 23 = true ∧ (portDev 1 1).rd R.port_STATE 23 = 1 ∧
    (let full := !((portDev 1 1).port 23).quick
     ((portDev 1 1).showTrain 23 (lanes 0) full).trainCode 23 (lanes 0) full = 0x85 ∧
     ((portDev 1 1).showTrain 23 (lanes 1) full).trainCode 23 (lanes 1) full = 0) ∧
    (portDev 6 1).alive = true ∧ (portDev 6 1).rd R.port_STATE 23 = 6 ∧ (portDev 5 1).alive = true ∧ (portDev 5 1).rd R.port_STATE 23 = 5 := by
  decide +kernel

def held (seq : Nat) : Held := ⟨seq, [], 0, 1⟩
def withPort (q : PortSt) : State := { dev with net := { ports := [(23, q)] } }

/-- A replay in progress, a tick mark that goes before it, a queued message, no credit, and nothing to send. -/
theorem witness_FlitsGoOut : let next := fun (s : State) => ((s.port 23).again.head?).bind (fun i => (s.port 23).replay.find? (fun h => h.seq == i))
    let room := fun (s : State) => decide (0 < (s.port 23).txCred) && decide ((s.port 23).replay.length < 4096)
    let repeating := withPort { replay := [held 65535], again := [65535] }
    let marks := withPort { replay := [held 65535], again := [65535], queue := [msgTo 5 0 0 0 []] }
    let sends := withPort { queue := [msgTo 2 0 0 0 []], txCred := 1, txSeq := 65535 }
    let poor := withPort { txCred := 0, queue := [msgTo 2 0 0 0 []] }
    (∀ s ∈ [repeating, marks, sends, poor, dev], s.alive = true ∧ s.rd R.port_STATE 23 = 5) ∧
    next repeating = some (held 65535) ∧ repeating.tickWaits 23 = false ∧
    (marks.tickWaits 23 = true ∧ room marks = true ∧ ((marks.fillPayload 23 64).port 23).txBytes ≠ []) ∧
    (next sends = none ∧ room sends = true ∧ ((sends.fillPayload 23 64).port 23).txBytes ≠ []) ∧
    (next poor = none ∧ room poor = false) ∧ (next dev = none ∧ ((dev.fillPayload 23 64).port 23).txBytes = []) := by decide +kernel

def flit (seq : BitVec 16) (type : BitVec 4) (replay : Bool) : Flit := ⟨seq, 0, type, false, true, replay, 2047, 0, List.replicate 242 0⟩

/-- At a port that expects 65,535: a flit one ahead, 32,767 ahead, 32,768 ahead and in its turn, with and without a gap. -/
theorem witness_FlitsComeIn : let q : PortSt := { rxExp := 65535 }
    let gap : PortSt := { q with gap := true }
    let dist := fun (f : Flit) => (f.seq.toNat + 65536 - q.rxExp) % 65536
    (withPort q).alive = true ∧ (23#5).toNat < 24 ∧ (withPort q).rd R.port_STATE 23 = 5 ∧ (flit 0 0 false).type ≠ 1 ∧
    (flit 0 1 false).type = 1 ∧ 0 < dist (flit 0 1 false) ∧ dist (flit 0 1 false) < 32768 ∧ 0 < dist (flit 0x7FFE 1 false) ∧
    dist (flit 0x7FFE 1 false) < 32768 ∧ 32768 ≤ dist (flit 0x7FFF 1 false) ∧ dist (flit 0xFFFF 1 false) = 0 ∧
    ((withPort gap).port 23).gap = true ∧ (flit 0xFFFF 1 false).replay = false ∧ (flit 0xFFFF 1 true).replay = true ∧
    ((withPort q).port 23).gap = false := by decide +kernel

/-- The flit in its turn holds padding, or an acknowledgement for this module. -/
theorem witness_FlitsComeIn_payload : let s := withPort { rxExp := 65535 }
    let f := { flit 0xFFFF 1 false with payload := msgHeader (msgTo 2 511 0 0 []) ++ List.replicate 210 0 }
    let m := decodeMsg (f.payload.take 32)
    (s.port 23).rxBytes = [] ∧ (flit 0xFFFF 1 false).payload.headD 0 = 0 ∧ f.payload.length = 242 ∧ m.type = 2 ∧ granLimits 2 = some (0, 0) ∧
    f.payload.getD 2 0 = 0 ∧ f.payload.getD 3 0 = 0 ∧ f.payload.getD 32 0 = 0 ∧ s.protected 23 = false ∧ msgDstMod m = s.selfMod := by
  decide +kernel

/-- A codeword of zeros, and a word 17 symbols off it that no codeword within 15 symbols explains. -/
def rsZero : List Nat := List.replicate 544 0
def rsFar : List Nat := List.replicate 527 0 ++ [1, 568, 550, 748, 724, 650, 1005, 744, 27, 204, 617, 218, 595, 461, 746, 960, 888]

theorem gfMul_zero (x : Nat) : gfMul x 0 = 0 := by
  have h : ∀ k a, gfMulBits a 0 k = 0 := fun k => by
    induction k with
    | zero => exact fun _ => rfl
    | succ k ih => intro a; rw [gfMulBits, Nat.zero_div, ih, Nat.zero_testBit, if_neg Bool.false_ne_true]; rfl
  exact h 10 x

theorem gfEval_zeros (l : List Nat) (n x : Nat) : gfEval (l ++ List.replicate n 0) x = gfEval l x := by
  have h : (List.replicate n 0).foldr (fun c v => Nat.xor c (gfMul x v)) 0 = 0 := by
    induction n with
    | zero => rfl
    | succ n ih => rw [List.replicate_succ, List.foldr_cons, ih, gfMul_zero]; rfl
  unfold gfEval
  rw [List.foldr_append, h]

theorem rsSyndromes_zeros (l : List Nat) (n : Nat) : rsSyndromes (List.replicate n 0 ++ l) = rsSyndromes l := by
  unfold rsSyndromes
  rw [List.reverse_append, List.reverse_replicate]
  exact List.map_congr_left fun i _ => gfEval_zeros _ _ _

theorem rsZero_decodes : rsDecode rsZero = some (rsZero, []) := by
  have h : rsSyndromes rsZero = rsSyndromes [] := (congrArg rsSyndromes (List.append_nil rsZero).symm).trans (rsSyndromes_zeros [] 544)
  unfold rsDecode
  rw [h, if_pos (by decide +kernel)]

theorem errs_stay (syn : List Nat) : ∀ (l : List Nat) (k : RsSearch), (∀ n ∈ l, ¬ 2 * k.errs ≤ n) →
    (l.foldl (RsSearch.next syn) k).errs = k.errs := fun l => by
  induction l with
  | nil => exact fun _ _ => rfl
  | cons n l ih =>
    intro k h
    have e : (k.next syn n).errs = k.errs := by
      unfold RsSearch.next
      dsimp only
      split
      · rfl
      · rw [if_neg (h n (List.mem_cons_self ..))]
    rw [List.foldl_cons, ih _ (fun m hm => e ▸ h m (List.mem_cons_of_mem _ hm)), e]

theorem rsFar_fails : rsDecode rsFar = none := by
  have h : rsSyndromes rsFar = [0, 0, 0, 0, 0, 0, 0, 0, 0, 0, 0, 0, 0, 0, 0, 0, 1002, 849, 608, 448, 621, 446, 819, 675, 51, 231, 321, 244, 4, 583] :=
    (rsSyndromes_zeros _ _).trans (by decide +kernel)
  have e : (rsLocator (rsSyndromes rsFar)).errs = 17 := by
    rw [h]
    unfold rsLocator
    rw [show List.range 30 = List.range 17 ++ (List.range 13).map (17 + ·) by decide, List.foldl_append, errs_stay]
    · decide +kernel
    · have : ((List.range 17).foldl (RsSearch.next [0, 0, 0, 0, 0, 0, 0, 0, 0, 0, 0, 0, 0, 0, 0, 0, 1002, 849, 608, 448, 621, 446, 819, 675, 51, 231, 321, 244, 4, 583])
        { loc := [1], old := [1], disc := 1, errs := 0, gap := 1 }).errs = 17 := by decide +kernel
      rw [this]
      decide
  unfold rsDecode
  dsimp only
  rw [if_neg (by rw [h]; decide), if_pos (.inl (by rw [e]; decide))]

/-- Both as received words. -/
theorem witness_FlitsComeIn_words : ∀ l ∈ [rsZero, rsFar], (l.map (BitVec.ofNat 10)).map (·.toNat) = l ∧ l.length = 544 := by decide +kernel

/-- Ports of an enabled partition and free ones, a binding that is made and one that is removed; a key's owner ENABLED and DISABLED. -/
theorem witness_PortsAreBoundAndKeyed : let used := { run with parts := [(63, { ports := [(23, 0, 0)] })] }
    let half := put dev [(R.port_PEER, 23, 22, 0), (R.port_SW_EN, 1, 22, 0)]
    let both := put half [(R.port_PEER, 22, 23, 0), (R.port_SW_EN, 1, 23, 0)]
    used.hostOk = true ∧ (used.portBusy 23 || used.portBusy 0) = true ∧ half.hostOk = true ∧ (half.portBusy 23 || half.portBusy 22) = false ∧
    half.bound 23 (half.rd R.port_PEER 23) = false ∧ half.strapsLet = true ∧
    (match exec (.swEn 23 22 true) half with | .next t => t.bound 23 22 | _ => false) = true ∧
    both.bound 23 (both.rd R.port_PEER 23) = true ∧
    (match exec (.swEn 23 0 false) both with | .next t => t.bound 23 22 | _ => true) = false ∧
    dev.pstate (dev.rd R.port_KEY_OWNER 23) = 0 ∧ (put run [(R.port_KEY_OWNER, 63, 23, 0)]).pstate 63 ≠ 0 ∧
    (put run [(R.port_KEY_OWNER, 63, 23, 0)]).rd R.port_KEY_OWNER 23 = 63 := by decide +kernel

/-! ### Witnesses: messages -/

theorem witness_MessagesArePassedOn : ∀ t ∈ [1, 2, 3, 4, 7, 8, 9, 0xC, 0xD, 0xE], let m := { msgTo t 0 0 0 [] with dstMod := 0xFFF }
    dev.alive = true ∧ msgDstMod m ≠ dev.selfMod ∧ m.type.toNat = t := by decide +kernel

/-- Window 15 of core 511 open for partition 63 at station 0 of module 0x40, with one unit outstanding, at the last unit of the Loft. -/
def winDev : State :=
  put (run.updCore 511 (fun k => { k with windows := [(15, { outstanding := 1, pmask := 2 ^ 63, hmod := 0x40 })] }))
    [(R.wdw_OPEN, 1, 511, 15), (R.wdw_BASE, 2047, 511, 15), (R.wdw_GEN, 255, 511, 15)]
def wmsg (type : Nat) (flags arg0 arg1 : Nat) (data : List (List Byte)) : LinkMsg :=
  { msgTo type (511 + 15 * 1024) arg0 arg1 data with srcSt := 63 * 1024, flags := BitVec.ofNat 8 flags }
def ent (gen : Nat) : CreditEnt := ⟨0x40, 0, 15, gen, 1⟩
def credDev (l : List CreditEnt) : State := run.updCore 511 (fun k => { k with credits := l })

/-- A write into the window's last granule that lands, one past it; a POISON note; acknowledgements of a write that is awaited and of one
that is not; grants to an entry that stands, to a new one, and to a full table. -/
theorem witness_WindowMessages : let land := wmsg 1 0 (255 * 2 ^ 24 + 63) 0 [zeros]
    let past := wmsg 1 0 (255 * 2 ^ 24 + 64) 0 [zeros]
    let bad := wmsg 7 0 (255 * 2 ^ 24 + 63) 1 []
    let g := wmsg 3 0 15 0 []
    winDev.alive = true ∧ msgDstMod land = winDev.selfMod ∧ msgDstSt land < 512 ∧ land.type = 1 ∧
    winDev.winStatus (winReq land land.data.length) = 0 ∧ past.type = 1 ∧ winDev.winStatus (winReq past past.data.length) ≠ 0 ∧
    bad.type = 7 ∧ msgRed bad = false ∧ winDev.winStatus (winReq bad (bad.arg1.toNat % 65536)) = 0 ∧
    (let s := run.updCore 511 (fun k => { k with sqs := [(7, [⟨0xA3, cmd 0xA3 [], 0, true, [], 0, false, [(65535, 0)], 0, [], [], 0⟩])] })
     (List.range 8).find? (fun q => (s.findSq 511 q (awaits 65535)).isSome) = some 7 ∧
     (List.range 8).find? (fun q => (s.findSq 511 q (awaits 0)).isSome) = none) ∧
    g.type = 3 ∧ msgRed g = false ∧ msgClosed g = false ∧ msgDstMod g = run.selfMod ∧ msgDstSt g = 511 ∧
    (run.enabledOwner 511).isSome = true ∧ (credDev [ent 0]).credit 511 0x40 0 15 = some (ent 0) ∧ (credDev []).credit 511 0x40 0 15 = none ∧
    ((credDev []).core 511).credits.length < 64 ∧
    (credDev ((List.range 64).map (fun i => ⟨1, i, 0, 0, 0⟩))).credit 511 0x40 0 15 = none ∧
    64 ≤ ((credDev ((List.range 64).map (fun i => ⟨1, i, 0, 0, 0⟩))).core 511).credits.length := by decide +kernel

/-- A grant that closes its window, and grants for a circuit whose root is a core, open and closed, or a link port. -/
theorem witness_WindowMessages_grants : let core := netDev
    let port := put netDev [(R.tab_CIRC, 1 + 63 * 256 + 559 * 65536, 255, 0)]
    let closed := wmsg 3 4 15 0 []
    closed.type = 3 ∧ msgRed closed = false ∧ msgClosed closed = true ∧ (run.enabledOwner 511).isSome = true ∧
    (∀ s ∈ [core, port], ∀ flags ∈ [2, 6], let m := wmsg 3 flags 255 0 []
      m.type = 3 ∧ msgRed m = true ∧ msgClosed m = (flags == 6) ∧ s.alive = true ∧ msgDstMod m = s.selfMod ∧ msgDstSt m < 512 ∧
      s.circValid (m.arg0.toNat % 256) = true ∧ s.circOwner (m.arg0.toNat % 256) = msgPart m) ∧
    core.circRoot 255 < 536 ∧ 536 ≤ port.circRoot 255 := by decide +kernel

/-- Circuit 255 of partition 63 enters router 16 by port 23 (its LCIRC entry 15), whose buffer has room or none; a CSET and a CSET_ACK that
meet entry 15. -/
def portNet (l : List Slab) (dir : Nat) : State :=
  put { run with net := { nodes := [(edgeCluster 23 * 256 + 255, 1 + 2 + portCode 23 * 1024)], bufs := [((edgeCluster 23 * 256 + 255) * 8, l)] } }
    [(R.tab_CIRC, 1 + 63 * 256 + 511 * 65536, 255, 0), (R.port_VALID, 1, 23, 15), (R.port_DIR, dir, 23, 15), (R.port_LOCAL, 255, 23, 15)]
def pmsg (type flags arg0 arg1 : Nat) : LinkMsg := { msgTo type 559 arg0 arg1 [] with srcSt := 63 * 1024, flags := BitVec.ofNat 8 flags }

theorem witness_PortMessages : (portNet [slab] 1).alive = true ∧ msgDstMod (pmsg 4 0 255 0) = (portNet [slab] 1).selfMod ∧
    536 ≤ msgDstSt (pmsg 4 0 255 0) ∧ msgDstSt (pmsg 4 0 255 0) < 560 ∧ (pmsg 4 0 255 0).type = 4 ∧ (pmsg 7 2 255 0).type = 7 ∧
    msgRed (pmsg 7 2 255 0) = true ∧ (portNet [slab] 1).portInput 23 255 63 = some (edgeCluster 23, 255, 0) ∧
    ((portNet [slab] 1).nodeBuf (edgeCluster 23) 255 0).length < 2 ∧ (portNet [slab, slab] 1).portInput 23 255 63 = some (edgeCluster 23, 255, 0) ∧
    2 ≤ ((portNet [slab, slab] 1).nodeBuf (edgeCluster 23) 255 0).length ∧
    (let m := pmsg 8 0 (255 * 256) 0
     let a := m.arg0.toNat
     m.type = 8 ∧ (portNet [] 1).lcirc 23 (bitsOf a 8 8) (bitsOf a 0 8) (1 - bitsOf a 16 1) (msgPart m) = some 15) ∧
    (let m := pmsg 9 0 255 1
     let a := m.arg0.toNat
     m.type = 9 ∧ m.arg1.toNat % 2 = 1 ∧ (portNet [] 0).lcirc 23 (bitsOf a 0 8) (bitsOf a 8 8) (bitsOf a 16 1) (msgPart m) = some 15) := by
  decide +kernel

/-- A commit note, an acknowledgement of one, a management message; a snapshot order already seen, in time and late. -/
theorem witness_NotesAreTaken : let s := frameDev { notes := 1 }
    let sn := msgTo 6 561 1 (65535 * 65536) []
    s.alive = true ∧ msgDstMod (pmsg 0xC 0 0 0) = s.selfMod ∧ (pmsg 0xC 0 0 0).type = 0xC ∧ s.enabled (msgPart (pmsg 0xC 0 0 0)) = true ∧
    (pmsg 0xD 0 0 0).type = 0xD ∧ (s.part (msgPart (pmsg 0xD 0 0 0))).frame = some { notes := 1 } ∧ (pmsg 0xE 0 0 0).type = 0xE ∧
    sn.type = 6 ∧ ({ s with net := { snaps := [(0x40, 65535)] } } : State).net.snaps.contains (msgSrcMod sn, sn.arg1.toNat / 65536 % 65536) = true ∧
    s.net.snaps.contains (msgSrcMod sn, sn.arg1.toNat / 65536 % 65536) = false ∧ msgSrcMod sn ≠ s.selfMod ∧ s.tickNum < msgTick sn ∧
    msgTick (msgTo 6 561 0 0 []) ≤ s.tickNum := by decide +kernel

/-! ### Witnesses: memory, aperture, host -/

/-- Stacks whose next granule of the sweep has no error, one bit or two, and one whose temperature sensor has not failed yet. -/
theorem witness_StacksAreKept : let d := stackGran 23 0
    let one := { dev with mem := { granErr := [(d, 1)] } }
    let two := { dev with mem := { granErr := [(d, 2)] } }
    dev.alive = true ∧ (23#5).toNat < 24 ∧ Tbl.get 0 dev.mem.granErr d = 0 ∧ one.alive = true ∧ Tbl.get 0 one.mem.granErr d = 1 ∧
    two.alive = true ∧ 2 ≤ Tbl.get 0 two.mem.granErr d ∧
    (∀ bad : Bool, [(BitVec.ofNat 36 d, bad)].foldl (fun (e : Tbl Nat) (x : BitVec 36 × Bool) => if stackOf x.1.toNat = 23 ∧ x.1.toNat < granCount then
      Tbl.set 0 e x.1.toNat (if x.2 then 2 else 1) else e) dev.mem.granErr = [(d, if bad then 2 else 1)]) ∧ Marks.has dev.mem.tempFail 23 = false ∧
    16 * ((put dev [(R.hbm_SHUT_C, 105, 23, 0)]).rd R.hbm_SHUT_C 23 : Int) ≤ sgn 16 (1680#16).toNat ∧ dev.power.orderly = false := by decide +kernel

theorem witness_DeviceFatalEventsStop : let late := put { dev with mgmt := { dev.mgmt with handPhase := 3 } } [(R.mgmt_FW_STATE, 6, 0, 0)]
    dev.alive = true ∧ dev.booted = true ∧ (23#5).toNat < 24 ∧ dev.mgmt.released = true ∧ late.alive = true ∧ late.rd R.mgmt_FW_STATE = 6 ∧
    late.mgmt.handPhase = 3 := by decide +kernel

/-- Segment 31 open over bushel 1024, and over bushel 512, which the device owns, in an aperture of 256 MiB. -/
def aper (bushel : Nat) : State := put dev [(R.bar2_BASE_BUSHEL, bushel, 0, 31), (R.bar2_VALID, 1, 0, 31)]

/-- Accesses to the last byte of a closed segment, of an open one and of one that the device owns; map entries taken and refused; sizes. -/
theorem witness_ApertureWorks : let a := 2 ^ 28 - 1
    dev.bar2Ok = true ∧ a % 64 + 1 ≤ 64 ∧ a + 1 ≤ 2 ^ dev.rd R.bar2_SIZE_LOG2 ∧ dev.aperGran (a / 64) = none ∧ dev.hostOk = true ∧
    (aper 1024).bar2Ok = true ∧ (aper 1024).hostOk = true ∧
    (aper 1024).aperGran (a / 64) = some 33685503 ∧ Tbl.get 0 (aper 1024).mem.granErr 33685503 = 0 ∧ entryGran 65536 ≤ 33685503 ∧
    1024 ≤ 33685503 / 32768 ∧ (aper 1024).granBad 33685503 = false ∧ (aper 512).aperGran (a / 64) = some 16908287 ∧ 16908287 / 32768 < 1024 ∧
    dev.mapOk 1179644 = true ∧ dev.mapOk 1179648 = false ∧ dev.alive = true ∧ dev.host.linkUp = true ∧ (28#6).toNat = 28 ∧ (36#6).toNat = 36 := by
  decide +kernel

def hostDev (h : HostSt) : State := { dev with host := h }

theorem witness_HostLinkChanges : let down := put (hostDev {}) [(R.mgmt_STAGE, 2, 0, 0)]
    dev.host.linkUp = true ∧ dev.power.stages = true ∧ dev.power.latched = false ∧ down.host.linkUp = false ∧ down.power.stages = true ∧
    down.power.latched = false ∧ 2 ≤ down.rd R.mgmt_STAGE ∧ 5 ≤ (5#3).toNat ∧ (16#5).toNat ∈ [1, 2, 4, 8, 16] ∧
    (hostDev { linkUp := true, linkSecure := true }).host.linkSecure = true ∧
    Marks.has (hostDev { linkUp := true, fnSecure := [(64, true)] }).host.fnSecure 64 = true ∧ dev.alive = true ∧ 2 ≤ dev.rd R.mgmt_STAGE ∧
    dev.flag R.mgmt_ID_OK = false ∧ (put dev [(R.mgmt_ID_OK, 1, 0, 0)]).flag R.mgmt_ID_OK = true := by decide +kernel

def copy : HostCopy := ⟨0, 0, 1, false⟩
def copyDev (n : Nat) : State := { run with parts := [(63, { copies := List.replicate n copy })] }

/-- A vector unmasked with no write held, a copy that joins 15 or finds 16, a copy that completes, resets of a function whose partition is
ENABLED, CHECKING or ENABLING, and an access of 64 bytes to an odd address. -/
theorem witness_HostCommandsWork : dev.hostOk 64 = true ∧ (31#5).toNat < vectorsOf 0 ∧ (7#5).toNat < vectorsOf 64 ∧
    (dev.host.held.any fun h => h.fn == 64) = false ∧ (copyDev 15).hostOk 64 = true ∧ reaches 64 63 = true ∧
    ((copyDev 15).part 63).copies.length < 16 ∧ (copyDev 16).hostOk 64 = true ∧ 16 ≤ ((copyDev 16).part 63).copies.length ∧
    ((copyDev 1).part 63).copies = [copy] ∧ (copyDev 1).alive = true ∧ (copyDev 1).fnBlocked 64 = false ∧
    run.alive = true ∧ run.host.linkUp = true ∧ run.pstate 63 = 3 ∧ (run.part 63).resetDue = none ∧
    (put dev [(R.part_PSTATE, 1, 63, 0)]).pstate 63 = 1 ∧ (put dev [(R.part_PSTATE, 2, 63, 0)]).pstate 63 = 2 ∧
    1 ≤ (64#7).toNat ∧ bar0Form 64 1 = false ∧ inAperture 64 1 = false ∧ dev.fnBlocked 64 = false := by decide +kernel

/-! ### Witnesses: partitions -/

def part (st : Nat) : State := put dev [(R.part_PSTATE, st, 63, 0)]

/-- Every state of a partition and what is asked of it there. -/
theorem witness_PartitionsMove : (∀ st ∈ [0, 1, 2, 3, 4, 5], (part st).hostOk = true ∧ (part st).alive = true ∧ (part st).pstate 63 = st ∧
      ((part st).part 63).resetDue = none) ∧ ((part 2).part 63).zeroDone = false ∧
    (let s := put (part 2) [(R.tab_EXT, 1024, 63, 126), (R.tab_EXT, 2 ^ 31 + 2 ^ 29 + 1, 63, 127)]
     s.extValid 63 63 = true ∧ s.extZero 63 63 = true) ∧
    (let s := put (part 2) [(R.tab_MAIN, 32, 63, 2), (R.tab_MAIN, 1, 63, 16)]
     s.span 63 = true ∧ s.leadMod 63 ≠ s.selfMod ∧ s.pstate 63 = 2 ∧ (s.part 63).goNote = none ∧ s.enableAt 63 ≤ s.tickNum) ∧
    (part 3).enabled 63 = true ∧ (part 5).enabled 63 = true ∧
    (let s := { part 4 with parts := [(63, { scrubbing := true })] }
     s.alive = true ∧ s.pstate 63 = 4 ∧ (s.part 63).scrubbing = true) ∧
    (let unread : SqEnt := ⟨0xA1, cmd 0xA1 [], 0, false, [], 0, false, [], 0, [], [], 0⟩
     let s := put (({ part 4 with parts := [(63, { scrubbing := true })] } : State).updCore 511 (fun k => { k with sqs := [(7, [unread])] }))
       [(R.ctab_OWNER, 63, 511, 0), (R.ctab_OWNED, 1, 511, 0)]
     s.coresOf 63 = [511] ∧ (∀ q ∈ (s.core 511).sqs, ∀ x ∈ q.2, x.op = 0xA1 → x.read = true → x.done = true)) := by decide +kernel

/-- Partition 63's main record and its program record, at the start of bushel 1024, with their check words. -/
def mainData : List Byte :=
  layout 128 [(0, 4, 1), (4, 1, 14), (5, 1, 1), (6, 2, 8), (9, 1, 1), (10, 1, 1), (12, 2, 1), (14, 2, 1), (22, 3, 1), (25, 1, 10), (26, 2, 1),
    (34, 1, 1), (46, 2, 1), (124, 4, 2296218942)]
def progData : List Byte := layout 64 [(0, 4, 0x4B585052), (4, 1, 1), (60, 4, 2126537140)]
def checkDev : State :=
  let s := { put (run.putGranBytes (1024 * 2097152) progData) ((List.range 32).map (fun i => (R.tab_MAIN, leAt mainData (4 * i) 4, 63, i))) with
    mgmt := { run.mgmt with checkq := [63] } }
  put s [(R.tab_EXT, 1024, 63, 0), (R.tab_EXT, 2 ^ 31 + 1, 63, 1), (R.part_PSTATE, 1, 63, 0)]

theorem crc_main : crc32c (mainData.take 124) = 2296218942 := by decide +kernel
theorem crc_prog : crc32c (progData.take 60) = 2126537140 := by decide +kernel

/-- A program record of lists without entries. -/
theorem progRec_empty {s : State} {d : List Byte} (hm : s.main 63 56 5 = 0) (hb : s.linRun 63 0 64 = d) (hh : s.linHolds 63 0 64 = true)
    (hz : s.linRun 63 1 0 = []) (c : (crc32c (d.take 60) == leAt d 60 4) = true) (e0 : leAt d 0 4 = 0x4B585052) (e1 : leAt d 4 1 = 1)
    (e2 : leAt d 5 1 = 0) (e3 : leAt d 6 2 = 0) (e4 : leAt d 8 4 = 0) (e5 : leAt d 12 2 = 0) (e6 : leAt d 56 4 = crc32c []) :
    s.progRec 63 = ⟨0, true, 0, [], [], []⟩ := by
  have n : up64 0 = 0 := rfl
  unfold State.progRec
  rw [hm, Nat.zero_mod]
  simp only [hb, hh, c, e0, e1, e2, e3, e4, e5, e6, n, hz, Nat.mul_zero, Nat.add_zero, Nat.zero_add, List.range_zero, List.map_nil,
    List.drop_zero, List.take_nil, List.append_nil, beq_self_eq_true, Bool.and_true, Nat.zero_le, decide_true, if_true, Nat.zero_div]

theorem progRec_of {s : State} (hm : s.main 63 56 5 = 0) (hb : s.linRun 63 0 64 = progData) (hl : s.linBushels 63 = 1) :
    s.progRec 63 = ⟨0, true, 0, [], [], []⟩ := by
  refine progRec_empty hm hb ?_ rfl ?_ (by decide +kernel) (by decide +kernel) (by decide +kernel) (by decide +kernel) (by decide +kernel)
    (by decide +kernel) (by decide +kernel)
  · unfold State.linHolds ceilDiv
    rw [hl]
    rfl
  · rw [crc_prog]
    decide +kernel

/-- The state of the check, once it has read the program record. -/
def checkRead : State := (checkDev.readAll [checkDev.linGran 63 0]).1

theorem checkRead_rec : checkRead.progRec 63 = ⟨0, true, 0, [], [], []⟩ :=
  progRec_of (by decide +kernel) (by decide +kernel) (by decide +kernel)

theorem readProg_of {s : State} (g : s.main 63 56 5 % 2 ^ 36 = 0) (h : (s.readAll [s.linGran 63 0]).2 = true)
    (hr : (s.readAll [s.linGran 63 0]).1.progRec 63 = ⟨0, true, 0, [], [], []⟩) :
    s.readProg 63 = ((s.readAll [s.linGran 63 0]).1, true) := by
  unfold State.readProg
  rw [g]
  dsimp only
  rw [h, hr]
  rfl

theorem check_read : checkDev.readProg 63 = (checkRead, true) := by
  have h := checkRead_rec
  unfold checkRead at h ⊢
  exact readProg_of (by decide +kernel) (by decide +kernel) h

/-- A check that passes, one that is refused, and core table entries that are taken and refused. -/
theorem witness_ChecksAndCoreTable : let u := (checkDev.readProg 63).1
    let r : ProgRec := { u.progRec 63 with ok := (checkDev.readProg 63).2 && (u.progRec 63).ok }
    checkDev.mayCheck = true ∧ checkDev.mgmt.checkq.head? = some 63 ∧ checkDev.pstate 63 = 1 ∧
    firstFail (u.stepsA 63 r (u.flipsNeeded [] r.manifest) ++ u.stepsB 63 r) = none ∧ u.usedLcirc r = [] ∧
    firstFail ((u.bump R.acc_ACC_RUNS).stepsC 63 r) = none ∧ dev.hostOk = true ∧ dev.coreWriteOk 511 (64 + 63) = true ∧
    run.coreWriteOk 511 0 = false := by
  dsimp only
  rw [check_read]
  dsimp only
  rw [checkRead_rec]
  have hm : ((List.range 32).flatMap (fun i => toLe 4 (checkRead.rd R.tab_MAIN 63 i))) = mainData := by decide +kernel
  refine ⟨by decide +kernel, by decide +kernel, by decide +kernel, ?_, by decide +kernel, by decide +kernel, by decide +kernel, by decide +kernel,
    by decide +kernel⟩
  unfold State.stepsA
  dsimp only
  rw [hm, crc_main]
  decide +kernel

theorem witness_ChecksAndCoreTable_refused : let s := put { run with mgmt := { run.mgmt with checkq := [63] } } [(R.part_PSTATE, 1, 63, 0)]
    let u := (s.readProg 63).1
    let r : ProgRec := { u.progRec 63 with ok := (s.readProg 63).2 && (u.progRec 63).ok }
    s.mayCheck = true ∧ s.mgmt.checkq.head? = some 63 ∧ s.pstate 63 = 1 ∧
    firstFail (u.stepsA 63 r (u.flipsNeeded [] r.manifest) ++ u.stepsB 63 r) = some (1, 0) := by decide +kernel

/-! ### Witnesses: start-up, firmware and flash -/

theorem toLe_length (n v : Nat) : (toLe n v).length = n := by
  induction n generalizing v with
  | zero => rfl
  | succ n ih => simp [toLe, ih]

theorem leNat_toLe (n v : Nat) (h : v < 256 ^ n) : leNat (toLe n v) = v := by
  induction n generalizing v with
  | zero => simp at h; simp [toLe, leNat, h]
  | succ n ih =>
    have : v / 256 < 256 ^ n := Nat.div_lt_of_lt_mul (by rw [Nat.pow_succ, Nat.mul_comm] at h; exact h)
    simp [toLe, leNat, ih _ this]
    omega

theorem crcBit_lt {c : Nat} (h : c < 2 ^ 32) : crcBit c < 2 ^ 32 := by
  unfold crcBit
  split
  · exact Nat.xor_lt_two_pow (by omega) (by decide)
  · omega

theorem crc_lt (bs : List Byte) : crc32c bs < 2 ^ 32 := by
  have hf : ∀ (l : List Byte) (c : Nat), c < 2 ^ 32 → l.foldl crcByte c < 2 ^ 32 := by
    intro l
    induction l with
    | nil => exact fun _ h => h
    | cons b l ih =>
      intro c h
      refine ih _ ?_
      have hb : Nat.xor c b.toNat < 2 ^ 32 := Nat.xor_lt_two_pow h (by have := b.isLt; omega)
      exact crcBit_lt (crcBit_lt (crcBit_lt (crcBit_lt (crcBit_lt (crcBit_lt (crcBit_lt (crcBit_lt hb)))))))
  exact Nat.xor_lt_two_pow (hf bs _ (by decide)) (by decide)

/-- A record with its check word checks. -/
theorem withCheck_checks {bs : List Byte} {n : Nat} (h : bs.length = n) :
    cfgAt (withCheck bs) n 4 = crc32c bs ∧ (withCheck bs).take n = bs ∧ (withCheck bs).length = n + 4 := by
  subst h
  refine ⟨?_, ?_, ?_⟩
  · unfold cfgAt withCheck
    rw [List.drop_left, List.take_of_length_le (Nat.le_of_eq (toLe_length _ _))]
    exact leNat_toLe 4 _ (crc_lt bs)
  · exact List.take_left
  · simp [withCheck, toLe_length]

theorem bytes_of {m : Mem} {bs : List Byte} : ∀ {a : Nat}, (∀ i, i < bs.length → m.rd (a + i) = bs.getD i 0) → m.bytes a bs.length = bs := by
  induction bs with
  | nil => exact fun _ => rfl
  | cons b bs ih =>
    intro a h
    show m.rd a :: m.bytes (a + 1) bs.length = b :: bs
    have h0 := h 0 (Nat.zero_lt_succ _)
    rw [ih fun i hi => ?_]
    · exact congrArg (· :: bs) h0
    · have h1 := h (i + 1) (Nat.succ_lt_succ hi)
      rw [show a + 1 + i = a + (i + 1) by omega, h1]
      rfl

/-- Bytes written are read. -/
theorem bytes_write (m : Mem) (a : Nat) (bs : List Byte) : (m.write a bs).bytes a bs.length = bs :=
  bytes_of fun i hi => by
    rw [Mem.rd_write, if_pos ⟨by omega, by omega⟩, Nat.add_sub_cancel_left]

/-- A configuration copy: SVN 64, an aperture of 256 MiB, limits at the ends of their ranges, SHUT_C 105. -/
def cfgBody : List Byte :=
  toLe 4 0x4B584346 ++ [1, 0, 0, 0] ++ toLe 4 1 ++ [64, 0, 0, 28] ++ List.replicate 240 0 ++ toLe 2 400 ++ [2, 25, 0, 0, 0, 0] ++
    toLe 2 6200 ++ toLe 2 4000 ++ toLe 2 760 ++ toLe 2 250 ++ [0, 0, 105, 2, 0, 0, 0, 0, 5] ++ List.replicate 65251 0

theorem cfgBody_length : cfgBody.length = 65532 := by
  unfold cfgBody
  simp only [List.length_append, List.length_replicate, toLe_length, List.length_cons, List.length_nil]

def cfgData : List Byte := withCheck cfgBody

theorem cfg_form : cfgForm cfgData = true := by
  have h := withCheck_checks cfgBody_length
  unfold cfgForm
  rw [show cfgAt cfgData 65532 4 = crc32c cfgBody from h.1, show cfgData.take 65532 = cfgBody from h.2.1, beq_self_eq_true]
  decide +kernel

theorem floor_64 {s : State} (h : s.mgmt.blown = 64) : s.cfgFloor = 64 := by
  unfold State.cfgFloor
  rw [h]
  omega

theorem cfg_valid {s : State} (h : s.mgmt.blown = 64) : s.cfgValid cfgData true = true := by
  unfold State.cfgValid
  rw [cfg_form, floor_64 h]
  decide +kernel


/-- A device whose flash holds one valid configuration copy. -/
def bootMem : Mem := Mem.write [] 0x10000 cfgData
def bootDev : State := { mem := { flash := bootMem }, mgmt := { blown := 64 } }
def found (hot : Bool) : BootFindings := ⟨none, true, false, [], [], 0, if hot then [(127, 2000)] else [], []⟩

theorem cfgData_length : cfgData.length = 65536 := (withCheck_checks cfgBody_length).2.2

theorem boot_copy : bootDev.cfgCopy false = cfgData := by
  have h := bytes_write ([] : Mem) 0x10000 cfgData
  rw [cfgData_length] at h
  exact h

theorem form_zero {b : List Byte} (h : cfgAt b 0 4 = 0) : cfgForm b = false := by
  unfold cfgForm
  rw [h]
  rfl

theorem magic_of {m : Mem} {a n : Nat} (h : ∀ i, i < 4 → m.rd (a + i) = 0) : cfgAt (m.bytes a (4 + n)) 0 4 = 0 := by
  have e : cfgAt (m.bytes a (4 + n)) 0 4 = leNat [m.rd a, m.rd (a + 1), m.rd (a + 1 + 1), m.rd (a + 1 + 1 + 1)] := by
    rw [Nat.add_comm 4 n]
    rfl
  have h0 := h 0 (by decide)
  have h1 := h 1 (by decide)
  have h2 := h 2 (by decide)
  have h3 := h 3 (by decide)
  rw [e]
  simp only [Nat.add_zero] at h0
  rw [h0, h1, show a + 1 + 1 = a + 2 by omega, h2, show a + 2 + 1 = a + 3 by omega, h3]
  decide

theorem boot_zero {a : Nat} (h : a + 4 ≤ 0x10000 ∨ 0x20000 ≤ a) (i : Nat) (hi : i < 4) : bootMem.rd (a + i) = 0 := by
  unfold bootMem
  rw [Mem.rd_write_other]
  · rfl
  · rw [cfgData_length]
    omega

theorem boot_second : cfgForm (bootDev.cfgCopy true) = false :=
  form_zero (magic_of (m := bootMem) (a := 0x20000) (n := 65532) (boot_zero (by omega)))

theorem boot_id : bootDev.idOk = false := by
  have h : cfgAt (bootMem.bytes 0x1000 61440) 0 4 = 0 := magic_of (n := 61436) (boot_zero (by omega))
  unfold State.idOk
  show (cfgAt (bootMem.bytes 0x1000 61440) 0 4 == _ && _ && _) = _
  rw [h]
  rfl

theorem boot_flash : bootMem ≠ [] := by
  intro h
  have g := Mem.rd_write ([] : Mem) 0x10000 0x10000 cfgData
  rw [cfgData_length, if_pos (by omega), show Mem.write [] 0x10000 cfgData = [] from h] at g
  exact absurd g (by decide +kernel)

/-- Start-up step 1 where the first copy is valid and the second has no form. -/
theorem boot_config {s : State} {f : BootFindings} (ha : f.keyA = true) (h1 : s.cfgCopy false = cfgData) (h2 : cfgForm (s.cfgCopy true) = false)
    (h3 : s.idOk = false) (h4 : s.mgmt.blown = 64) :
    s.bootConfig f = ((((s.wr R.mgmt_STAGE 1).wr R.mgmt_ID_OK 0).loadFields cfgData false 64).checkStraps cfgData, true) := by
  have k1 : State.cfgValid s cfgData true = true := cfg_valid h4
  have k2 : ∀ key, s.cfgValid (s.cfgCopy true) key = false := fun _ => by
    unfold State.cfgValid
    rw [h2]
    rfl
  have p : s.pickCopy true f.keyB = (false, 0) := by
    unfold State.pickCopy
    simp only [h1, k1, k2]
  have step : ∀ t : State, t.cfgCopy false = cfgData → cfgForm (t.cfgCopy true) = false → t.pickCopy true f.keyB = (false, 0) →
      t.cfgFloor = 64 →
      (let t1 := if cfgForm (t.cfgCopy false) && !true then t.logErr 1 0x12 0 0xFF 561 0xFFFF 0 else t
       let t2 := if cfgForm (t1.cfgCopy true) && !f.keyB then t1.logErr 1 0x12 0 0xFF 561 0xFFFF 1 else t1
       let p := t2.pickCopy true f.keyB
       if p.2 ≠ 0 then (t2.bootFail p.2, false)
       else
         let b := t2.cfgCopy p.1
         ((t2.loadConfig b p.1).checkStraps b, true)) = ((t.loadFields cfgData false 64).checkStraps cfgData, true) := by
    intro t e1 e2 e3 e4
    simp [e1, e2, e3, e4, State.loadConfig]
  unfold State.bootConfig
  rw [ha, h3]
  exact step _ h1 h2 p (floor_64 h4)

/-- The state of step 1 of start-up, from a device that has just been released with the straps of chapter 15's example. -/
def bootUp : State := ((bootDev.updMgmt (fun m => { m with released := true })).wr R.mgmt_STAGE 0).sampleStraps 0x20D1
def bootLoaded : State := (((bootUp.wr R.mgmt_STAGE 1).wr R.mgmt_ID_OK 0).loadFields cfgData false 64).checkStraps cfgData

/-- Fields of a list, and the device-fatal stop, are as before. -/
def Same (l : List Fld) (s t : State) : Prop := t.power.fatal = s.power.fatal ∧ ∀ f ∈ l, ∀ i j, t.rd f i j = s.rd f i j

theorem Same.refl (l : List Fld) (s : State) : Same l s s := ⟨rfl, fun _ _ _ _ => rfl⟩
theorem Same.trans {l : List Fld} {s t u : State} (h : Same l s t) (g : Same l t u) : Same l s u :=
  ⟨g.1.trans h.1, fun f hf i j => (g.2 f hf i j).trans (h.2 f hf i j)⟩
theorem Same.wr {l : List Fld} {s t : State} {g : Fld} {v i j : Nat} (h : Same l s t) (hg : ∀ f ∈ l, g.id ≠ f.id) : Same l s (t.wr g v i j) :=
  h.trans ⟨rfl, fun f hf _ _ => State.rd_wr_other _ _ _ _ _ _ _ _ (hg f hf)⟩
theorem Same.keep {l : List Fld} {s t u : State} (h : Same l s t) (hr : u.regs = t.regs) (hp : u.power = t.power) : Same l s u :=
  h.trans ⟨by rw [hp], fun _ _ _ _ => by unfold State.rd; rw [hr]⟩
theorem Same.host {l : List Fld} {s t : State} {f : HostSt → HostSt} (h : Same l s t) : Same l s (t.updHost f) := h.keep rfl rfl
theorem Same.mgmt {l : List Fld} {s t : State} {f : MgmtSt → MgmtSt} (h : Same l s t) : Same l s (t.updMgmt f) := h.keep rfl rfl
theorem Same.foldl {α : Type} {l : List Fld} {s t : State} {f : State → α → State} (xs : List α) (hf : ∀ u x, Same l s u → Same l s (f u x))
    (h : Same l s t) : Same l s (xs.foldl f t) := by
  induction xs generalizing t with
  | nil => exact h
  | cons x xs ih => exact ih (hf t x h)

def bootFlds : List Fld := [R.therm_SHUT_C, R.therm_SENS_T, R.port_ENABLE]

theorem loadFields_same {s : State} {b : List Byte} {k : Bool} {n : Nat} : Same bootFlds ((s.loadTables b).loadLimits b) (s.loadFields b k n) := by
  unfold State.loadFields State.wrAll
  dsimp only
  repeat first
    | with_reducible exact .refl _ _
    | with_reducible refine Same.wr ?_ (by decide)
    | with_reducible refine Same.foldl _ (fun _ _ h => h.wr (by decide)) ?_
    | with_reducible refine Same.host ?_
    | with_reducible refine Same.mgmt ?_

theorem checkStraps_same {s : State} {b : List Byte} (h : strapFault s.mgmt.straps = false) : Same bootFlds s (s.checkStraps b) := by
  unfold State.checkStraps
  rw [h]
  exact ((Same.refl _ s).wr (by decide)).wr (by decide)

theorem startGauge_same {s : State} : Same bootFlds s (s.startGauge []) := by
  unfold State.startGauge
  dsimp only [List.foldl_nil]
  refine Same.wr (Same.wr ?_ (by decide)) (by decide)
  exact Same.foldl _ (fun _ _ h => (h.wr (by decide)).wr (by decide)) (.refl _ _)

/-- Ports that are not enabled do not train. -/
theorem noTrain (s : State) : ∀ l : List Nat, (∀ n ∈ l, s.rd R.port_ENABLE n = 0) →
    l.foldl (fun s n => if s.flag R.port_ENABLE n && s.mayTrain n then s.startTrain n true else s) s = s := by
  intro l h
  induction l with
  | nil => rfl
  | cons n l ih =>
    have e : s.flag R.port_ENABLE n = false := by
      unfold State.flag
      rw [h n (.head _)]
      rfl
    rw [List.foldl_cons, e, Bool.false_and]
    exact ih fun m hm => h m (.tail _ hm)

/-- The hottest sensor where all but the last read the same. -/
theorem best_of {s : State} {x : Int} (h : ∀ i, i < 127 → s.sensT i = 0) (hx : s.sensT 127 = x) (h0 : 0 ≤ x) :
    s.sensT ((List.range 128).foldl (fun (b : Nat) i => if s.sensT b < s.sensT i then i else b) 0) = x := by
  have e : ∀ l : List Nat, (∀ i ∈ l, i < 127) → l.foldl (fun (b : Nat) i => if s.sensT b < s.sensT i then i else b) 0 = 0 := by
    intro l hl
    induction l with
    | nil => rfl
    | cons i l ih =>
      rw [List.foldl_cons, h i (hl i (.head _)), h 0 (by decide)]
      exact ih fun j hj => hl j (.tail _ hj)
  rw [List.range_succ, List.foldl_append, e _ fun i hi => List.mem_range.mp hi, List.foldl_cons, List.foldl_nil, h 0 (by decide), hx]
  split
  · exact hx
  · rw [h 0 (by decide)]
    omega

theorem limits : let s := (bootUp.wr R.mgmt_STAGE 1).wr R.mgmt_ID_OK 0
    ((s.loadTables cfgData).loadLimits cfgData).rd R.therm_SHUT_C = 105 ∧
    (∀ n, n < 24 → ((s.loadTables cfgData).loadLimits cfgData).rd R.port_ENABLE n = 0) ∧
    (∀ i, i < 128 → ((s.loadTables cfgData).loadLimits cfgData).rd R.therm_SENS_T 0 i = 0) ∧
    ((s.loadTables cfgData).loadLimits cfgData).power.fatal = false := by decide +kernel
theorem bootUp_config (hot : Bool) : bootUp.bootConfig (found hot) = (bootLoaded, true) :=
  boot_config rfl boot_copy boot_second boot_id rfl

theorem bootLoaded_same : Same bootFlds ((((bootUp.wr R.mgmt_STAGE 1).wr R.mgmt_ID_OK 0).loadTables cfgData).loadLimits cfgData) bootLoaded := by
  unfold bootLoaded
  refine loadFields_same.trans (checkStraps_same ?_)
  decide +kernel

/-- Sensor 127 as found, the others as they stood. -/
def sensed (s : State) (hot : Bool) : State :=
  (found hot).temps.foldl (fun s t => s.wr R.therm_SENS_T t.2.toNat 0 t.1.toNat) ((s.wr R.mgmt_STAGE 2).startGauge [])

theorem sensed_rd {s : State} {hot : Bool} (h : ∀ i, i < 128 → s.rd R.therm_SENS_T 0 i = 0) :
    ∀ i, i < 128 → (sensed s hot).rd R.therm_SENS_T 0 i = if hot ∧ i = 127 then 2000 else 0 := by
  intro i hi
  have g : Same bootFlds s ((s.wr R.mgmt_STAGE 2).startGauge []) := ((Same.refl _ s).wr (by decide)).trans startGauge_same
  have gi := (g.2 R.therm_SENS_T (by decide) 0 i).trans (h i hi)
  unfold sensed found
  cases hot
  · simpa using gi
  · show (State.wr _ R.therm_SENS_T 2000 0 127).rd R.therm_SENS_T 0 i = _
    rw [State.rd_wr _ _ _ _ _ _ _ (by decide)]
    by_cases e : i = 127
    · subst e
      rfl
    · rw [if_neg, if_neg (fun k => e k.2), gi]
      omega

theorem sensed_same (s : State) (hot : Bool) : Same [R.therm_SHUT_C, R.port_ENABLE] s (sensed s hot) := by
  have g : Same bootFlds s ((s.wr R.mgmt_STAGE 2).startGauge []) := ((Same.refl _ s).wr (by decide)).trans startGauge_same
  have g' : Same [R.therm_SHUT_C, R.port_ENABLE] s ((s.wr R.mgmt_STAGE 2).startGauge []) :=
    ⟨g.1, fun f hf => g.2 f (by revert f; decide)⟩
  exact Same.foldl _ (fun _ _ h => h.wr (by decide)) g'

theorem clock_of {s : State} {hot : Bool} (h1 : s.rd R.therm_SHUT_C = 105) (h2 : ∀ n, n < 24 → s.rd R.port_ENABLE n = 0)
    (h3 : ∀ i, i < 128 → s.rd R.therm_SENS_T 0 i = 0) (h4 : s.power.fatal = false) :
    (s.bootClock (found hot)).2 = !hot ∧ (s.bootClock (found hot)).1.power.fatal = false := by
  have g := sensed_same s hot
  have gt : Same [R.therm_SHUT_C, R.port_ENABLE] s (sensed s hot).syncTmax := (g.wr (by decide)).wr (by decide)
  have b := best_of (s := sensed s hot) (x := if hot then 2000 else 0)
    (fun i hi => by unfold State.sensT; rw [sensed_rd h3 i (by omega), if_neg (by omega)]; rfl)
    (by unfold State.sensT; rw [sensed_rd h3 127 (by omega)]; cases hot <;> rfl) (by cases hot <;> decide)
  have m : (sensed s hot).syncTmax.rd R.therm_TMAX = usg 16 (if hot then 2000 else 0) := by
    unfold State.syncTmax
    rw [State.rd_wr_other _ _ _ _ _ _ _ _ (by decide), State.rd_wr _ _ _ _ _ _ _ (by decide), b, if_pos rfl]
    cases hot <;> rfl
  have p := noTrain (sensed s hot).syncTmax (List.range 24) fun n hn =>
    (gt.2 R.port_ENABLE (by decide) n 0).trans (h2 n (List.mem_range.mp hn))
  have f : (sensed s hot).syncTmax.power.fatal = false := gt.1.trans h4
  have u : (sensed s hot).syncTmax.rd R.therm_SHUT_C = 105 := (gt.2 _ (by decide) 0 0).trans h1
  unfold State.bootClock
  show (_ ∧ _ : Prop)
  unfold sensed at p f u m
  dsimp only [found] at p f u m ⊢
  rw [p, f]
  simp only [Bool.false_eq_true, if_false, u, m]
  cases hot
  · exact ⟨rfl, f⟩
  · exact ⟨rfl, f⟩

theorem boot_clock (hot : Bool) : (bootLoaded.bootClock (found hot)).2 = !hot ∧ (bootLoaded.bootClock (found hot)).1.power.fatal = false := by
  have l := limits
  have g := bootLoaded_same
  exact clock_of ((g.2 _ (by decide) 0 0).trans l.1) (fun n hn => (g.2 _ (by decide) n 0).trans (l.2.1 n hn))
    (fun i hi => (g.2 _ (by decide) 0 i).trans (l.2.2.1 i hi)) (g.1.trans l.2.2.2)

theorem rated (l : List Nat) : ∀ s : State, ∀ m, m ∈ l ∨ s.rd R.hbm_RATE m = 1 →
    (l.foldl (fun s n => s.wr R.hbm_RATE 1 n) s).rd R.hbm_RATE m = 1 := by
  induction l with
  | nil => exact fun s m h => h.resolve_left (by simp)
  | cons n l ih =>
    intro s m h
    refine ih _ m ?_
    by_cases e : m = n
    · right
      rw [e, State.rd_wr _ _ _ _ _ _ _ (by decide), if_pos rfl]
      rfl
    · rcases h with h | h
      · exact .inl ((List.mem_cons.mp h).resolve_left e)
      · right
        rw [State.rd_wr _ _ _ _ _ _ _ (by decide), if_neg (by omega), h]

theorem hbm_of (s : State) : (s.bootHbm (found false)).2 = true := by
  have e : (List.range 24).find? (fun n => ((List.range 24).foldl (fun s n => s.wr R.hbm_RATE 1 n)
      ((s.wr R.mgmt_STAGE 3).wr R.mgmt_PPR_SKIP (min (found false).pprSkip.toNat s.repairs.length))).rd R.hbm_RATE n = 3) = none := by
    refine List.find?_eq_none.mpr fun n hn => ?_
    rw [rated _ _ n (.inl hn)]
    decide
  unfold State.bootHbm
  simp only [found, List.contains_nil, Bool.false_eq_true, if_false] at e ⊢
  rw [e]

/-- Device reset, power, and each way that the start sequence ends: it hangs in step 1, finds no configuration, is too hot, or reaches
WAIT_FW; and the time limits of steps 1 to 4. -/
theorem witness_StartUpRuns : let off := { dev with power := { input := false, stages := false } }
    let low := { dev with power := { input := true, stages := false } }
    dev.power.input = true ∧ dev.power.stages = true ∧ dev.power.latched = false ∧ off.power.input = false ∧ low.power.input = true ∧
    low.power.stages = false ∧ State.reset.power.stages = true ∧ State.reset.power.latched = false ∧ State.reset.mgmt.released = false ∧
    ({ found false with hang := some 1 } : BootFindings).hang = some 1 ∧ (found false).hang = none ∧
    ((((State.reset.updMgmt (fun m => { m with released := true })).wr R.mgmt_STAGE 0).sampleStraps 0).bootConfig (found false)).2 = false ∧
    (∀ n ∈ [1, 2, 3, 4], let s := put dev [(R.mgmt_STAGE, n, 0, 0)]
      s.alive = true ∧ s.mgmt.released = true ∧ s.rd R.mgmt_STAGE = n) := by decide +kernel

theorem witness_StartUpRuns_loaded (hot : Bool) : bootDev.power.stages = true ∧ bootDev.power.latched = false ∧ bootDev.mgmt.released = false ∧
    (found hot).hang = none ∧ strapFault (0x20D1#14).toNat = false ∧
    let f := if bootDev.mem.flash = [] then bootDev.updMem (fun m => { m with flash := [] }) else bootDev
    let u := ((f.updMgmt (fun m => { m with released := true })).wr R.mgmt_STAGE 0).sampleStraps (0x20D1#14).toNat
    let c := u.bootConfig (found hot)
    let k := c.1.bootClock (found hot)
    c.2 = true ∧ k.2 = !hot ∧ k.1.power.fatal = false ∧ (hot = false → (k.1.bootHbm (found hot)).2 = true) := by
  refine ⟨rfl, rfl, rfl, rfl, by decide, ?_⟩
  have e : (if bootDev.mem.flash = [] then bootDev.updMem (fun m => { m with flash := [] }) else bootDev) = bootDev := if_neg boot_flash
  dsimp only
  rw [e]
  have g := bootUp_config hot
  unfold bootUp at g
  have v : (0x20D1#14).toNat = 0x20D1 := by decide
  rw [v, g]
  dsimp only
  exact ⟨rfl, (boot_clock hot).1, (boot_clock hot).2, fun h => by subst h; exact hbm_of _⟩

def mgmtDev (m : MgmtSt) (l : List (Fld × Nat × Nat × Nat)) : State := put { dev with mgmt := { m with released := true } } l

/-- The header of an image: format 1, a body of one byte, SVN 1, checkpoint 1. -/
def imageHead (magic svn major : Nat) : List Byte := layout 576 [(0, 4, magic), (4, 1, 1), (8, 4, 1), (28, 2, svn), (30, 1, major)]
def loadDev (magic svn major : Nat) (started : Bool) : State :=
  let s := mgmtDev { runHead := if started then [1] else [] } [(R.mgmt_FW_STATE, 2, 0, 0), (R.mgmt_STAGE, if started then 8 else 6, 0, 0),
    (R.mgmt_FW_LEN, 4097, 0, 0), (R.mgmt_MIN_FW_SVN, 1, 0, 0), (R.mgmt_DRV_CP, 256, 0, 0)]
  s.updMem (fun m => { m with loadWin := m.loadWin.write s.otherHalf (imageHead magic svn major) })

/-- Every result of a verification, on a device that runs firmware and on one that does not. -/
theorem witness_FirmwareRuns_verified : ∀ started : Bool, ∀ x ∈ [((0, 1, 1, true, true), 0xA1), ((0x4B584657, 1, 1, false, true), 0xA2),
      ((0x4B584657, 1, 1, true, false), 0xA3), ((0x4B584657, 0, 1, true, true), 0xA4), ((0x4B584657, 1, 0, true, true), 0xA5),
      ((0x4B584657, 1, 1, true, true), 0)], let s := loadDev x.1.1 x.1.2.1 x.1.2.2.1 started
    s.alive = true ∧ s.rd R.mgmt_FW_STATE = 2 ∧ s.rd R.mgmt_STAGE ≠ 7 ∧ (s.mgmt.runHead = [] ↔ started = false) ∧
    s.imageCode1 s.loadedHead x.1.2.2.2.1 x.1.2.2.2.2 = x.2 := by decide +kernel

/-- A hand-off that stands at each of its phases; tick 100 is H. -/
def handDev (phase tick : Nat) : State :=
  mgmtDev { runHead := imageHead 0x4B584657 1 1, stageHead := [1], handPhase := phase } [(R.mgmt_FW_STATE, 6, 0, 0), (R.tick_NUM_LO, tick, 0, 0),
    (R.mgmt_HANDOFF_TICK_LO, 100, 0, 0)]

theorem flatMap_length {α : Type} {f : α → List Byte} {n : Nat} (h : ∀ x, (f x).length = n) (l : List α) : (l.flatMap f).length = n * l.length := by
  induction l with
  | nil => rfl
  | cons a l ih => rw [List.flatMap_cons, List.length_append, h, ih, List.length_cons, Nat.mul_succ, Nat.add_comm]

theorem handRecord_length {s : State} (h : 32 ≤ s.mgmt.runHead.length) : s.handRecord.length = 24576 := by
  have hp : ∀ p, (s.handPart p).length = 64 := fun p => by
    unfold State.handPart
    simp only [List.length_append, toLe_length, List.length_replicate]
  have hc : ∀ c, (s.handCore c).length = 32 := fun c => by
    unfold State.handCore
    simp only [List.length_append, toLe_length, List.length_replicate]
  unfold State.handRecord withCheck
  simp only [List.length_append, toLe_length, List.length_replicate, flatMap_length hp, flatMap_length hc, List.length_map, List.length_range,
    List.length_take, List.length_drop]
  omega

/-- FW_GO, the first start, and a hand-off at H - 1, at H and after it. -/
theorem witness_FirmwareRuns : dev.hostOk = true ∧ dev.loadOpen = true ∧
    (mgmtDev {} [(R.mgmt_FW_STATE, 0, 0, 0), (R.mgmt_STAGE, 5, 0, 0)]).hostOk = true ∧
    (mgmtDev {} [(R.mgmt_FW_STATE, 0, 0, 0), (R.mgmt_STAGE, 5, 0, 0)]).loadOpen = true ∧
    (mgmtDev {} [(R.mgmt_STAGE, 7, 0, 0)]).alive = true ∧ (mgmtDev {} [(R.mgmt_STAGE, 7, 0, 0)]).rd R.mgmt_STAGE = 7 ∧
    (let s := handDev 0 99
     s.alive = true ∧ s.rd R.mgmt_FW_STATE = 6 ∧ s.mgmt.handPhase = 0 ∧ s.tickNum + 1 = s.handoffTick ∧ 32 ≤ s.mgmt.runHead.length) ∧
    (let s := handDev 1 100
     s.alive = true ∧ s.rd R.mgmt_FW_STATE = 6 ∧ s.mgmt.handPhase = 1 ∧ s.handoffTick ≤ s.tickNum) ∧
    (let s := handDev 2 100
     s.alive = true ∧ s.rd R.mgmt_FW_STATE = 6 ∧ s.mgmt.handPhase = 2 ∧ s.handOk = false) := by decide +kernel

theorem witness_FirmwareRuns_record : (handDev 0 99).handRecord.length = 24576 := handRecord_length (by decide +kernel)

/-- The start of a hand-off record and its check word, in the Granary. -/
def handBody : List Byte := toLe 4 0x4B58484F ++ toLe 2 1 ++ List.replicate 24566 0

theorem handBody_length : handBody.length = 24572 := by
  unfold handBody
  simp only [List.length_append, List.length_replicate, toLe_length]

/-- A record that holds. -/
theorem witness_FirmwareRuns_taken (phase : Nat) (h : phase = 2 ∨ phase = 3) :
    let s := (handDev phase 100).updMem (fun m => { m with granary := m.granary.write (560 * 2097152) (withCheck handBody) })
    s.alive = true ∧ s.rd R.mgmt_FW_STATE = 6 ∧ 2 ≤ s.mgmt.handPhase ∧ s.handOk = true := by
  have hl : (withCheck handBody).length = 24576 := (withCheck_checks handBody_length).2.2
  have hb := bytes_write (handDev phase 100).mem.granary (560 * 2097152) (withCheck handBody)
  rw [hl] at hb
  have c := withCheck_checks handBody_length
  dsimp only
  refine ⟨?_, ?_, ?_, ?_⟩
  · rcases h with rfl | rfl <;> decide +kernel
  · rcases h with rfl | rfl <;> decide +kernel
  · rcases h with rfl | rfl <;> decide
  · unfold State.handOk
    have hg : ((handDev phase 100).updMem fun m => { m with granary := m.granary.write (560 * 2097152) (withCheck handBody) }).granBytes
        (560 * 2097152) 24576 = withCheck handBody := by
      unfold State.granBytes
      exact hb
    rw [hg]
    dsimp only
    rw [c.1, c.2.1, beq_self_eq_true]
    rcases h with rfl | rfl <;> decide +kernel

/-- Calibration epochs that are not in the flash yet. -/
def backDev (due : Bool) : State := put (mgmtDev { runHead := [1], wbDue := due, wbAdvance := !due } []) [(R.cal_CAL_EPOCH, 1, 511, 0)]

/-- A configuration block refused, one that is taken at once and one that waits for the flash or for firmware; a write-back that is asked for or due; a write in progress. -/
theorem witness_FlashIsWritten :
    dev.hostOk = true ∧ dev.fwRuns = true ∧ dev.cfgValid (dev.mem.cfgStage.bytes 0 65536) true = false ∧
    (∀ due : Bool, let s := backDev due
      s.alive = true ∧ s.fwRuns = true ∧ s.power.orderly = false ∧ s.epochsAhead = true ∧
      (s.mgmt.wbDue = true ∨ s.mgmt.wbAdvance = true) ∧ s.mem.flashOp = none ∧ s.mem.granPoison = [] ∧
      Marks.has s.mem.flashStop 0 = false) ∧
    (let s := put dev [(R.mgmt_FW_STATE, 6, 0, 0)]
     s.hostOk = true ∧ s.fwRuns = false) ∧
    ({ dev with mem := { flashOp := some ⟨0, 0x100000, [1]⟩ } } : State).alive = true := by decide +kernel

def stagedDev (op : Option FlashOp) : State :=
  { dev with mem := { flashOp := op, cfgStage := Mem.write [] 0 cfgData }, mgmt := { dev.mgmt with blown := 64 } }

theorem witness_FlashIsWritten_staged (op : Option FlashOp) (h : op = none ∨ op = some ⟨0, 0x100000, [1]⟩) : let s := stagedDev op
    let b := s.mem.cfgStage.bytes 0 65536
    s.hostOk = true ∧ s.fwRuns = true ∧ s.mem.flashOp = op ∧ s.cfgValid b true = true ∧
    max (cfgAt (s.cfgCopy false) 8 4) (cfgAt (s.cfgCopy true) 8 4) < cfgAt b 8 4 := by
  have hb : (stagedDev op).mem.cfgStage.bytes 0 65536 = cfgData := by
    have g := bytes_write [] 0 cfgData
    rw [cfgData_length] at g
    exact g
  dsimp only
  rw [hb]
  have v : (stagedDev op).cfgValid cfgData true = true := cfg_valid rfl
  refine ⟨?_, ?_, rfl, v, ?_⟩
  · rcases h with rfl | rfl <;> decide +kernel
  · rcases h with rfl | rfl <;> decide +kernel
  · rcases h with rfl | rfl <;> decide +kernel

/-! ### Witnesses: stops, power and sensors -/

def powered (w : PowerSt) : State := { dev with power := w }

/-- Each kind of stop, at the first cause, at a later one, and between its steps. -/
theorem witness_DeviceStops : let soft := put dev [(R.therm_SD_MODE, 1, 0, 0)]
    let hard := put dev [(R.therm_SD_MODE, 0, 0, 0)]
    let stop := fun (w : PowerSt) => put (powered { w with orderly := true, ordTick := 1 }) [(R.therm_SD_CAUSE, 1, 0, 0)]
    let held := put dev [(R.therm_SD_CAUSE, 1, 0, 0)]
    let busy := put { run with power := { orderly := true, ordTick := 1 } } [(R.tick_NUM_LO, 65, 0, 0)]
    let cause : State := powered { causes := [(15, 0, 0), (1, 0, 0)] }
    (∀ s ∈ [soft, hard], s.hostOk = true ∧ s.alive = true ∧ s.power.latching = false ∧ s.rd R.therm_SD_CAUSE = 0) ∧
    soft.flag R.therm_SD_MODE = true ∧ hard.flag R.therm_SD_MODE = false ∧ 1 ≤ (1#4).toNat ∧ (12#4).toNat ≤ 12 ∧ (12#4 : BitVec 4) ≠ 7 ∧
    8 ≤ (8#4).toNat ∧ (6#4).toNat < 7 ∧ held.alive = true ∧ held.power.latching = false ∧ held.rd R.therm_SD_CAUSE ≠ 0 ∧ held.power.orderly = false ∧
    cause.alive = true ∧ cause.power.causes = [(15, 0, 0), (1, 0, 0)] ∧ cause.power.latching = false ∧ cause.rd R.therm_SD_CAUSE = 0 ∧
    (∀ n ∈ [0, 1, 2, 3, 4], let s := stop { ordStep := n }
      s.alive = true ∧ s.power.latching = false ∧ s.rd R.therm_SD_CAUSE ≠ 0 ∧ s.power.orderly = true ∧ s.power.ordTick ≠ 0 ∧
      s.power.ordStep = n ∧ (∀ p, p < 64 → s.pstate p ≤ 2) ∧ s.mem.flashOp = none ∧ s.fwRuns = true) ∧
    busy.alive = true ∧ busy.power.orderly = true ∧ busy.power.ordTick ≠ 0 ∧ busy.enabled 63 = true ∧ (busy.part 63).resetDue = none ∧
    busy.power.ordTick + 64 ≤ busy.tickNum ∧ (powered { latching := true }).power.latching = true ∧
    (powered { latching := true }).power.latched = false ∧ (powered { sdcOn := true, sdcPhase := 13 }).power.sdcOn = true ∧
    (powered { sdcOn := true, sdcPhase := 13 }).power.input = true := by decide +kernel

/-- A device whose gauge runs, with a level, ten samples and a VIN of 48 V. -/
def gaugeDev (ceil n : Nat) : State :=
  put (powered { ceilEff := ceil, samples := List.replicate 10 n, vin := 4800 }) [(R.gauge_RUN, 1, 0, 0)]

/-- Averages above, between and below the limits of FREEZE and of HOLD, and the third sample with the over-range flag. -/
theorem witness_InputPowerIsLimited : (gaugeDev 0 0).alive = true ∧ (gaugeDev 0 0).flag R.gauge_RUN = true ∧
    10 ≤ (gaugeDev 0 0).power.samples.length ∧ (powered { cntIinOvr := 2 }).power.cntIinOvr = 2 ∧
    (let s := gaugeDev 1000 10
     420 * s.power.ceilEff < s.tenSamples) ∧ (let s := gaugeDev 1200 10
     s.tenSamples ≤ 400 * s.power.ceilEff) ∧ (let s := gaugeDev 1150 10
     400 * s.power.ceilEff < s.tenSamples ∧ s.tenSamples ≤ 420 * s.power.ceilEff) ∧ (let s := gaugeDev 0 3001
     400 * s.moduleLimit < s.tenSamples) ∧ (let s := gaugeDev 0 2850
     s.tenSamples ≤ 380 * s.moduleLimit) ∧ (let s := gaugeDev 0 3000
     380 * s.moduleLimit < s.tenSamples ∧ s.tenSamples ≤ 400 * s.moduleLimit) := by decide +kernel

/-- The worked example of R596: entry 32 visited by G3 from c 1,000, powered down, with SU_G3 = 3.0 µs: its last conversion begins at T+2 c 4,096. -/
theorem test_gauge_example : let s := put (gaugeDev 0 0) [(R.gauge_SU, 30, 0, 3), (R.tick_PERIOD_LOG2, 14, 0, 0)]
    s.lastConversion 1 ⟨32, entryLo 0 2 1 0 true, 20, true⟩ 1000 0 = 2 * 16384 + 4096 := by decide +kernel

/-- A table in which the last entry of each converter's segment is the only valid one. -/
def entries (lock : Bool) : State :=
  put (gaugeDev 0 0) ((List.range 64).map (fun e => (R.gauge_ENTRY_LO, if e = 23 ∨ e = 63 then entryLo 47 1 0 0 lock else 0, 0, e)))

theorem witness_SensorsAreRead : let s := entries false
    let hot := put dev [(R.therm_SHUT_C, 105, 0, 0)]
    let bad := put dev [(R.therm_FAULTY, 1, 0, 0)]
    let lone := put dev ((List.range 128).map fun i => (R.therm_FAULTY, b2n (decide (1 ≤ i ∧ i ≤ 40)), 0, i))
    s.alive = true ∧ s.flag R.gauge_RUN = true ∧ bitOf (s.rd R.gauge_CONV_FAIL) 2 = false ∧ bitOf (s.rd R.gauge_CONV_FAIL) 3 = false ∧
    (∀ x ∈ [(0, 23), (1, 63)], s.visit x.1 = none ∧ (s.nextVisit x.1).2 = some x.2 ∧
      (s.beginVisit x.1).visit x.1 = some ⟨x.2, s.gLo x.2, 0, true⟩ ∧
      (let u := s.beginVisit x.1
       u.alive = true ∧ u.flag R.gauge_RUN = true ∧ bitOf (u.rd R.gauge_CONV_FAIL) (x.1 + 2) = false)) ∧
    (List.replicate (s.gCount (s.gLo 23)) (0#12, false)).length = s.gCount (s.gLo 23) ∧ s.rd R.tick_PERIOD_LOG2 ≤ 17 ∧
    ovrBit (gChan (s.gLo 23)) = none ∧ s.hostOk = true ∧ s.gLock 63 = false ∧ (entries true).gLock 63 = true ∧ (entries true).hostOk = true ∧
    hot.alive = true ∧ hot.flag R.therm_FAULTY 0 127 = false ∧ 16 * (hot.rd R.therm_SHUT_C : Int) ≤ sgn 16 (1680#16).toNat ∧
    hot.power.orderly = false ∧ bad.alive = true ∧ bad.flag R.therm_FAULTY 0 0 = true ∧ bad.sensMedian 0 = some 0 ∧
    Marks.has (powered { convFail := [(127, true)] }).power.convFail 127 = true ∧ Marks.has dev.power.convFail 127 = false ∧
    (dev.sensNeighbours 127).length = 5 ∧ (lone.sensNeighbours 0).length < 3 ∧ lone.flag R.therm_FAULTY 0 0 = false := by decide +kernel

/-! ### Witnesses: tests, logs and registers -/

def auProd : Product := { product 0 0 with cmd := 0, atHead := true, fmt := 0 }
def auditDev (w tile : Nat) (octs : List (Nat × Int × List Int)) : State :=
  { run with
    parts := [(63, { frame := some { audit := true } })]
    cores := [(511, { auditing := [⟨63, 0, w, tile, 0, some (auProd, octs), none⟩] })] }
def aGlean (c : Nat) (taken : Bool) : Glean := ⟨c, 0x80, 0, 0, 0, false, taken, false, false, 0⟩
def gleanDev (d : State) (suite : Nat) (l : List Glean) : State :=
  put { d with gleans := l } [(R.glean_GL_CORE, 511, 0, 0), (R.glean_GL_SUITE, suite, 0, 0)]

theorem witness_TestsRun : let w := auditDev 0 3 []
    let a := auditDev 1 2 []
    let full := (List.range 64).map (aGlean · false)
    let dropped : Glean := { aGlean 0 false with dropped := true }
    (w.alive = true ∧ (w.core 511).auditing = [⟨63, 0, 0, 3, 0, some (auProd, []), none⟩] ∧ w.windowAt 511 = some 0 ∧
      w.cyc ≤ 0 + 512 ∧ w.slotIdle 511 = true) ∧
    (a.alive = true ∧ (a.core 511).auditing = [⟨63, 0, 1, 2, 0, some (auProd, []), none⟩]) ∧
    (let s := gleanDev dev 1 [aGlean 511 true]
     s.hostOk = true ∧ (s.gleans.filter Glean.open_).any (fun g => g.core == s.rd R.glean_GL_CORE) = true ∧ s.alive = true ∧
      s.glean (511#9).toNat = some (aGlean 511 true) ∧ (aGlean 511 true).open_ = true ∧ s.nextKernel (aGlean 511 true) = some 7 ∧
      s.nextKernel { aGlean 511 true with suite := 1 } = some 0) ∧
    (let s := gleanDev dev 1 full
     s.hostOk = true ∧ (s.gleans.filter Glean.open_).any (fun g => g.core == s.rd R.glean_GL_CORE) = false ∧
      64 ≤ (s.gleans.filter Glean.open_).length) ∧
    (∀ d ∈ [(run, 0x80), (dev, 0x80), (run, 1)], let s := gleanDev d.1 d.2 (full.drop 1 ++ [dropped])
     s.hostOk = true ∧ (s.gleans.filter Glean.open_).any (fun g => g.core == s.rd R.glean_GL_CORE) = false ∧
      (s.gleans.filter Glean.open_).length < 64 ∧ bitOf (s.rd R.glean_GL_SUITE) 7 = (d.2 == 0x80) ∧
      (s.enabledOwner (s.rd R.glean_GL_CORE)).isSome = (d.1.pstate 63 == 3)) := by decide +kernel

def errRec (cls : Byte) : ErrRec := ⟨cls, 0x0A, 0, 0xFF, 561, 0, 0xFFFFFFFF, 0xFFFF, 0xFFFF, 0, 0, []⟩
/-- Records of classes 1 and 4 in a ring with 64, 63 and no places left, a record to select, a mirror, and the snapshots' edges. -/
theorem witness_LogsAreWritten : (∀ cls ∈ ([1, 4] : List Byte), ∀ rd ∈ [65, 64, 1], let s := put { dev with log := { prev := [errRec cls] } } [(R.err_LOG_RD, rd, 0, 0)]
      s.loggerRuns = true ∧ s.log.prev = [errRec cls] ∧ s.log.haePrev = [] ∧ s.logRoom (errRec cls) = if cls = 1 then decide (rd = 65) else
        decide (rd ≠ 1)) ∧
    dev.hostErr = true ∧ Tbl.get 0 dev.mem.granErr (errGran (65535#16).toNat) = 0 ∧ dev.granBad (errGran (65535#16).toNat) = false ∧
    (let s := put run [(R.trail_HM_EN, 1, 63, 0), (R.trail_TR_WR, 1, 63, 0)]
     s.alive = true ∧ s.flag R.trail_HM_EN (63#6).toNat = true) ∧
    (let at_ := fun (n k : Nat) => put { dev with snaps := List.replicate k ⟨100, 0⟩ } [(R.snap_SNAP_AT_LO, n, 0, 0)]
     let when := fun (s : State) => s.rd R.snap_SNAP_AT_LO + 2 ^ 32 * s.rd R.snap_SNAP_AT_HI
     dev.hostOk = true ∧ (∀ n ∈ [3, 4], ∀ k ∈ [3, 4], (at_ n k).hostOk = true ∧ when (at_ n k) = n ∧ (at_ n k).tickNum = 0 ∧
      (at_ n k).snaps.length = k)) := by decide +kernel

theorem logRd_alone : fieldsAt 0x500004 = [(R.err_LOG_RD, 0, 0)] := by decide +kernel
theorem numLo_alone : fieldsAt 0x100004 = [(R.tick_NUM_LO, 0, 0)] := by decide +kernel
theorem tickFlags : fieldsAt 0x100020 = [(R.tick_SOURCE_OK, 0, 0), (R.tick_HOLDOVER, 0, 0), (R.tick_ALIGN_ERR, 0, 0),
  (R.tick_NUM_ERR, 0, 0), (R.tick_PCHG, 0, 0), (R.tick_UPPORT, 0, 0)] := by decide +kernel

theorem mem_of_eq {a : Nat} {x : Fld × Nat × Nat} {l : List (Fld × Nat × Nat)} (h : fieldsAt a = l) (m : x ∈ l) : x ∈ fieldsAt a := h ▸ m

/-- LOG_RD and NUM_LO are served. -/
theorem witness_RegisterAccesses : dev.linked = true ∧ dev.fnBlocked 0 = false ∧ 
    dev.serves 0 (0x500004#26).toNat = true ∧ (0x500004#26).toNat % 4 = 0 ∧ dev.serves 0 (0x100004#26).toNat = true ∧
    (0x100004#26).toNat % 4 = 0 ∧ (zeros.take 4).length = 4 := by decide +kernel

theorem logRd_range : inRangeOf R.err_LOG_RD (bitsOf 65535 0 16) = true := by decide +kernel
theorem logRd_now : (atEdge.any fun g => R.err_LOG_RD.is g) = false := by decide +kernel

/-- Fields of each access type. -/
theorem witness_RegisterAccesses_fields :
    ((R.err_LOG_RD, 0, 0) ∈ fieldsAt 0x500004 ∧ R.err_LOG_RD.acc = .rw ∧ inRangeOf R.err_LOG_RD (bitsOf 65535 0 16) = true ∧
      (atEdge.any fun g => R.err_LOG_RD.is g) = false) ∧
    ((R.tick_ALIGN_ERR, 0, 0) ∈ fieldsAt 0x100020 ∧ R.tick_ALIGN_ERR.acc = .w1c) ∧
    ((R.tick_NUM_LO, 0, 0) ∈ fieldsAt 0x100004 ∧ R.tick_NUM_LO.acc = .ro) :=
  ⟨⟨mem_of_eq logRd_alone (.head _), rfl, logRd_range, logRd_now⟩, ⟨mem_of_eq tickFlags (.tail _ (.tail _ (.head _))), rfl⟩,
    ⟨mem_of_eq numLo_alone (.head _), rfl⟩⟩

theorem witness_IdentWritesHaveNoEffect : (zeros.take 4).length = 4 ∧ (zeros.take 8).length = 8 := by decide

/-- CNT_CORR stands alone in its register. -/
theorem cntCorr_alone : fieldsAt R.err_CNT_CORR.off = [(R.err_CNT_CORR, 0, 0)] := by decide +kernel

theorem witness_SnapshotViewShowsShadows : let s := put dev [(R.snap_SNAP_VIEW, 1, 0, 0)]
    let off := BitVec.ofNat 26 R.err_CNT_CORR.off
    R.err_CNT_CORR ∈ latchables ∧ s.flag R.snap_SNAP_VIEW = true ∧ fieldsAt off.toNat = [(R.err_CNT_CORR, 0, 0)] ∧ s.linked = true ∧
    s.fnBlocked 0 = false ∧ s.serves 0 off.toNat = true ∧ off.toNat % 4 = 0 :=
  ⟨List.contains_iff_mem.mp (by decide +kernel), by decide +kernel, cntCorr_alone, by decide +kernel, by decide +kernel, by decide +kernel, by decide +kernel⟩

end Sys2Proof.Tests
end

section
/-! The IDENT page: a host write there changes nothing (R5, R6). -/

namespace Sys2Proof.Machine

/-! ### Writes of read-only fields (R15) -/

theorem State.writeField_of_ro {f : Fld} (hf : f.acc = .ro) (s : State) (i j v : Nat) : s.writeField f i j v = s := by
  simp only [State.writeField, hf]

/-- A plain write to a register whose fields are all read-only, or to an offset with no field, leaves the state as it was. -/
theorem State.plain_of_ro {a : Nat} (h : ∀ x ∈ fieldsAt a, x.1.acc = .ro) (s : State) (v : Nat) : s.plain a v = s := by
  unfold State.plain State.plainBut
  refine List.foldlRecOn (motive := (· = s)) _ _ rfl fun t ht x hx => ?_
  have hro : x.1.acc = .ro := h x (List.mem_filter.mp hx).1
  rw [State.writeField_of_ro hro, ht]

/-! ### The fields of the IDENT page -/

theorem Fld.at_of_lt_off {f : Fld} {a : Nat} (h : a < f.off) : f.at_ a = none := if_pos h

theorem Fld.off_le_of_at {f : Fld} {a : Nat} {ij : Nat × Nat} (h : f.at_ a = some ij) : f.off ≤ a :=
  Nat.le_of_not_lt fun hlt => nomatch (Fld.at_of_lt_off hlt).symm.trans h

theorem routerOff_of_lt {a : Nat} (h : a < 0x1000000) : routerOff a = a :=
  if_neg fun hcore => absurd hcore.1 (Nat.not_le.mpr h)

/-- Every field that starts in the IDENT page is read-only: in the manual's tables these are the fields of IDENT. -/
theorem regMap_identPage_ro : ∀ f ∈ regMap, f.off < 0x1000 → f.acc = .ro := by decide +kernel

theorem fieldsAt_identPage_ro {a : Nat} (h : a < 0x1000) : ∀ x ∈ fieldsAt a, x.1.acc = .ro := by
  intro x hx
  rw [fieldsAt, routerOff_of_lt (by omega), List.mem_filterMap] at hx
  obtain ⟨f, hf, hx⟩ := hx
  obtain ⟨ij, hat, rfl⟩ := Option.map_eq_some_iff.mp hx
  exact regMap_identPage_ro f hf (Nat.lt_of_le_of_lt (Fld.off_le_of_at hat) h)

/-! ### A write's way to the IDENT page -/

/-- No block with a rule of its own reaches into the IDENT page. -/
theorem State.wrLow_identPage {w : HostWr} (h : w.a < 0x1000) (s : State) : s.wrLow w = s.plain w.a w.v := by
  unfold State.wrLow
  repeat rw [if_neg (by omega)]

theorem State.regWrite_identPage {w : HostWr} (h : w.a < 0x1000) (s : State) (key : Bool) : s.regWrite w key = s.plain w.a w.v := by
  rw [State.regWrite, if_pos (by omega), State.wrLow_identPage h]

theorem State.writeWord_identPage {a : Nat} (h : a < 0x1000) (s : State) (v : Nat) (key : Bool) : s.writeWord 0 a v key = s := by
  unfold State.writeWord
  split
  case isTrue => rfl
  case isFalse => rw [if_pos rfl, State.regWrite_identPage h, State.plain_of_ro (fieldsAt_identPage_ro h)]

theorem bar0Form_zero {n : Nat} (h : n = 4 ∨ n = 8) : bar0Form n 0 = true := by
  obtain rfl | rfl := h <;> rfl

/-- A write of one or two words at IDENT leaves the state as it was, whether the host reaches the register or not. -/
theorem execRegisterWrite_ident {data : List Byte} (h : data.length = 4 ∨ data.length = 8) (key : Bool) (s : State) :
    execRegisterWrite 0 0 data key s = .next s := by
  have hform : bar0Form data.length 0 = true := bar0Form_zero h
  have haper : inAperture 0 0 = false := rfl
  have hfirst (v : Nat) : s.writeWord 0 0 v key = s := State.writeWord_identPage (by omega) s v key
  have hsecond (v : Nat) : s.writeWord 0 4 v key = s := State.writeWord_identPage (by omega) s v key
  simp only [execRegisterWrite, BitVec.ofNat_eq_ofNat, BitVec.toNat_ofNat, Nat.zero_mod, Nat.zero_add, haper, hform, hfirst,
    hsecond, Bool.not_true, Bool.false_eq_true, if_false, ite_self]

/-- Settles O59: IDENT and the word after it lie in a page whose fields are all read-only and which has no rule of its own. -/
theorem identWritesHaveNoEffect : Obligations.IdentWritesHaveNoEffect :=
  fun _data key s hlen => ⟨s, execRegisterWrite_ident hlen key s, rfl⟩

end Sys2Proof.Machine
end

section
/-! An unknown opcode: the engine stops and its partition is reset (R266). -/

namespace Sys2Proof.Machine

/-! ### Frames that let a partition and its cores be told from the registers -/

theorem State.KeepsRegs.flag {s t : State} {l : List Fld} (h : s.KeepsRegs t l) {f : Fld} (i j : Nat) (hf : ∀ g ∈ l, g.id ≠ f.id) :
    t.flag f i j = s.flag f i j := by
  rw [State.flag, State.flag, h f i j hf]

/-- A change outside the core table leaves the cores' owners as they were. -/
theorem State.KeepsRegs.owner {s t : State} {l : List Fld} (h : s.KeepsRegs t l) (c : Nat)
    (hl : ∀ f ∈ l, f.id ≠ R.ctab_OWNED.id ∧ f.id ≠ R.ctab_OWNER.id) : t.owner c = s.owner c := by
  rw [State.owner, State.owner, h.flag c 0 fun f hf => (hl f hf).1, h R.ctab_OWNER c 0 fun f hf => (hl f hf).2]

/-- A change outside PSTATE leaves a partition enabled, or not, as it was. -/
theorem State.KeepsRegs.enabled {s t : State} {l : List Fld} (h : s.KeepsRegs t l) (p : Nat)
    (hl : ∀ f ∈ l, f.id ≠ R.part_PSTATE.id) : t.enabled p = s.enabled p := by
  rw [State.enabled, State.enabled, State.pstate, State.pstate, h R.part_PSTATE p 0 hl]

/-- A runnable engine's partition is enabled. -/
theorem State.enabled_of_runnable {s : State} {c p : Nat} {e : Engine} (hr : s.runnable c e = true) (ho : s.owner c = some p) :
    s.enabled p = true := by
  have hp : s.pstate p = 3 := by
    unfold State.runnable at hr
    rw [ho] at hr
    exact beq_iff_eq.mp (Bool.and_eq_true_iff.mp hr).2
  rw [State.enabled, hp]
  rfl

/-! ### Reading a command's header (R267) -/

/-- Reading a command changes at most CMD_RSVD among the registers. -/
theorem State.readHead_keeps (s : State) (c : Nat) (e : Engine) (cmd : Cmd) : s.KeepsRegs (s.readHead c e cmd) [R.core_CMD_RSVD] := by
  unfold State.readHead
  split
  · exact .refl _ _
  · exact .ite (((State.KeepsRegs.refl s _).keep rfl).bump (by simp)) ((State.KeepsRegs.refl s _).keep rfl)

@[simp] theorem State.readHead_part (s : State) (c : Nat) (e : Engine) (cmd : Cmd) (p : Nat) : (s.readHead c e cmd).part p = s.part p := by
  unfold State.readHead
  split
  · rfl
  · dsimp only
    split <;> rfl

/-! ### Stopping an engine with a core error (R302) -/

@[simp] theorem State.setEng_part (s : State) (c : Nat) (e : Engine) (v p : Nat) : (s.setEng c e v).part p = s.part p := by
  rw [State.setEng_eq]
  rfl

@[simp] theorem State.coreErr_part (s : State) (c : Nat) (e : Engine) (code p : Nat) : (s.coreErr c e code).part p = s.part p := rfl

theorem State.coreErr_keeps (s : State) (c : Nat) (e : Engine) (code : Nat) :
    s.KeepsRegs (s.coreErr c e code) [R.core_CORE_ERR, R.core_CORE_ERR_ENG, R.core_CORE_ERR_VALID] :=
  (((State.KeepsRegs.refl s _).wr (by simp)).wr (by simp)).wr (by simp)

theorem State.coreErr_code (s : State) (c : Nat) (e : Engine) {code : Nat} (hc : code < 256) :
    (s.coreErr c e code).rd R.core_CORE_ERR c = code := by
  unfold State.coreErr
  rw [State.rd_wr_other _ _ _ _ _ _ _ _ (by decide), State.rd_wr_other _ _ _ _ _ _ _ _ (by decide),
    State.rd_wr _ _ _ _ _ _ _ (by decide), if_pos rfl]
  exact Nat.mod_eq_of_lt hc

theorem State.coreErr_engine (s : State) (c : Nat) (e : Engine) (code : Nat) : (s.coreErr c e code).rd R.core_CORE_ERR_ENG c = e.num := by
  unfold State.coreErr
  rw [State.rd_wr_other _ _ _ _ _ _ _ _ (by decide), State.rd_wr _ _ _ _ _ _ _ (by decide), if_pos rfl]
  cases e <;> rfl

theorem State.coreErr_valid (s : State) (c : Nat) (e : Engine) (code : Nat) : (s.coreErr c e code).rd R.core_CORE_ERR_VALID c = 1 := by
  unfold State.coreErr
  rw [State.rd_wr _ _ _ _ _ _ _ (by decide), if_pos rfl]
  rfl

/-- The registers that stopping an engine with a core error writes. -/
def stopRegs (e : Engine) : List Fld :=
  [engState e, R.mx_HEAD_WAIT, R.mx_BUSY, R.mx_INFLIGHT, R.core_CORE_ERR, R.core_CORE_ERR_ENG, R.core_CORE_ERR_VALID]

theorem State.setEng_coreErr_keeps (s : State) (c : Nat) (e : Engine) (v code : Nat) :
    s.KeepsRegs ((s.setEng c e v).coreErr c e code) (stopRegs e) :=
  (State.KeepsRegs.setEng (.refl s _) (by simp [stopRegs]) (by simp [stopRegs])).trans
    ((State.coreErr_keeps _ c e code).mono (by simp [stopRegs]))

/-! ### Partition-fatal errors (R530, R629) -/

theorem satAdd32_lt (a b : Nat) : satAdd32 a b < 2 ^ 32 := Nat.lt_of_le_of_lt (Nat.min_le_right _ _) (by decide)

/-- A reset requested of an enabled partition that has none due falls due, with its cause. -/
theorem State.requestReset_due {s : State} {p : Nat} (he : s.enabled p = true) (hd : (s.part p).resetDue = none) (cause : Nat) :
    ((s.requestReset p cause).part p).resetDue = some cause := by
  rw [State.requestReset, he, hd, Option.isNone_none, Bool.and_self, if_pos rfl, State.part_updPart, if_pos rfl]

theorem State.partFatal_keeps (s : State) (src code p station req item addr : Nat) (detail : List Byte) :
    s.KeepsRegs (s.partFatal src code p station req item addr detail) [R.err_CNT_PFATAL] :=
  (State.KeepsRegs.refl s _).partFatal (by simp)

/-- A partition-fatal error counts in CNT_PFATAL. -/
theorem State.partFatal_count (s : State) (src code p station req item addr : Nat) (detail : List Byte) :
    (s.partFatal src code p station req item addr detail).rd R.err_CNT_PFATAL = satAdd32 (s.rd R.err_CNT_PFATAL) 1 := by
  have hreset : (s.logErr 3 src code p station req item addr detail).KeepsRegs (s.partFatal src code p station req item addr detail) [] :=
    (State.KeepsRegs.refl _ _).requestReset
  rw [hreset R.err_CNT_PFATAL 0 0 (by simp)]
  exact (State.rd_bump _ R.err_CNT_PFATAL 1 0 0 rfl).trans (Nat.mod_eq_of_lt (satAdd32_lt _ _))

/-- A partition-fatal error of an enabled partition makes its reset due with cause 3. -/
theorem State.partFatal_due {s : State} {p : Nat} (he : s.enabled p = true) (hd : (s.part p).resetDue = none)
    (src code station req item addr : Nat) (detail : List Byte) :
    ((s.partFatal src code p station req item addr detail).part p).resetDue = some 3 := by
  have hlog : s.KeepsRegs (s.logErr 3 src code p station req item addr detail) [R.err_CNT_PFATAL] :=
    (State.KeepsRegs.refl s _).logErr (cls := 3) (List.mem_singleton.mpr rfl)
  have hen : (s.logErr 3 src code p station req item addr detail).enabled p = true := by rw [hlog.enabled p (by decide), he]
  exact State.requestReset_due hen hd 3

/-- A partition-fatal error of an owned core is its owner's. -/
theorem State.coreFatal_of_owner {s : State} {c p : Nat} (ho : s.owner c = some p) (src code : Nat) (detail : List Byte) :
    s.coreFatal src code c detail = s.partFatal src code p c 0xFFFF 0 0 detail := by
  rw [State.coreFatal, ho]

/-! ### An unknown opcode (R266) -/

/-- What an engine shows that has stopped at an unknown opcode, and the reset that falls due for its partition. -/
structure State.StoppedUnknown (s t : State) (c : Nat) (e : Engine) (p : Nat) : Prop where
  state : t.rd (engState e) c = 5
  code : t.rd R.core_CORE_ERR c = 0x10
  engine : t.rd R.core_CORE_ERR_ENG c = e.num
  valid : t.rd R.core_CORE_ERR_VALID c = 1
  due : (t.part p).resetDue = some 3
  count : t.rd R.err_CNT_PFATAL = satAdd32 (s.rd R.err_CNT_PFATAL) 1

/-- The engine of an enabled partition's core stops at an unknown opcode. -/
theorem State.unknown_stops {s : State} {c p : Nat} (e : Engine) (ho : s.owner c = some p) (he : s.enabled p = true)
    (hd : (s.part p).resetDue = none) : s.StoppedUnknown (s.unknown c e) c e p := by
  let u := (s.setEng c e 5).coreErr c e 0x10
  have hkeep : s.KeepsRegs u (stopRegs e) := s.setEng_coreErr_keeps c e 5 0x10
  have huo : u.owner c = some p := by rw [hkeep.owner c (by cases e <;> decide), ho]
  have hue : u.enabled p = true := by rw [hkeep.enabled p (by cases e <;> decide), he]
  have hud : (u.part p).resetDue = none := by simp only [u, State.coreErr_part, State.setEng_part, hd]
  have hfatal : s.unknown c e = u.partFatal 0x05 0x10 p c 0xFFFF 0 0 [] := State.coreFatal_of_owner huo 0x05 0x10 []
  have hlast : u.KeepsRegs (s.unknown c e) [R.err_CNT_PFATAL] := hfatal ▸ u.partFatal_keeps 0x05 0x10 p c 0xFFFF 0 0 []
  exact {
    state := by
      rw [hlast (engState e) c 0 (by cases e <;> decide), State.coreErr_keeps _ c e 0x10 (engState e) c 0 (by cases e <;> decide)]
      exact State.setEng_state s c e 5 (by decide)
    code := (hlast R.core_CORE_ERR c 0 (by decide)).trans (State.coreErr_code _ c e (by decide))
    engine := (hlast R.core_CORE_ERR_ENG c 0 (by decide)).trans (State.coreErr_engine _ c e 0x10)
    valid := (hlast R.core_CORE_ERR_VALID c 0 (by decide)).trans (State.coreErr_valid _ c e 0x10)
    due := hfatal ▸ State.partFatal_due hue hud 0x05 0x10 c 0xFFFF 0 0 []
    count := by rw [hfatal, State.partFatal_count, hkeep R.err_CNT_PFATAL 0 0 (by cases e <;> decide)] }

/-- Reading the header first changes nothing of what the stop shows. -/
theorem State.readHead_unknown_stops {s : State} {c p : Nat} (e : Engine) (cmd : Cmd) (ho : s.owner c = some p) (he : s.enabled p = true)
    (hd : (s.part p).resetDue = none) : s.StoppedUnknown ((s.readHead c e cmd).unknown c e) c e p := by
  have hkeep : s.KeepsRegs (s.readHead c e cmd) [R.core_CMD_RSVD] := s.readHead_keeps c e cmd
  have hstop : (s.readHead c e cmd).StoppedUnknown ((s.readHead c e cmd).unknown c e) c e p :=
    State.unknown_stops e (by rw [hkeep.owner c (by decide), ho]) (by rw [hkeep.enabled p (by decide), he]) (by rw [State.readHead_part, hd])
  exact { hstop with count := hstop.count.trans (by rw [hkeep R.err_CNT_PFATAL 0 0 (by decide)]) }

theorem exec_unknownOpcode_of_runnable {core : BitVec 9} {e : Engine} {s : State} (cmd : Cmd) (hr : s.runnable core.toNat e = true) :
    exec (.unknownOpcode core e cmd) s = .next ((s.readHead core.toNat e cmd).unknown core.toNat e) := by
  change execUnknownOpcode core e cmd s = _
  rw [execUnknownOpcode, if_pos hr]

/-- Every engine knows the opcodes of the table of common commands. -/
theorem mem_knownOpcodes_of_lt {op : Nat} (h : op < 4) (e : Engine) : op ∈ knownOpcodes e := by
  cases e <;> simp only [knownOpcodes, List.mem_cons] <;> omega

/-- An opcode outside the tables of its engine is read as unknown: every other arm of the reading is for a listed opcode. -/
theorem engineInstr_of_not_known {e : Engine} {cmd : Cmd} (c : BitVec 9) (h : cmd.opcode ∉ knownOpcodes e) :
    engineInstr c e cmd = .unknownOpcode c e cmd := by
  unfold engineInstr
  split
  case h_1 hop | h_2 hop | h_3 hop | h_4 hop => exact absurd (mem_knownOpcodes_of_lt (by omega) _) h
  case h_28 => rfl
  all_goals
    next hop => exact absurd (by rw [hop]; decide) h

/-- Settles O8: the tables of R266 decide what is unknown, and the stop is the partition-fatal error of the core's owner. -/
theorem unknownOpcodeStops : Obligations.UnknownOpcodeStops := by
  refine ⟨fun c _ _ h => engineInstr_of_not_known c h, fun core e cmd s p hr ho hd => ⟨_, exec_unknownOpcode_of_runnable cmd hr, ?_⟩⟩
  have hstop := State.readHead_unknown_stops e cmd ho (State.enabled_of_runnable hr ho) hd
  exact ⟨hstop.state, hstop.code, hstop.engine, hstop.valid, hstop.due, hstop.count⟩

end Sys2Proof.Machine
end

section
/-! Snapshot views: the physical function's reads of latchable fields show the shadows, a virtual function's the live bank (R669, R670). -/

namespace Sys2Proof.Machine

/-! ### What a read of a latchable field shows (R670) -/

/-- The fields whose reads the model answers from a unit's own state. -/
def unitAnswered : List Fld := [R.fmtp_POLICY, R.ptier_SILO_COUNT, R.rtr_NODE_LO, R.rtr_NODE_HI, R.we_IMG_A, R.we_IMG_B]

/-- A read of the field shows the bank that the reader sees: the field is not write-only, no unit answers for it and no write of it waits
for the next edge. -/
structure Fld.ReadsBank (f : Fld) : Prop where
  readable : f.acc ≠ .wo
  noUnit : ∀ g ∈ unitAnswered, f.is g = false
  noWait : (atEdge.any fun g => f.is g) = false

theorem State.readField_of_readsBank {f : Fld} (h : f.ReadsBank) (s : State) (fn i j : Nat) :
    s.readField fn f i j = ((s.viewed fn f).rd f i j).toNat := by
  obtain ⟨hacc, hunit, hwait⟩ := h
  simp only [unitAnswered, List.forall_mem_cons] at hunit
  obtain ⟨hpolicy, hsilo, hlo, hhi, himgA, himgB, -⟩ := hunit
  have hpending : s.power.wr.reverse.find? (fun w => atEdge.any (fun g => f.is g) && w.1 == f.id && w.2.1 == f.key i j) = none := by
    simp only [hwait, Bool.false_and, List.find?_eq_none, Bool.false_eq_true, not_false_eq_true, implies_true]
  simp only [State.readField, hacc, hpolicy, hsilo, hlo, hhi, himgA, himgB, hpending, Bool.false_eq_true, if_false]

theorem latchables_readsBank {f : Fld} (hf : f ∈ latchables) : f.ReadsBank where
  readable := (by decide +kernel : ∀ f ∈ latchables, f.acc ≠ .wo) f hf
  noUnit := (by decide +kernel : ∀ f ∈ latchables, ∀ g ∈ unitAnswered, f.is g = false) f hf
  noWait := (by decide +kernel : ∀ f ∈ latchables, (atEdge.any fun g => f.is g) = false) f hf

/-- With SNAP_VIEW at 1 the physical function sees a latchable field in the shadows. -/
theorem State.viewed_pf {s : State} {f : Fld} (hf : f ∈ latchables) (hview : s.flag R.snap_SNAP_VIEW = true) : s.viewed 0 f = s.shadow :=
  if_pos ⟨rfl, hview, List.any_eq_true.mpr ⟨f, hf, beq_self_eq_true f.id⟩⟩

/-- A virtual function sees every field in the live bank. -/
theorem State.viewed_vf {fn : Nat} (hfn : fn ≠ 0) (s : State) (f : Fld) : s.viewed fn f = s.regs := if_neg fun h => hfn h.1

theorem State.readField_pf_latchable {s : State} {f : Fld} (hf : f ∈ latchables) (hview : s.flag R.snap_SNAP_VIEW = true) (i j : Nat) :
    s.readField 0 f i j = (s.shadow.rd f i j).toNat := by
  rw [State.readField_of_readsBank (latchables_readsBank hf), State.viewed_pf hf hview]

theorem State.readField_vf_latchable {f : Fld} (hf : f ∈ latchables) {fn : Nat} (hfn : fn ≠ 0) (s : State) (i j : Nat) :
    s.readField fn f i j = s.rd f i j := by
  rw [State.readField_of_readsBank (latchables_readsBank hf), State.viewed_vf hfn, State.rd]

/-! ### Reading a register (R15, R16, R57) -/

/-- Filling the holding registers leaves memory as it was. -/
@[simp] theorem State.hold_mem (s : State) (fn : Nat) (f : Fld) (i : Nat) : (s.hold fn f i).mem = s.mem := by
  unfold State.hold
  split
  case h_1 => exact List.foldlRecOn (motive := (·.mem = s.mem)) _ _ rfl fun t ht x _ => (State.wr_mem t _ _ _ _).trans ht
  case h_2 => rfl

@[simp] theorem State.readReg_mem (s : State) (fn a : Nat) : (s.readReg fn a).1.mem = s.mem :=
  List.foldlRecOn (motive := (·.mem = s.mem)) _ _ rfl fun t ht x _ => (State.hold_mem t fn x.1 x.2.1).trans ht

/-- A register of one field reads as that field in its place, its reserved bits 0. -/
theorem State.readReg_of_single {a i j : Nat} {f : Fld} (h : fieldsAt a = [(f, i, j)]) (s : State) (fn : Nat) :
    (s.readReg fn a).2 = s.readField fn f i j * 2 ^ f.lsb := by
  simp only [State.readReg, h, List.map_cons, List.map_nil, List.foldl_cons, List.foldl_nil, Nat.zero_add]

/-- A word-aligned read of one word by the physical function, where BAR0 serves it, answers with the register's value. -/
theorem exec_holdingRegisterRead_word {s : State} {off : BitVec 26} (hlink : s.linked = true) (hfree : s.fnBlocked 0 = false)
    (hserve : s.serves 0 off.toNat = true) (halign : off.toNat % 4 = 0) :
    s.Runs (.holdingRegisterRead 0 off 4) fun t => t.host.answer = toLe 4 (s.readReg 0 off.toNat).2 ∧ t.mem = s.mem := by
  have haper : inAperture 0 off.toNat = false := rfl
  have hform : bar0Form 4 off.toNat = true := by rw [bar0Form, halign]; rfl
  have hword : s.readWord 0 off.toNat = s.readReg 0 off.toNat := by rw [State.readWord, hserve]; rfl
  refine ⟨(s.readReg 0 off.toNat).1.updHost fun h =>
    { h with answer := toLe 4 (s.readReg 0 off.toNat).2, answerBad := false, answerUr := false }, ?_, rfl, s.readReg_mem 0 off.toNat⟩
  change execHoldingRegisterRead 0 off 4 s = _
  simp [execHoldingRegisterRead, hlink, hfree, haper, hform, hword]

/-- Settles O60: every latchable field reads from the bank that the reader sees, and only the physical function's reads see the shadows. -/
theorem snapshotViewShowsShadows : Obligations.SnapshotViewShowsShadows := by
  refine fun s f i j hf => ⟨fun hview => ⟨State.readField_pf_latchable hf hview i j, ?_⟩,
    fun fn hfn => State.readField_vf_latchable hf hfn s i j⟩
  intro off hsingle hlink hfree hserve halign
  have hvalue : (s.readReg 0 off.toNat).2 = (s.shadow.rd f i j).toNat * 2 ^ f.lsb := by
    rw [State.readReg_of_single hsingle, State.readField_pf_latchable hf hview]
  exact hvalue ▸ exec_holdingRegisterRead_word hlink hfree hserve halign

end Sys2Proof.Machine
end
